-- ==== Sys2Proof/Word.lean ====
section
/-! DEFINITION. The word types of the module and the exact values that its arithmetic rounds.
Every multi-byte value is little-endian (R10); widths stand in the types. -/

namespace Sys2Proof

/-- One byte of memory. -/
abbrev Byte := BitVec 8
/-- A 16-bit word: a block word, a BF16 value, a sequence number. -/
abbrev Half := BitVec 16
/-- A 32-bit word: an FP32 bit pattern, a scalar register, a kite word. -/
abbrev Word := BitVec 32
/-- A 64-bit word: a device address, TQ_TAG, a seed. -/
abbrev Long := BitVec 64

/-- A sparse table: strictly rising keys, no entry equal to the table's default (R7 leaves contents in place). -/
abbrev SMap (α : Type) := List (Nat × α)

/-- The exact value of a floating-point bit pattern (R48): NaN, an infinity, or (-1)^neg * m * 2^e. -/
inductive FpVal where
  | nan
  | inf (neg : Bool)
  | fin (neg : Bool) (m : Nat) (e : Int)
  deriving DecidableEq, Repr

/-- A binary floating-point format of R48: exponent and mantissa widths, bias, the largest finite magnitude pattern, and
whether exponent all-ones with mantissa 0 is an infinity. `subnormals = false` is F19's rule that exponent 0 means zero. -/
structure Fmt where
  ew : Nat
  mw : Nat
  bias : Nat
  maxFin : Nat
  hasInf : Bool := true
  subnormals : Bool := true
  deriving DecidableEq, Repr

/-- An exact quotient of integers, `den` never 0: the exact real values of R59. -/
structure Frac where
  num : Int
  den : Nat
  deriving DecidableEq, Repr

end Sys2Proof
end

