-- ==== Sys2Proof/Syntax.lean ====
section
/-! DEFINITION. The commands of the block and their operands, as the rows of spec/opcode_table.json and the operand layouts of
the chapters give them. Fields that an op word carries keep their width, so that a reserved value can be written down. -/

namespace Sys2Proof

/-- The context that an op of a routine runs in: a core of the mesh (R8) and whether it is the guest context (R171). -/
structure Site where
  x : Fin 48
  y : Fin 48
  guest : Bool
  deriving DecidableEq, Repr

/-- The fields that every op word carries (R173), and any reserved bits or flags of the word that are set (R175). -/
structure OpHead where
  st : Bool
  tok : BitVec 4
  wmask : BitVec 16
  rsv : BitVec 128 := 0#128
  deriving DecidableEq, Repr

/-- LSA (R172): the line is S[s] + off. -/
structure Lsa where
  s : BitVec 4
  off : BitVec 14
  deriving DecidableEq, Repr

/-- TIX (R172): the tile index is S[s] + off. -/
structure Tix where
  s : BitVec 4
  off : BitVec 12
  deriving DecidableEq, Repr

/-- LWA (R172): the local-store word address is S[s] + off. -/
structure Lwa where
  s : BitVec 4
  off : BitVec 20
  deriving DecidableEq, Repr

/-- An operand spec of VEC and RED (R177): kind and payload. `reserved` is kind 7. -/
inductive Spec where
  | none (payload : BitVec 15)
  | oc (line : BitVec 10) (stride : BitVec 5)
  | tq (row0 : BitVec 6) (rsv : BitVec 9)
  | ta (n : BitVec 4) (rsv : BitVec 11)
  | ls (s : BitVec 4) (off : BitVec 11)
  | imm (idx : BitVec 6) (rsv : BitVec 9)
  | sreg (n : BitVec 4) (rsv : BitVec 11)
  | reserved (payload : BitVec 15)
  deriving DecidableEq, Repr

/-- The VEC functions of R134. -/
inductive VecFn where
  | iadd | isub | imul | imin | imax | iabs | ineg | icmpeq | icmplt | shl | shr | sra | and | or | xor | andn | sel | mov
  | fadd | fsub | fmul | ffma | fmin | fmax | fabs | fneg | fcmpeq | fcmplt | fcmple
  | cvtF32I32 | cvtI32F32 | cvtToBf16 | cvtToFp16 | cvtToE5m2 | cvtToE4m3
  | cvtFromBf16 | cvtFromFp16 | cvtFromE5m2 | cvtFromE4m3
  deriving DecidableEq, Repr

/-- The RED functions of R143. -/
inductive RedFn where
  | max | min | maxabs | sum | ssq | norm | countNf
  deriving DecidableEq, Repr

/-- The operations of TBIN (R146). -/
inductive TbinOp where
  | fadd | fsub | fmul | fmax | fmin
  deriving DecidableEq, Repr

/-- Operands of LSMOV (R176). -/
structure LsmovArgs where
  src : Lsa
  dst : Lsa
  nlinesM1 : BitVec 7
  const : BitVec 6
  deriving DecidableEq, Repr

/-- Operands of DLOAD and DSTORE (R176). -/
structure DmaOpArgs where
  line : Lsa
  quarter : BitVec 2
  mreg : BitVec 4
  lreg : BitVec 4
  chan : BitVec 6
  deriving DecidableEq, Repr

/-- Operands of SEND (R176). -/
structure SendArgs where
  ep : BitVec 6
  src : Lwa
  len : BitVec 13
  lreg : BitVec 4
  seqReg : BitVec 4
  seqOff : BitVec 12
  stream : BitVec 2
  planeM1 : BitVec 2
  wfmt : BitVec 3
  endf : Bool
  nf : Bool
  tend : Bool
  deriving DecidableEq, Repr

/-- Operands of QUANT (R176). -/
structure QuantArgs where
  src : Lsa
  tile : Tix
  desc : BitVec 6
  recIdx : BitVec 6
  g0 : BitVec 6
  summ : Lsa
  learn : Lsa
  sfmt : BitVec 3
  kreg : BitVec 4
  transpose : Bool
  deriving DecidableEq, Repr

/-- Operands of PINWHEEL (R176). -/
structure PinwheelArgs where
  src : Lsa
  dst : Lsa
  tile : Tix
  desc : BitVec 6
  sfmt : BitVec 3
  transpose : Bool
  deriving DecidableEq, Repr

/-- Operands of MATMUL (R176). -/
structure MatmulArgs where
  a : BitVec 8
  aTix : Tix
  b : BitVec 8
  bTix : Tix
  nchunkM1 : BitVec 12
  dest : BitVec 3
  slot : BitVec 6
  out : Tix
  mb : BitVec 4
  aJ : Bool
  bJ : Bool
  cont : Bool
  transpose : Bool := false
  deriving DecidableEq, Repr

/-- Operands of WMATMUL (R176). -/
structure WmatmulArgs where
  a : Lsa
  b : Lsa
  aSfmt : BitVec 3
  bSfmt : BitVec 3
  kchM1 : BitVec 12
  dest : BitVec 2
  dst : Lsa
  out : Tix
  mb : BitVec 4
  transposeA : Bool
  transposeB : Bool
  rnd : Bool
  deriving DecidableEq, Repr

/-- Operands of a VEC or tile-register op (R176) beside its function. -/
structure VecArgs where
  nM1 : BitVec 6
  d : Spec
  a : Spec
  b : Spec
  c : Spec
  lsStride : BitVec 5
  ext : BitVec 5
  sat : Bool
  pop : Bool
  deriving DecidableEq, Repr

/-- Operands of a RED op (R176) beside its function: scope 0 BLOCK, 1 ROW, 2 COL, 3 SEQ. -/
structure RedArgs where
  scope : BitVec 2
  nM1 : BitVec 6
  d : Spec
  src : Spec
  lsStride : BitVec 5
  skipNf : Bool
  pop : Bool
  deriving DecidableEq, Repr

/-- Operands of LOOP (R176). -/
structure LoopArgs where
  s : BitVec 4
  count : BitVec 16
  c : BitVec 4
  body : BitVec 12
  step : BitVec 16
  deriving DecidableEq, Repr

/-- Operands of BRANCH (R176). -/
structure BranchArgs where
  cond : BitVec 4
  target : BitVec 16
  s : BitVec 4
  imm : BitVec 32
  bit : BitVec 8
  deriving DecidableEq, Repr

/-- Operands of ADDS (R176). -/
structure AddsArgs where
  d : BitVec 4
  a : BitVec 4
  b : BitVec 4
  imm : BitVec 16
  reg : Bool
  deriving DecidableEq, Repr

/-- A message (R184): header fields and payload words. LENGTH is the payload's length; HCHECK is as it arrives. -/
structure Msg where
  destDev : BitVec 14
  destX : BitVec 6
  destY : BitVec 6
  channel : BitVec 8
  tc : BitVec 2
  slot : BitVec 2
  seq : BitVec 16
  srcDev : BitVec 14
  srcX : BitVec 6
  srcY : BitVec 6
  kind : BitVec 4
  rsd : Bool
  endf : Bool
  nf : Bool
  arg : BitVec 12
  hcheck : BitVec 16
  payload : List Word
  deriving DecidableEq, Repr

/-- Who makes a memory request (R296): a job slot, Yucon firmware, the driver for a slot (R436), or BAR2. -/
inductive Requester where
  | slot (k : BitVec 2)
  | firmware
  | driver (k : BitVec 2)
  | bar2
  deriving DecidableEq, Repr

/-- A memory request (R296, R298): requester, device address, length in bytes and traffic class. -/
structure MemReq where
  who : Requester
  addr : BitVec 64
  len : Nat
  tc : BitVec 2
  deriving DecidableEq, Repr

/-- What the ECC of one granule finds on a read (R287, R306): link ECC corrected the transfer, or so many symbols of the codeword over its even bytes
and of the one over its odd bytes are in error. -/
inductive EccFind where
  | link | symbols (even odd : Nat)
  deriving DecidableEq, Repr

/-- A flit of an OxLink port (R260) as it arrives. `fec` lists the codewords that it lay in (R259): the symbols in error in each, and whether this
is the first flit of the codeword. -/
structure Flit where
  ftype : BitVec 4
  cls : BitVec 2
  dl : Bool
  bc : Bool
  first : BitVec 8
  fill : BitVec 8
  bdim : BitVec 2
  bleft : BitVec 4
  pseq : BitVec 16
  rseq : BitVec 16
  ack : BitVec 16
  nak : Bool
  ctrlOp : BitVec 3
  ctrlArg : BitVec 12
  payload : List (BitVec 8)
  credits : List (BitVec 16)
  crc : BitVec 64
  fec : List (Nat × Bool)
  deriving DecidableEq, Repr

/-- What the far end of a port reports in training (R277): module, port and extents. -/
structure PortIdent where
  dev : BitVec 14
  port : Fin 16
  k : List Nat
  deriving DecidableEq, Repr

/-- What the hottest channel's MR4 reports (R302): refresh 1x or lower, above 1x and below 4x, 4x or higher or derating, above
the operating limit. -/
inductive Mr4 where
  | normal | warm | hot | tooHot
  deriving DecidableEq, Repr

/-- One round of an arbiter (R329 to R332): the die and instance; the requests that arrive at empty requesters (requester and
class, 0 LC, 1 COLL, 2 BULK) in order of arrival; the requesters whose request ends without a grant; the requesters whose
transfer the resource downstream can take; and whether the round opens a window of R299. -/
structure RoundArgs where
  die : Fin 25
  inst : BitVec 12
  arrive : List (Nat × Fin 3)
  ends : List Nat
  ready : List Nat
  window : Bool
  deriving DecidableEq, Repr

/-- How a memory port and its package answer in stage MEM (R280, R282): the highest rate at which every channel passes, coded as
R367, and the package's density code. -/
structure MemTrain where
  rate : Option (BitVec 3)
  density : BitVec 8
  deriving DecidableEq, Repr

/-- The units of a core and its die that run ops (R175). -/
inductive OpUnit where
  | localStore | dieDma | router | quantiser | pinwheel | nibble | wide | vector | reduction
  deriving DecidableEq, Repr

/-- Shadow work on one output tile (R101 to R104): the layer product (0 FWD, 1 DGRAD, 2 WGRAD), the micro-batch, the output tile, the
retained wide inputs as 64 lines each along the contraction, and the 4-bit result, 4,096 words row-major. -/
structure ShadowArgs where
  layer : BitVec 16
  product : BitVec 2
  mb : BitVec 32
  tile : BitVec 32
  a : List (List Word)
  b : List (List Word)
  result : List Word
  deriving DecidableEq, Repr

/-- What the updater routine's header and tables give an UPDATE (R149, R156, R161, R164, R195): the core that Asard assigns to the shard,
the version of the recipe library, the 64-byte descriptors and 32-byte quantisation records of the row coding and of the column coding,
and how far from the start of a version area the wide copy lies. The model places the streams of an area itself (log 15). -/
structure UpdPlan where
  x : Fin 48
  y : Fin 48
  lib : BitVec 8
  rowDesc : List (BitVec 8)
  rowRec : List (BitVec 8)
  colDesc : List (BitVec 8)
  colRec : List (BitVec 8)
  wide : Nat
  deriving DecidableEq, Repr, Inhabited

/-- The unit whose exit ends (R340): its index, and for a link port whether its stored coefficients fail their check (R277). -/
structure ExitEnd where
  index : BitVec 24
  coefFails : Bool
  deriving DecidableEq, Repr

/-- The ring registers that RING_BASE_WRITE names (R358). -/
inductive RingReg where
  | baseLo | baseHi | ctrl
  deriving DecidableEq, Repr

/-- What resets the host port (R423). -/
inductive PortReset where
  | perst | hotReset | linkDown | flr
  deriving DecidableEq, Repr

/-- The JTAG instructions of R442; `internal` is a scan, SRAM-test or die-debug instruction, by `code`. -/
inductive JtagIns where
  | bypass | idcode | sample | extest | extestPulse | extestTrain | highz
  | internal (code : Nat)
  deriving DecidableEq, Repr

/-- The commands of the block: one constructor per row of the opcode table. -/
inductive Instr where
  /-- POWER_ON (R411). The 48 V input rises above 36 V with the always-on domain unpowered, which starts the always-on domain and stage AON. -/
  | powerOn (straps : BitVec 14) (smb : BitVec 7)
  /-- STAGE_ROM (R411). Once the input has stayed within 40–60 V for 10 ms, the hub starts stage ROM, raises REFCLK_REQ and waits for the reference. -/
  | stageRom (memGood : Bool)
  /-- REFCLK_TIMEOUT (R412). No stable reference arrives within 10 ms of REFCLK_REQ, so BOOT_STATUS reports FAILED with CAUSE 0x01 while the hub keeps waiting. -/
  | refclkTimeout
  /-- REFCLK_ARRIVAL (R412). The reference arrives, and the boot ROM locks the hub PLL and resumes start-up with RESULT back at RUNNING. -/
  | refclkArrival
  /-- PERST_DEASSERT (R412). PERST# is deasserted, and the boot ROM brings up the PCIe link so that BAR0 answers within its bound. -/
  | perstDeassert
  /-- STAGE_AUTH (R413). The boot ROM reads and authenticates image slot A, falls back to slot B if slot A fails, and starts Yucon firmware. -/
  | stageAuth (answers : Bool)
  /-- STAGE_IVR (R414). Yucon firmware raises the die regulators group by group and runs each die's logic self-test. -/
  | stageIvr (reg test : BitVec 25)
  /-- STAGE_MEM (R415). Every memory port trains at the highest passing rate, and Yucon firmware checks the package population. -/
  | stageMem (ports : List MemTrain)
  /-- STAGE_LINK (R416). Every OxLink port runs training steps 1–3, beside BIST and PARITY. -/
  | stageLink (locked : BitVec 16)
  /-- STAGE_BIST (R417). Every physical core runs its self-test, and Yucon firmware sets each row's spare map and router bypasses. -/
  | stageBist (faulty : List (Fin 192 × Fin 13))
  /-- STAGE_PARITY (R418). Each memory die zeroes every row with check bytes and parity, and Yucon firmware then creates partition 0. -/
  | stageParity (lost : List (Fin 48 × BitVec 8))
  /-- STAGE_READY (R419). Yucon firmware sets the arbiters to NORMAL, opens the ring blocks, sets BOOT_STATUS to READY and posts its queued events. -/
  | stageReady
  /-- BROWN_OUT (R419). The input stays below 38 V for 100 µs, so every regulator except the always-on domain's stops and start-up later restarts at ROM. -/
  | brownOut
  /-- OVERVOLTAGE (R446). The input stays above 62 V for 10 µs, and the regulators stop as for a brown-out. -/
  | overvoltage
  /-- MEM_PWR_GOOD_FALL (R449). MEM_PWR_GOOD falls after stage MEM, and the module handles the loss of package contents as a brown-out. -/
  | memPwrGoodFall
  /-- MODULE_RESET (R423). A module reset clears every die except the always-on domain, clears all memory contents, and restarts start-up at ROM. -/
  | moduleReset
  /-- MODULE_RESET_WRITE (R434). A write to MODULE_RESET with KEY 0xB007 starts a module reset within 10 µs; a write with any other key has no effect. -/
  | moduleResetWrite (v : Word)
  /-- HOST_PORT_RESET (R423). PERST#, a hot reset, a link-down or a physical-function FLR clears PCIe and ring state, halts every loaded slot, clears BAR2_WIN and the debug grant, and disables the DDMA blocks. -/
  | hostPortReset (kind : PortReset)
  /-- GUEST_FUNCTION_RESET (R423). An FLR of VF k clears the rings of slot k and unloads slot k as JOB_UNLOAD would. -/
  | guestFunctionReset (k : Fin 3)
  /-- TEST_RESET (R423). JTAG TRST resets the test logic only. -/
  | testReset
  /-- THERMAL_TRIP (R352). A die comparator trips at 110 °C: packages go to self-refresh, every regulator except the always-on domain stops, and THERMTRIP# is driven low. -/
  | thermalTrip
  /-- NOP (R175). The op does nothing and completes at issue. -/
  | nop (p : Site) (h : OpHead)
  /-- LSMOV (R176). Copies NLINES local-store lines from SRC to DST. -/
  | lsmov (p : Site) (h : OpHead) (a : LsmovArgs)
  /-- LSMOV_FILL (R176). LSMOV with FILL set writes a constant to every word of the destination lines. -/
  | lsmovFill (p : Site) (h : OpHead) (a : LsmovArgs)
  /-- DLOAD (R310). Reads a DMA descriptor from local store, adds the register offsets and submits it to the granted channel. -/
  | dload (p : Site) (h : OpHead) (a : DmaOpArgs)
  /-- DSTORE (R310). Submits a DMA descriptor in the same way as DLOAD, for a store. -/
  | dstore (p : Site) (h : OpHead) (a : DmaOpArgs)
  /-- SEND (R189). Spends an endpoint credit and injects a message that carries local-store words; with TEND on a JOIN endpoint it closes a tile and logs its segments. -/
  | send (p : Site) (h : OpHead) (a : SendArgs)
  /-- RECV (R188). Waits for the oldest unreturned message of a RING channel and hands its slot to the routine. -/
  | recv (p : Site) (h : OpHead) (ch : BitVec 8) (d l : BitVec 4)
  /-- RFREE (R188). Returns the oldest held ring slot and sends one CREDIT to its sender. -/
  | rfree (p : Site) (h : OpHead) (ch : BitVec 8)
  /-- FWD (R188). Resends the oldest held message unchanged to an endpoint and frees its slot. -/
  | fwd (p : Site) (h : OpHead) (ch : BitVec 8) (ep : BitVec 6)
  /-- SYNC (R191). Sends a TOKEN message that adds a count to a token of a remote context, or of the local context when the endpoint names the executing core. -/
  | sync (p : Site) (h : OpHead) (ep : BitVec 6) (token count : BitVec 4)
  /-- WAIT (R180). Holds the context's issue until the WMASK tokens are available or the timeout passes. -/
  | wait (p : Site) (h : OpHead) (timeout : BitVec 32) (d : BitVec 4)
  /-- WAIT_STEP (R180). WAIT with STEP set holds the main context at the step boundary until earlier ops complete and Yucon firmware releases the next step. -/
  | waitStep (p : Site) (h : OpHead) (timeout : BitVec 32) (d : BitVec 4)
  /-- WAIT_TIMEOUT (R180). A WAIT's timeout expires, and the WAIT releases without subtracting any token and writes 1 to S[D]. -/
  | waitTimeout (p : Site)
  /-- QUANT (R54). Quantises one wide tile into codes, block words, kite words, a kite directory word and a tile summary word. -/
  | quant (p : Site) (h : OpHead) (a : QuantArgs)
  /-- PINWHEEL (R85). Rotates the source tiles of one operand along the contraction axis by a signed Hadamard transform. -/
  | pinwheel (p : Site) (h : OpHead) (a : PinwheelArgs)
  /-- MATMUL (R115). Forms nibble-array chunks into the window in the fixed order, including side paths and tile fall-backs, and delivers to the TQ, the piggy bank or the bank extension. -/
  | matmul (p : Site) (h : OpHead) (a : MatmulArgs)
  /-- WMATMUL (R119). Computes an output tile on the wide array from F19 operands in the fixed tree and chain order. -/
  | wmatmul (p : Site) (h : OpHead) (a : WmatmulArgs)
  /-- TAP (R143). A RED op with TAP set binds to the next VEC op of its context and reduces each row as that op writes it. -/
  | tap (p : Site) (h : OpHead) (fn : RedFn) (r : RedArgs)
  /-- MAX (R143). RED function MAX reduces its source over the scope. -/
  | max (p : Site) (h : OpHead) (r : RedArgs)
  /-- MIN (R143). RED function MIN reduces its source over the scope. -/
  | min (p : Site) (h : OpHead) (r : RedArgs)
  /-- MAXABS (R143). RED function MAXABS reduces the magnitudes of its source over the scope. -/
  | maxabs (p : Site) (h : OpHead) (r : RedArgs)
  /-- SUM (R143). RED function SUM adds its source over the scope in the fixed order. -/
  | sum (p : Site) (h : OpHead) (r : RedArgs)
  /-- SSQ (R143). RED function SSQ sums the squares of its source over the scope. -/
  | ssq (p : Site) (h : OpHead) (r : RedArgs)
  /-- NORM (R143). RED function NORM sums the squares of its source and takes the rounded square root. -/
  | norm (p : Site) (h : OpHead) (r : RedArgs)
  /-- COUNT_NF (R143). RED function COUNT_NF counts the infinite and NaN elements of its source. -/
  | countNf (p : Site) (h : OpHead) (r : RedArgs)
  /-- TLOAD (R146). Loads a quadrant of a 64-row source into a tile register. -/
  | tload (p : Site) (h : OpHead) (v : VecArgs)
  /-- TSTORE (R146). Writes a tile register back into a quadrant of a destination. -/
  | tstore (p : Site) (h : OpHead) (v : VecArgs)
  /-- TRED (R147). Reduces a tile register along either axis by the pairwise tree. -/
  | tred (p : Site) (h : OpHead) (v : VecArgs)
  /-- TBIN (R146). Applies a binary FP operation between a tile register and a broadcast vector. -/
  | tbin (p : Site) (h : OpHead) (v : VecArgs)
  /-- IADD (R135). VEC integer add, with saturation or wrap. -/
  | iadd (p : Site) (h : OpHead) (v : VecArgs)
  /-- ISUB (R135). VEC integer subtract, with saturation or wrap. -/
  | isub (p : Site) (h : OpHead) (v : VecArgs)
  /-- IMUL (R135). VEC integer multiply, with saturation or wrap. -/
  | imul (p : Site) (h : OpHead) (v : VecArgs)
  /-- IMIN (R134). VEC signed integer minimum. -/
  | imin (p : Site) (h : OpHead) (v : VecArgs)
  /-- IMAX (R134). VEC signed integer maximum. -/
  | imax (p : Site) (h : OpHead) (v : VecArgs)
  /-- IABS (R135). VEC integer absolute value. -/
  | iabs (p : Site) (h : OpHead) (v : VecArgs)
  /-- INEG (R135). VEC integer negate. -/
  | ineg (p : Site) (h : OpHead) (v : VecArgs)
  /-- ICMPEQ (R134). VEC integer compare for equality, giving a mask. -/
  | icmpeq (p : Site) (h : OpHead) (v : VecArgs)
  /-- ICMPLT (R134). VEC signed integer less-than compare, giving a mask. -/
  | icmplt (p : Site) (h : OpHead) (v : VecArgs)
  /-- SHL (R135). VEC shift left, with saturation or wrap. -/
  | shl (p : Site) (h : OpHead) (v : VecArgs)
  /-- SHR (R135). VEC logical shift right. -/
  | shr (p : Site) (h : OpHead) (v : VecArgs)
  /-- SRA (R135). VEC arithmetic shift right. -/
  | sra (p : Site) (h : OpHead) (v : VecArgs)
  /-- AND (R134). VEC bitwise AND. -/
  | andOp (p : Site) (h : OpHead) (v : VecArgs)
  /-- OR (R134). VEC bitwise OR. -/
  | orOp (p : Site) (h : OpHead) (v : VecArgs)
  /-- XOR (R134). VEC bitwise XOR. -/
  | xorOp (p : Site) (h : OpHead) (v : VecArgs)
  /-- ANDN (R134). VEC bitwise AND NOT. -/
  | andn (p : Site) (h : OpHead) (v : VecArgs)
  /-- SEL (R134). VEC select of a or b by c. -/
  | sel (p : Site) (h : OpHead) (v : VecArgs)
  /-- MOV (R134). VEC move. -/
  | mov (p : Site) (h : OpHead) (v : VecArgs)
  /-- FADD (R136). VEC FP32 add with round-to-nearest-even. -/
  | fadd (p : Site) (h : OpHead) (v : VecArgs)
  /-- FSUB (R136). VEC FP32 subtract with round-to-nearest-even. -/
  | fsub (p : Site) (h : OpHead) (v : VecArgs)
  /-- FMUL (R136). VEC FP32 multiply with round-to-nearest-even. -/
  | fmul (p : Site) (h : OpHead) (v : VecArgs)
  /-- FFMA (R136). VEC fused multiply-add, rounded once. -/
  | ffma (p : Site) (h : OpHead) (v : VecArgs)
  /-- FMIN (R136). VEC FP minimum. -/
  | fmin (p : Site) (h : OpHead) (v : VecArgs)
  /-- FMAX (R136). VEC FP maximum. -/
  | fmax (p : Site) (h : OpHead) (v : VecArgs)
  /-- FABS (R136). VEC FP absolute value. -/
  | fabs (p : Site) (h : OpHead) (v : VecArgs)
  /-- FNEG (R136). VEC FP negate. -/
  | fneg (p : Site) (h : OpHead) (v : VecArgs)
  /-- FCMPEQ (R136). VEC FP equality compare, giving a mask. -/
  | fcmpeq (p : Site) (h : OpHead) (v : VecArgs)
  /-- FCMPLT (R136). VEC FP less-than compare, giving a mask. -/
  | fcmplt (p : Site) (h : OpHead) (v : VecArgs)
  /-- FCMPLE (R136). VEC FP less-or-equal compare, giving a mask. -/
  | fcmple (p : Site) (h : OpHead) (v : VecArgs)
  /-- CVT_F32_I32 (R137). VEC conversion from FP32 to int32, with clamping and NaN to 0. -/
  | cvtF32I32 (p : Site) (h : OpHead) (v : VecArgs)
  /-- CVT_I32_F32 (R134). VEC conversion from int32 to FP32. -/
  | cvtI32F32 (p : Site) (h : OpHead) (v : VecArgs)
  /-- CVT_TO_BF16 (R137). VEC narrowing conversion from FP32 to BF16. -/
  | cvtToBf16 (p : Site) (h : OpHead) (v : VecArgs)
  /-- CVT_TO_FP16 (R137). VEC narrowing conversion from FP32 to FP16. -/
  | cvtToFp16 (p : Site) (h : OpHead) (v : VecArgs)
  /-- CVT_TO_E5M2 (R137). VEC narrowing conversion from FP32 to E5M2, under SAT. -/
  | cvtToE5m2 (p : Site) (h : OpHead) (v : VecArgs)
  /-- CVT_TO_E4M3 (R137). VEC narrowing conversion from FP32 to E4M3, under SAT. -/
  | cvtToE4m3 (p : Site) (h : OpHead) (v : VecArgs)
  /-- CVT_FROM_BF16 (R137). VEC widening conversion from BF16 to FP32. -/
  | cvtFromBf16 (p : Site) (h : OpHead) (v : VecArgs)
  /-- CVT_FROM_FP16 (R137). VEC widening conversion from FP16 to FP32. -/
  | cvtFromFp16 (p : Site) (h : OpHead) (v : VecArgs)
  /-- CVT_FROM_E5M2 (R137). VEC widening conversion from E5M2 to FP32. -/
  | cvtFromE5m2 (p : Site) (h : OpHead) (v : VecArgs)
  /-- CVT_FROM_E4M3 (R137). VEC widening conversion from E4M3 to FP32. -/
  | cvtFromE4m3 (p : Site) (h : OpHead) (v : VecArgs)
  /-- LOOP (R178). Runs the following body COUNT times, adding STEP to a register after each iteration. -/
  | loop (p : Site) (h : OpHead) (a : LoopArgs)
  /-- BRANCH (R179). Tests a condition on a register, TQ_TAG or a mode slot, and continues at TARGET when it holds. -/
  | branch (p : Site) (h : OpHead) (a : BranchArgs)
  /-- SETS (R176). Sets a scalar register to an immediate. -/
  | sets (p : Site) (h : OpHead) (d : BitVec 4) (imm : BitVec 32)
  /-- ADDS (R176). Adds a register and an immediate, or two registers, into a scalar register. -/
  | adds (p : Site) (h : OpHead) (a : AddsArgs)
  /-- SLOAD (R176). Loads a scalar register from a word of a local-store line. -/
  | sload (p : Site) (h : OpHead) (d : BitVec 4) (src : Lsa) (word : BitVec 6)
  /-- SLOAD_SPECIAL (R176). SLOAD with SPECIAL set loads the step number, core, device identifier or job slot. -/
  | sloadSpecial (p : Site) (h : OpHead) (d : BitVec 4) (src : Lsa) (word : BitVec 6)
  /-- SLEEP (R182). Sets the deepest rung that the core may enter while the context waits. -/
  | sleep (p : Site) (h : OpHead) (rung : BitVec 3)
  /-- TRAP (R181). Ends the routine, optionally starts routine NEXT, or stops the context and posts JOB_TRAP. -/
  | trap (p : Site) (h : OpHead) (code next : BitVec 16)
  /-- OP_COMPLETE (R174). An op that took time completes, and its ST token rises. -/
  | opComplete (p : Site) (unit : OpUnit)
  /-- RING_MESSAGE (R188). A DATA message arrives on a RING channel and is written into slot i mod SLOTS, or is discarded under R185. -/
  | ringMessage (m : Msg)
  /-- TOKEN_MESSAGE (R191). A TOKEN message adds its count to a token of the bound context, which can release a waiting op. -/
  | tokenMessage (m : Msg)
  /-- CREDIT_MESSAGE (R189). A CREDIT message restores credits to the matching endpoint. -/
  | creditMessage (m : Msg)
  /-- JOIN_SEGMENT (R78). A segment arrives on a JOIN channel, is keyed into a tile slot and checked, and releases the tile when the tile's checks pass. -/
  | joinSegment (m : Msg)
  /-- JIGSAW_RESEND (R190). A JIGSAW_RESEND arrives at a sender, whose router replays the tile's logged segments with RSD set. -/
  | jigsawResend (m : Msg)
  /-- JIGSAW_RESEND_TIMEOUT (R83). A resend that has not completed within 65,536 cycles makes the mismatch persistent, and the tile moves to the wide path. -/
  | jigsawResendTimeout (p : Site) (ch : BitVec 8) (tile : Nat)
  /-- WIDE_REQUEST (R190). A WIDE_REQUEST arrives at a sender, which sends the logged QUANT source with STREAM 3. -/
  | wideRequest (m : Msg)
  /-- GUEST_ENTRY (R192). After the main context has been unable to issue for 32 cycles, the core starts issuing a ready guest op that has surplus. -/
  | guestEntry (x y : Fin 48)
  /-- GUEST_PREEMPT (R192). The main context's next op becomes ready, and the guest stops at the preemption points, with its windows spilled and the main windows reloaded. -/
  | guestPreempt (x y : Fin 48) (cycles : Nat)
  /-- CORE_GATE (R22). A core whose next op cannot complete gates its clocks within 16 cycles and enters GATED. -/
  | coreGate (x y : Fin 48)
  /-- CORE_WAKE (R22). A message or token addressed to a gated core returns it to ACTIVE. -/
  | coreWake (x y : Fin 48)
  /-- CORE_DOZE_ENTRY (R338). A core idle for 1 µs enters DOZE when its hint allows. -/
  | coreDozeEntry (x y : Fin 48)
  /-- CORE_NAP_ENTRY (R338). A core idle for 10 µs enters NAP when its hint allows. -/
  | coreNapEntry (x y : Fin 48)
  /-- DIE_GATE (R339). A die whose domains are all gated, with no transfer for 256 cycles, enters GATED. -/
  | dieGate (die : Fin 25)
  /-- DOMAIN_ENABLE (R342). An enable arrives at a domain: it cancels DRAIN, is queued in RETIRE, or starts or joins the exit. -/
  | domainEnable (kind : Fin 8) (index : BitVec 24) (remain : Nat) (wake : Bool)
  /-- DRAIN_COMPLETE (R341). A domain finishes DRAIN and starts RETIRE. -/
  | drainComplete (kind : Fin 8) (index : BitVec 24)
  /-- RETIRE_STEP_COMPLETE (R341). A retire step finishes, and the domain continues to the next rung or stops at a queued enable. -/
  | retireStepComplete (kind : Fin 8) (index : BitVec 24)
  /-- EXIT_COMPLETE (R337). A domain reaches ACTIVE at the end of its exit. -/
  | exitComplete (kind : Fin 8) (index : ExitEnd)
  /-- BUDGET_REFILL (R351). Every microsecond, the governor refills the bucket and resets the floor account. -/
  | budgetRefill (die : Fin 16)
  /-- BUDGET_CORRECTION (R351). Every millisecond, the governor compares its ledger with the IVR meter and sets corr_nj. -/
  | budgetCorrection (die : Fin 16) (measured base : Nat)
  /-- THERMAL_SENSOR_READ (R352). Every 10 µs, the governor reads the hottest junction sensor and sets the thermal factor and ceiling. -/
  | thermalSensorRead (die : Fin 16) (t : Int)
  /-- PURSE_REFILL_REQUEST (R354). An op whose charge exceeds its purse waits and sends a refill request to the governor. -/
  | purseRefillRequest (p : Site)
  /-- GOVERNOR_ROUND (R354). Every 32 cycles, the governor grants purse refills in the order of its rules. -/
  | governorRound (die : Fin 16)
  /-- GOVERNOR_WINDOW (R355). Every 100 µs, the governor steps its chosen clock up or down and applies the ceilings. -/
  | governorWindow (die : Fin 16)
  /-- SHADOW_TILE (R101). The shadowing core recomputes a selected output tile in wide mode and forms its shadow record. -/
  | shadowTile (p : Site) (a : ShadowArgs)
  /-- BANK_CLEAR (R129). On the step's commit or skip, after every read of the bank values, the core clears all 64 piggy-bank slots. -/
  | bankClear (x y : Fin 48)
  /-- CHEST_GRANT (R209). The toy-chest controller grants a chunk's next micro-batch, FULL or THIN, when free capacity allows. -/
  | chestGrant
  /-- CHEST_RECALL (R212). The controller recalls the lowest-key DRAM-tier tile into a free SRAM-tier tile. -/
  | chestRecall
  /-- STEP_RELEASE (R370). At the step boundary, Yucon firmware applies boundary commands, evaluates layer fall-back, posts reports, frees leaked chest tiles, loads the mode slots and releases the step. -/
  | stepRelease
  /-- TIN_SOLDIER_SWAP (R391). At a step boundary, Yucon firmware drains the die, tests the spare core, remaps the row and reloads the row's routines. -/
  | tinSoldierSwap (die : Fin 16) (bad : List (Fin 12))
  /-- CONTRIBUTION_RECEIVE (R225). A contribution's COLL_DATA messages land in a landing slot after the owner's ordered checks. -/
  | contributionReceive (m : Msg)
  /-- CONTRIBUTION_END (R237). At the END message, the agent checks the CRC, takes an arrival position, sums the decode, and closes the bucket when the group is complete. -/
  | contributionEnd (dev : BitVec 14) (agent : Fin 4)
  /-- LAND_CREDIT (R236). A LAND_CREDIT arrives at the contributor's memory die and restores credits for that owner. -/
  | landCredit (agent : Fin 4) (m : Msg)
  /-- CONTRIB_RESEND (R237). A CONTRIB_RESEND arrives at a contributor, which resends the contribution once with RSD set. -/
  | contribResend (m : Msg)
  /-- SEAL_SEND (R245). Once all its buckets have closed and its tail has been sent, a module broadcasts its SEAL for the step. -/
  | sealSend
  /-- SEAL (R245). A SEAL arrives, and on holding SEALs from every member the module decides COMMIT, SKIP or ABANDON. -/
  | seal (m : Msg)
  /-- SHARD_COMMIT (R166). With a COMMIT decision and a completed UPDATE, Yucon firmware writes VERSION, K_L, the statistics and CUR last. -/
  | shardCommit (layer shard : BitVec 16) (w : UpdPlan)
  /-- FIRMWARE_EPOCH_CLOSE (R246). On learning of a membership change or an abandon cause, Yucon firmware closes every open bucket with AB = 1 and sends its SEAL. -/
  | firmwareEpochClose (cause : BitVec 8)
  /-- CORE_FAULT (R388). An uncorrectable self-check in a core sets AB_STEP, makes a firmware epoch close and marks the core for a swap. -/
  | coreFault (x y : Fin 48)
  /-- MODULE_FAULT (R387). A module that can no longer vouch for its results sends MEMBER_LOST for itself, stops its slots and stops its ports. -/
  | moduleFault
  /-- SEAM_REPLAY (R387). A seam flit fails its CRC and is replayed; after 8 failed replays the module faults. -/
  | seamReplay (die : Fin 25) (replays : Nat) (good : Bool)
  /-- NEXT_EPOCH_ISSUE (R390). 250 µs after holding every SEAL, the epoch master signs and issues the next epoch. -/
  | nextEpochIssue
  /-- EPOCH_PART (R240). An epoch record part arrives, and the complete record is verified and adopted, or refused. -/
  | epochPart (m : Msg)
  /-- JOB_LOAD_EPOCH_TIMEOUT (R242). No job-load epoch arrives within the lost-member timeout, so JOB_LOAD completes with LOAD_REFUSED 0x07. -/
  | jobLoadEpochTimeout
  /-- GATHER_REQ (R248). A GATHER_REQ arrives at an owner or node receiver, naming a layer, shard, coding and version. -/
  | gatherReq (m : Msg)
  /-- GATHER_SERVE (R248). The owner or level-1 receiver sends the requested shard once its commit or checks allow, or answers that the version is not held. -/
  | gatherServe
  /-- GATHER_RECEIVE (R249). A gather transfer ends at the receiver, which checks the trailer, SRC_CRC and VERSION and records the gather, or retries it. -/
  | gatherReceive (m : Msg)
  /-- BWD_RELEASE (R250). A BWD_RELEASE arrives at an owner, which counts releases per version and frees the area when all have arrived. -/
  | bwdRelease (m : Msg)
  /-- PERMUTE_ENTRY_RECEIVE (R253). A permutation entry lands in staging and its CRC is checked, with one retry. -/
  | permuteEntryReceive (m : Msg)
  /-- PERMUTE_DONE (R253). A PERMUTE_DONE broadcast arrives, and the master issues the new epoch when every module has reported. -/
  | permuteDone (m : Msg)
  /-- MEMBER_LOST (R398). A MEMBER_LOST arrives at the epoch master, which prepares the takeover. -/
  | memberLost (m : Msg)
  /-- LOST_MEMBER_TIMEOUT (R398). The master receives no SEAL from a module within the lost-member timeout, and the module is declared lost. -/
  | lostMemberTimeout (dev : BitVec 14)
  /-- TAKEOVER (R400). After the drain interval, the master builds a permutation that moves the lost member's state to a spare, and the spare takes the member's role. -/
  | takeover (lost : BitVec 14) (able : List (BitVec 14))
  /-- STEP_REPAIR (R401). When a committed step was not fully mirrored, the step is re-run in replay mode to rebuild the lost shards. -/
  | stepRepair (step : Word) (copies : Bool)
  /-- MIRROR_SEND (R395). After step n is decided and committed, the owner sends the journal copy and its tensor and error-memory units to its buddy. -/
  | mirrorSend
  /-- MIRROR_UNIT_RECEIVE (R396). The buddy's memory die checks a unit, copies it into its mirror place, updates the directory and returns the notice. -/
  | mirrorUnitReceive (m : Msg)
  /-- LINK_STATE (R276). A LINK_STATE notice arrives, and the link die recomputes its detour word from the blocked set. -/
  | linkState (m : Msg)
  /-- FLIT_RECEIVE (R262). A flit arrives on a port and is checked, acknowledged, credited, routed, forwarded or broadcast, or NAKed for replay. -/
  | flitReceive (port : Fin 16) (f : Flit)
  /-- FLIT_FLUSH_TIMEOUT (R261). No further byte of a channel is ready within 8 link-logic cycles, so the sender sends the partly filled flit. -/
  | flitFlushTimeout (pair : Fin 8) (ch : Fin 6)
  /-- RUNG_REQ (R278). A CTRL flit asks the far end of a port to agree a deeper rung. -/
  | rungReq (port : Fin 16) (rung : BitVec 12)
  /-- RUNG_ACK (R278). A CTRL flit agrees a port rung change. -/
  | rungAck (port : Fin 16) (rung : BitVec 12)
  /-- LANE_MAP (R260). A CTRL flit carries a lane map index. -/
  | laneMap (port : Fin 16) (index : BitVec 12)
  /-- WIDTH_REQ (R274). A CTRL flit requests a port width. -/
  | widthReq (port : Fin 16) (width : BitVec 12)
  /-- LANE_RETIRE (R273). A lane that loses lock for 1 µs, or whose error ratio over 10 ms is too high, is retired. -/
  | laneRetire (port : Fin 16)
  /-- LANE_SPARED (R273). The background-trained spare lane is swapped in at the next alignment marker. -/
  | laneSpared (port : Fin 16)
  /-- PAIR_DOWN (R275). A pair whose ports are both down, or idle for 1 ms with flits waiting, goes down; its flits are discarded and the step is abandoned. -/
  | pairDown (pair : Fin 8) (stalled : Bool)
  /-- PORT_TRAINING_COMPLETE (R277). A port finishes training; it comes up on matching identity, or stays down as miscabled. -/
  | portTrainingComplete (port : Fin 16) (far : Option PortIdent)
  /-- PORT_GATE (R278). A link port idle for 256 link-logic cycles enters GATED. -/
  | portGate (port : Fin 16)
  /-- MEM_READ (R287). A memory read is served with ECC correction, reconstruction and remapping, or with POISON. -/
  | memRead (q : MemReq) (ecc : List (Nat × EccFind))
  /-- MEM_WRITE (R289). A memory write goes out as a full-stripe write or enters the combining buffer, and is checked against the partition. -/
  | memWrite (q : MemReq) (data : List Byte)
  /-- STRIPE_BUFFER_TIMEOUT (R289). A combining-buffer entry reaches 256 controller cycles and goes out as partial-stripe writes. -/
  | stripeBufferTimeout (grp : Fin 16) (row : Nat)
  /-- PORT_OFFLINE (R290). A port goes offline on a count threshold, a temperature, a failed training or a command, and its stripes are served by parity. -/
  | portOffline (port : Fin 48) (cause : BitVec 8)
  /-- PORT_REBUILD_COMPLETE (R292). The rebuild pointer reaches the end of the port, which returns to full service. -/
  | portRebuildComplete (port : Fin 48)
  /-- PORT_THERMAL_RETURN (R292). After 1 s of NORMAL MR4 reports, a port offline for temperature retrains and rebuilds. -/
  | portThermalReturn (port : Fin 48) (rate : Option (BitVec 3))
  /-- MR4_POLL (R302). Polling MR4 updates the port's thermal state, cap and refresh rate, and can request a clock ceiling or shutdown. -/
  | mr4Poll (port : Fin 48) (report : Mr4)
  /-- PATROL_SCRUB (R288). The patrol scrub reads and corrects granules, covering every granule once a day. -/
  | patrolScrub (port : Fin 48) (ch : Fin 4) (row : Nat) (find : Option EccFind)
  /-- LC_QUOTA_WINDOW (R301). A 10 µs window ends, and each partition's LC quota renews. -/
  | lcQuotaWindow (die : Fin 4)
  /-- MEM_PORT_GATE (R305). A memory port idle for 64 controller cycles enters GATED. -/
  | memPortGate (port : Fin 48)
  /-- COPY (R313). A DMA COPY moves bytes in ascending order between local store, device memory and the chest. -/
  | copy (die : Fin 8) (chan : BitVec 5) (bursts : Nat)
  /-- ADD_F32 (R314). A DMA ADD_F32 adds FP32 elements from local store into device memory under the stripe lock. -/
  | addF32 (die : Fin 8) (chan : BitVec 5) (bursts : Nat)
  /-- DMA_SEND (R315). A DMA SEND sends bytes as messages, with an optional CRC trailer. -/
  | dmaSend (die : Fin 8) (chan : BitVec 5) (messages : Nat)
  /-- DMA_COMPLETE (R317). A descriptor completes in order once every write response has returned, and it writes its record and notice or interrupt. -/
  | dmaComplete (die : Fin 8) (chan : BitVec 5)
  /-- DMA_NOTICE (R318). A DMA notice arrives at a core or a die, completes the matching op, or stops the context on a failure. -/
  | dmaNotice (m : Msg)
  /-- CQ_HEAD_POLL (R320). A channel with a full completion queue re-reads the consumer index every 1 µs. -/
  | cqHeadPoll (die : Fin 8) (chan : BitVec 5)
  /-- DMA_CHANNEL_ABORT (R324). A channel abort stops new bursts, completes the descriptor as ABORTED with DONE and RESIDUE, and aborts queued descriptors. -/
  | dmaChannelAbort (die : Fin 8) (chan : BitVec 5)
  /-- ARB_ROUND (R329). An arbiter decides a round by priority and class order, ageing the losers, or parks requests in PARKED mode. -/
  | arbRound (r : RoundArgs)
  /-- ARB_FREEZE (R332). Setting FREEZE in ARB_CTRL stops new grants after at most one transfer. -/
  | arbFreeze (die : Fin 25) (inst : BitVec 12) (all : Bool)
  /-- ARB_UNFREEZE (R332). Clearing FREEZE lets the arbiter decide from its held priorities and queue. -/
  | arbUnfreeze (die : Fin 25) (inst : BitVec 12) (all : Bool)
  /-- ARB_MODE_CHANGE (R334). A MODE write under FREEZE switches between NORMAL and PARKED; any other MODE change is refused. -/
  | arbModeChange (die : Fin 25) (inst : BitVec 12) (all freeze parked : Bool)
  /-- RING_ENABLE (R358). Setting EN in X_CTRL zeroes both counts and starts the ring, or fails with ERR on an invalid SIZE_LOG2. -/
  | ringEnable (fn : Fin 4) (ring : Fin 11) (v : Word)
  /-- RING_DISABLE (R358). Clearing EN in X_CTRL stops the ring. -/
  | ringDisable (fn : Fin 4) (ring : Fin 11) (v : Word)
  /-- RING_BASE_WRITE (R358). A write to BASE or SIZE_LOG2 takes effect while EN is 0; while EN is 1 it is ignored and counted. -/
  | ringBaseWrite (fn : Fin 4) (ring : Fin 11) (reg : RingReg) (v : Word)
  /-- DOORBELL (R359). A DOORBELL write sets the driver's count, or stops the ring with ERR on an invalid count. -/
  | doorbell (fn : Fin 4) (ring : Fin 11) (v : Word)
  /-- RING_ERR_CLEAR (R358). Writing 1 to X_STATUS.ERR restarts the ring from its present counts. -/
  | ringErrClear (fn : Fin 4) (ring : Fin 11)
  /-- COMMAND_FETCH (R360). Yucon firmware fetches a rung command when the completion ring has room, and checks it. -/
  | commandFetch (ring : Fin 5) (pcie : Bool)
  /-- IRQ_COALESCE (R361). The COAL_US time since the first unsignalled record passes, and the ring's MSI-X vector is raised. -/
  | irqCoalesce (ring : Fin 11)
  /-- EVENT_FLUSH (R385). Queued events are written to the event ring when it has room, which lets held steps be released again. -/
  | eventFlush (pcie : Bool)
  /-- RECONCILE_SWEEP (R369). Every 10 ms, Yucon firmware reads every unit's status word and reconciles its view. -/
  | reconcileSweep
  /-- NOP_COMMAND (R372). Mailbox NOP completes at once. -/
  | nopCommand (ring : Fin 5)
  /-- IDENTIFY (R372). Returns the module identifier, density, firmware version and usable spares. -/
  | identify
  /-- LINK_CONFIG (R372). Sets the torus extents and completes identity training of every port. -/
  | linkConfig
  /-- PARTITION_CREATE (R295). Puts a partition record into force, or refuses it. -/
  | partitionCreate
  /-- PARTITION_DESTROY (R372). Invalidates a partition record and keeps its contents. -/
  | partitionDestroy
  /-- SCRUB_PARTITION (R297). Writes zeros over a partition by full-stripe writes. -/
  | scrubPartition
  /-- MEM_PORT_SET_OFFLINE (R290). MEM_PORT_SET with ACTION OFFLINE takes a memory port offline. -/
  | memPortSetOffline
  /-- MEM_PORT_SET_RETURN (R292). MEM_PORT_SET with ACTION RETURN retrains and rebuilds a port. -/
  | memPortSetReturn (rate : Option (BitVec 3))
  /-- POWER_SET (R342). Moves a power domain to a target rung through DRAIN and RETIRE, or through an exit. -/
  | powerSet (remain : Nat)
  /-- GOVERNOR_SET (R349). Loads a compute die's governor record, in force from the next window. -/
  | governorSet
  /-- TELEMETRY_READ (R379). Writes counter entries for a scope into staging. -/
  | telemetryRead (ring : Fin 5)
  /-- TELEMETRY_READ_CLEAR (R379). TELEMETRY_READ with CLEAR set reads and clears each counter in one access. -/
  | telemetryReadClear (ring : Fin 5)
  /-- JOB_LOAD (R373). Checks a job image, copies its sections, loads routines and records, sets the seed and adopts the job-load epoch. -/
  | jobLoad (ring : Fin 4)
  /-- JOB_UNLOAD (R372). Empties a job slot and aborts its queued commands. -/
  | jobUnload (ring : Fin 4)
  /-- JOB_MAP (R376). Replaces the loaded slot's map sections at the step boundary. -/
  | jobMap (ring : Fin 4)
  /-- STATE_COPY_IN (R372). STATE_COPY with DIR 0 copies bytes from host staging into the slot's partition. -/
  | stateCopyIn (ring : Fin 4)
  /-- STATE_COPY_OUT (R372). STATE_COPY with DIR 1 copies bytes from the slot's partition to host staging. -/
  | stateCopyOut (ring : Fin 4)
  /-- RUN_STEP (R378). Accepts the slot's next step, checks its update table, and completes after the step's decision. -/
  | runStep
  /-- CANCEL_STEPS (R372). Completes accepted but unreleased RUN_STEPs as ABORTED. -/
  | cancelSteps
  /-- LAYER_MODE (R97). Changes layer mode entry bits under a mask at the step boundary. -/
  | layerMode (ring : Fin 4)
  /-- FALLBACK_POLICY (R98). Puts a layer fall-back policy record into force at the step boundary. -/
  | fallbackPolicy (ring : Fin 4)
  /-- EPOCH_ISSUE (R240). The host has the master issue an epoch with the given MEMBERS and ROLE. -/
  | epochIssue
  /-- EPOCH_CLOSE (R246). The host requests a firmware epoch close. -/
  | epochClose
  /-- SPARE_SET (R399). Puts the spare-module list into force. -/
  | spareSet
  /-- RESHARD (R253). Runs a host-supplied PERMUTE at a step boundary. -/
  | reshard
  /-- JOURNAL_READ (R372). Copies journal records of a step range into staging. -/
  | journalRead
  /-- REPLAY_STEP (R381). Re-executes a held step from the journal into the held area and compares the shards. -/
  | replayStep
  /-- ROLLBACK_RELEASE (R381). Releases a held rollback. -/
  | rollbackRelease
  /-- BAR0_UNSUPPORTED_REQUEST (R11). A BAR0 access that is not a naturally aligned 32-bit access completes as Unsupported Request and changes nothing. -/
  | bar0UnsupportedRequest (fn : Fin 4) (off : BitVec 26) (len : BitVec 13)
  /-- REGISTER_WRITE (R432). A BAR0 write to a register without behaviour of its own updates the field as its access code states. -/
  | registerWrite (fn : Fin 4) (off : BitVec 26) (v : Word)
  /-- BAR2_WIN_WRITE (R430). A write to BAR2_WIN moves the BAR2 window for every later BAR2 request. -/
  | bar2WinWrite (high : Bool) (v : Word)
  /-- BAR2_READ (R428). A BAR2 read is mapped to the partition window and checked, and completes with data, Completer Abort or poison. -/
  | bar2Read (off : BitVec 36) (len : Nat)
  /-- BAR2_WRITE (R428). A BAR2 write is mapped to the partition window and checked, and is written or discarded. -/
  | bar2Write (off : BitVec 36) (data : List (Option Byte))
  /-- DDMA_ENABLE (R436). Setting EN in DDMAk_CTRL writes the channel record, or sets ENFAIL on a refusal. -/
  | ddmaEnable (k : Fin 8) (v : Word)
  /-- DDMA_DISABLE (R436). Clearing EN in DDMAk_CTRL aborts the channel and invalidates its record. -/
  | ddmaDisable (k : Fin 8) (v : Word)
  /-- DDMA_ABORT (R324). Writing 1 to DDMAk_CTRL.ABORT aborts the driver channel. -/
  | ddmaAbort (k : Fin 8) (v : Word)
  /-- DDMA_SUBMIT (R436). A write to DDMAk_SUBMIT queues the staged descriptor, or sets OVF. -/
  | ddmaSubmit (k : Fin 8) (v : Word)
  /-- FWU_IMAGE_WRITE (R438). GO with RAISE 0 checks, programs and verifies a firmware image into a flash slot. -/
  | fwuImageWrite (slot : Bool)
  /-- FWU_RAISE (R438). GO with RAISE 1 raises the anti-rollback fuse count to the running image's security version. -/
  | fwuRaise (slot : Bool)
  /-- DEBUG_REQUEST (R440). Writing REQ requests a debug grant, which is granted according to the lock state and token. -/
  | debugRequest (scope : BitVec 3)
  /-- DEBUG_RELEASE (R439). Writing RELEASE ends the debug grant and renews the nonce. -/
  | debugRelease (scope : BitVec 3)
  /-- SIDEBAND_READ (R441). GO with WR 0 in DBG_SB_ADDR reads a die sideband register, when SIDEBAND is granted. -/
  | sidebandRead (die : BitVec 5) (off : BitVec 20)
  /-- SIDEBAND_WRITE (R441). GO with WR 1 in DBG_SB_ADDR writes a die sideband register, when SIDEBAND is granted. -/
  | sidebandWrite (die : BitVec 5) (off : BitVec 20)
  /-- JTAG_INSTRUCTION_LOAD (R442). Loading a test or internal instruction into a die parks the die's arbiters, and faults the module while a job is loaded. -/
  | jtagInstructionLoad (die : Fin 25) (ins : JtagIns)
  /-- GET_HEALTH (R443). MCTP command that returns BOOT_STATUS, the slot status words and the beyond-model count. -/
  | getHealth
  /-- GET_TEMPS (R443). MCTP command that returns die temperatures and port thermal states. -/
  | getTemps (side : List (BitVec 8))
  /-- GET_POWER (R443). MCTP command that returns input voltage, current and powers. -/
  | getPower (mv : BitVec 16) (ma : BitVec 32) (w : BitVec 16) (dies : List (BitVec 16))
  /-- SET_POWER_LIMIT (R444). MCTP command that sets a module power limit and scales the effective die caps. -/
  | setPowerLimit (w : BitVec 16)
  /-- READ_BOOT_STATUS (R443). MCTP command that returns BOOT_STATUS. -/
  | readBootStatus
  /-- READ_START_LOG (R443). MCTP command that returns 32 bytes of START_LOG. -/
  | readStartLog (off : BitVec 8)
  /-- MCTP_MODULE_RESET (R443). MCTP command that responds and then starts a module reset. -/
  | mctpModuleReset
  /-- GET_IDENTITY (R443). MCTP command that returns the module and device identity and the firmware versions. -/
  | getIdentity
  /-- POWER_LOSS (R411). The 48 V input falls below 30 V, the always-on domain loses power, and the next return of power is a power-on. -/
  | powerLoss
  /-- CRYSTAL_START (R344). The first tick of the 32.768 kHz crystal arrives, and TIME_US starts counting from 0 in place of the internal oscillator. -/
  | crystalStart
  /-- REFCLK_STOP (R344). The 100 MHz reference stops after REFCLK_REQ is released, and TIME_US switches to advancing on crystal ticks. -/
  | refclkStop
  /-- TOKEN_BUCKET_FILL (R300). Each controller cycle the memory die fills each partition's BULK token bucket, which lets a waiting BULK request proceed once the bucket covers its charge. -/
  | tokenBucketFill (die : Fin 4)
  /-- SCRUB_DONE (R297). The zeroing writes of a SCRUB_PARTITION finish, and the command completes with RESULT bytes written and SCRUB_DUE cleared. -/
  | scrubDone (part : Fin 8)
  /-- FWU_DONE (R438). The flash erase, program and read-back of an image write ends, and FWU_STATUS becomes DONE or FAILED. -/
  | fwuDone (good : Bool)
  /-- VF_ENABLE (R362). Enabling or disabling virtual function k moves the register blocks of rings SLOTk and CPL_SLOTk between the physical function's BAR0 and VF k's BAR0. -/
  | vfEnable (k : Fin 3) (en : Bool)
  /-- BAR2_RESIZE (R427). A write to the Resizable BAR capability sets the BAR2 size S, which changes how BAR2 offsets and the window base map to device addresses. -/
  | bar2Resize (log2 : BitVec 6)
  deriving DecidableEq, Repr

end Sys2Proof
end

