-- ==== Sys2Proof/Machine/CtrIds.lean ====
section
/-! DEFINITION. Counter identifiers (R380): the group in bits [15:8], the index in the group's table in bits [7:0]. -/

namespace Sys2Proof
namespace Ctr

/-! Group 0x01: the counters of R53. -/
/-- GRID_SATURATE (R53). -/
def gridSaturate : Nat := 0x0100
/-- CODING_MALFORMED (R53). -/
def codingMalformed : Nat := 0x0101
/-- F19_FLUSH (R53). -/
def f19Flush : Nat := 0x0102
/-- WIDE_NARROW_SAT (R53). -/
def wideNarrowSat : Nat := 0x0103

/-! Group 0x02: the counters of R84. -/
/-- QUANT_TILES (R84). -/
def quantTiles : Nat := 0x0200
/-- ZERO_BLOCK (R84). -/
def zeroBlock : Nat := 0x0201
/-- CONST_BLOCK (R84). -/
def constBlock : Nat := 0x0202
/-- NONFINITE_BLOCK (R84). -/
def nonfiniteBlock : Nat := 0x0203
/-- KITE_OUTLIER (R84). -/
def kiteOutlier : Nat := 0x0204
/-- FB_OUTLIER (R84). -/
def fbOutlier : Nat := 0x0205
/-- FB_SPREAD (R84). -/
def fbSpread : Nat := 0x0206
/-- FB_SCALE_RANGE (R84). -/
def fbScaleRange : Nat := 0x0207
/-- FB_POLICY (R84). -/
def fbPolicy : Nat := 0x0208
/-- FB_ENERGY (R84). -/
def fbEnergy : Nat := 0x0209
/-- ROUND_ZERO_EVT (R84). -/
def roundZeroEvt : Nat := 0x020A
/-- SAT_EVT (R84). -/
def satEvt : Nat := 0x020B
/-- SCALE_OVERRIDE (R84). -/
def scaleOverride : Nat := 0x020C
/-- LEARNED_INVALID (R84). -/
def learnedInvalid : Nat := 0x020D
/-- PLANE_LIMIT (R84). -/
def planeLimit : Nat := 0x020E
/-- PLANES_1 (R84). -/
def planes1 : Nat := 0x020F
/-- PLANES_2 (R84). -/
def planes2 : Nat := 0x0210
/-- PLANES_3 (R84). -/
def planes3 : Nat := 0x0211
/-- PLANES_4 (R84). -/
def planes4 : Nat := 0x0212
/-- JIGSAW_MISMATCH (R84). -/
def jigsawMismatch : Nat := 0x0213
/-- JIGSAW_RETRY_OK (R84). -/
def jigsawRetryOk : Nat := 0x0214
/-- JIGSAW_WIDE (R84). -/
def jigsawWide : Nat := 0x0215
/-- JIGSAW_UNRESOLVED (R84). -/
def jigsawUnresolved : Nat := 0x0216

/-! Group 0x03: the counters of R107. -/
/-- PINWHEEL_WINDOWS (R107). -/
def pinwheelWindows : Nat := 0x0300
/-- PINWHEEL_OVF (R107). -/
def pinwheelOvf : Nat := 0x0301
/-- TILE_FB (R107). -/
def tileFb : Nat := 0x0302
/-- WIDE_MODE_CHUNKS (R107). -/
def wideModeChunks : Nat := 0x0303
/-- SHADOW_TILES (R107). -/
def shadowTiles : Nat := 0x0304
/-- SHADOW_NONFINITE (R107). -/
def shadowNonfinite : Nat := 0x0305
/-- SHADOW_SKIPPED_WIDE (R107). -/
def shadowSkippedWide : Nat := 0x0306
/-- LAYER_WIDE_ON (R107). -/
def layerWideOn : Nat := 0x0307
/-- LAYER_WIDE_OFF (R107). -/
def layerWideOff : Nat := 0x0308

/-! Group 0x04: the counters of R130. -/
/-- NIB_CHUNKS (R130). -/
def nibChunks : Nat := 0x0400
/-- NIB_PASSES (R130). -/
def nibPasses : Nat := 0x0401
/-- NIB_CHUNKS_ZERO (R130). -/
def nibChunksZero : Nat := 0x0402
/-- SIDE_TERMS (R130). -/
def sideTerms : Nat := 0x0403
/-- SIDE_STALL (R130). -/
def sideStall : Nat := 0x0404
/-- WIDE_CHUNKS (R130). -/
def wideChunks : Nat := 0x0405
/-- TQ_FULL_STALL (R130). -/
def tqFullStall : Nat := 0x0406
/-- TQ_EMPTY_STALL (R130). -/
def tqEmptyStall : Nat := 0x0407
/-- WINDOW_SPILL (R130). -/
def windowSpill : Nat := 0x0408
/-- BANK_DRAINS (R130). -/
def bankDrains : Nat := 0x0409
/-- BANKEXT_DRAINS (R130). -/
def bankextDrains : Nat := 0x040A
/-- BANK_CLEAR_WAIT (R130). -/
def bankClearWait : Nat := 0x040B
/-- BANK_NONFINITE (R130). -/
def bankNonfinite : Nat := 0x040C

/-! Group 0x05: the counters of R148. -/
/-- VEC_ROWS (R148). -/
def vecRows : Nat := 0x0500
/-- VEC_DEP_STALL (R148). -/
def vecDepStall : Nat := 0x0501
/-- INT_SAT (R148). -/
def intSat : Nat := 0x0502
/-- CVT_NAN_ZERO (R148). -/
def cvtNanZero : Nat := 0x0503
/-- OC_FAULT (R148). -/
def ocFault : Nat := 0x0504
/-- RED_OPS (R148). -/
def redOps : Nat := 0x0505
/-- TA_OPS (R148). -/
def taOps : Nat := 0x0506

/-! Group 0x06: the counters of R170. -/
/-- UPD_ELEMENTS (R170). -/
def updElements : Nat := 0x0600
/-- UPD_FROZEN (R170). -/
def updFrozen : Nat := 0x0601
/-- UPD_LOST (R170). -/
def updLost : Nat := 0x0602
/-- RES_SAT (R170). -/
def resSat : Nat := 0x0603
/-- SCALE_STEP_UP (R170). -/
def scaleStepUp : Nat := 0x0604
/-- SCALE_STEP_DOWN (R170). -/
def scaleStepDown : Nat := 0x0605
/-- SCALE_EXC_OVF (R170). -/
def scaleExcOvf : Nat := 0x0606
/-- WIDE_COPY_LATE (R170). -/
def wideCopyLate : Nat := 0x0607
/-- UPD_AREA_WAIT (R170). -/
def updAreaWait : Nat := 0x0608
/-- SKIPPED_STEPS (R170). -/
def skippedSteps : Nat := 0x0609

/-! Group 0x07: the counters of R198. -/
/-- OPS_ISSUED (R198). -/
def opsIssued : Nat := 0x0700
/-- ISSUE_STALL (R198). -/
def issueStall : Nat := 0x0701
/-- MSG_SENT (R198). -/
def msgSent : Nat := 0x0702
/-- MSG_RECEIVED (R198). -/
def msgReceived : Nat := 0x0703
/-- SEND_CREDIT_STALL (R198). -/
def sendCreditStall : Nat := 0x0704
/-- HDR_CHECK_DROP (R198). -/
def hdrCheckDrop : Nat := 0x0705
/-- MSG_SLOT_DROP (R198). -/
def msgSlotDrop : Nat := 0x0706
/-- MSG_UNBOUND_DROP (R198). -/
def msgUnboundDrop : Nat := 0x0707
/-- MSG_OVERRUN (R198). -/
def msgOverrun : Nat := 0x0708
/-- WAIT_TIMEOUT (R198). -/
def waitTimeout : Nat := 0x0709
/-- GUEST_ENTRIES (R198). -/
def guestEntries : Nat := 0x070A
/-- GUEST_PREEMPTS (R198). -/
def guestPreempts : Nat := 0x070B
/-- PREEMPT_MAX (R198). -/
def preemptMax : Nat := 0x070C
/-- ROUTINE_FAULTS (R198). -/
def routineFaults : Nat := 0x070D

/-! Group 0x08: the counters of R216. -/
/-- CHEST_TILES_STASHED (R216). -/
def chestTilesStashed : Nat := 0x0800
/-- CHEST_SPILL_TILES (R216). -/
def chestSpillTiles : Nat := 0x0801
/-- CHEST_RECALL_TILES (R216). -/
def chestRecallTiles : Nat := 0x0802
/-- CHEST_RECALL_MISS (R216). -/
def chestRecallMiss : Nat := 0x0803
/-- CHEST_THIN_GRANTS (R216). -/
def chestThinGrants : Nat := 0x0804
/-- CHEST_WAIT_US (R216). -/
def chestWaitUs : Nat := 0x0805
/-- CHEST_LEAK (R216). -/
def chestLeak : Nat := 0x0806
/-- CHEST_PEAK_TILES (R216). -/
def chestPeakTiles : Nat := 0x0807

/-! Group 0x09: the counters of R219. -/
/-- MAIN_IDLE_CYCLES (R219). -/
def mainIdleCycles : Nat := 0x0900
/-- GUEST_ISSUE_CYCLES (R219). -/
def guestIssueCycles : Nat := 0x0901
/-- GUEST_DENIED_CYCLES (R219). -/
def guestDeniedCycles : Nat := 0x0902

/-! Group 0x0a: the counters of R256. -/
/-- COLL_CONTRIB (R256). -/
def collContrib : Nat := 0x0A00
/-- COLL_MISROUTE (R256). -/
def collMisroute : Nat := 0x0A01
/-- STALE_TAG_DROP (R256). -/
def staleTagDrop : Nat := 0x0A02
/-- NONMEMBER_DROP (R256). -/
def nonmemberDrop : Nat := 0x0A03
/-- DUP_DROP (R256). -/
def dupDrop : Nat := 0x0A04
/-- COLL_MALFORMED (R256). -/
def collMalformed : Nat := 0x0A05
/-- COLL_CRC_FAIL (R256). -/
def collCrcFail : Nat := 0x0A06
/-- COLL_CRC_PERSIST (R256). -/
def collCrcPersist : Nat := 0x0A07
/-- COLL_CREDIT_STALL (R256). -/
def collCreditStall : Nat := 0x0A08
/-- COLL_VERSION_SKEW (R256). -/
def collVersionSkew : Nat := 0x0A09
/-- EM_SAT (R256). -/
def emSat : Nat := 0x0A0A
/-- BUCKET_CLOSE (R256). -/
def bucketClose : Nat := 0x0A0B
/-- BUCKET_CLOSE_NF (R256). -/
def bucketCloseNf : Nat := 0x0A0C
/-- BUCKET_CLOSE_AB (R256). -/
def bucketCloseAb : Nat := 0x0A0D
/-- EPOCH_REJECT (R256). -/
def epochReject : Nat := 0x0A0E
/-- GATHER_RETRY (R256). -/
def gatherRetry : Nat := 0x0A0F
/-- GATHER_FAIL (R256). -/
def gatherFail : Nat := 0x0A10
/-- GATHER_NOVERSION (R256). -/
def gatherNoversion : Nat := 0x0A11
/-- SHARD_CHANGED (R256). -/
def shardChanged : Nat := 0x0A12
/-- SHARD_CHANGED_FAIL (R256). -/
def shardChangedFail : Nat := 0x0A13
/-- PERMUTE_ENTRIES (R256). -/
def permuteEntries : Nat := 0x0A14
/-- PERMUTE_RETRY (R256). -/
def permuteRetry : Nat := 0x0A15

/-! Group 0x0b: the counters of R279. -/
/-- LINK_FLITS_TX (R279). -/
def linkFlitsTx : Nat := 0x0B00
/-- LINK_FLITS_RX (R279). -/
def linkFlitsRx : Nat := 0x0B01
/-- LINK_FWD_FLITS (R279). -/
def linkFwdFlits : Nat := 0x0B02
/-- LINK_FEC_CORRECTED (R279). -/
def linkFecCorrected : Nat := 0x0B03
/-- LINK_FEC_UNCORR (R279). -/
def linkFecUncorr : Nat := 0x0B04
/-- LINK_CRC_FAIL (R279). -/
def linkCrcFail : Nat := 0x0B05
/-- LINK_REPLAY (R279). -/
def linkReplay : Nat := 0x0B06
/-- LINK_RETRAIN (R279). -/
def linkRetrain : Nat := 0x0B07
/-- LANE_SPARED (R279). -/
def laneSpared : Nat := 0x0B08
/-- LANE_DEGRADE (R279). -/
def laneDegrade : Nat := 0x0B09
/-- PAIR_DOWN (R279). -/
def pairDown : Nat := 0x0B0A
/-- LINK_MSG_LOST (R279). -/
def linkMsgLost : Nat := 0x0B0B
/-- LINK_UNREACHABLE_DROP (R279). -/
def linkUnreachableDrop : Nat := 0x0B0C
/-- LINK_MISCABLED (R279). -/
def linkMiscabled : Nat := 0x0B0D
/-- LINK_CREDIT_STALL_LC (R279). -/
def linkCreditStallLc : Nat := 0x0B0E
/-- LINK_CREDIT_STALL_COLL (R279). -/
def linkCreditStallColl : Nat := 0x0B0F
/-- LINK_CREDIT_STALL_BULK (R279). -/
def linkCreditStallBulk : Nat := 0x0B10
/-- POOL_SHARED_PEAK (R279). -/
def poolSharedPeak : Nat := 0x0B11

/-! Group 0x0c: the counters of R306. -/
/-- MEM_RD_GRANULES (R306). -/
def memRdGranules : Nat := 0x0C00
/-- MEM_WR_GRANULES (R306). -/
def memWrGranules : Nat := 0x0C01
/-- MEM_RMW (R306). -/
def memRmw : Nat := 0x0C02
/-- MEM_LINK_ECC (R306). -/
def memLinkEcc : Nat := 0x0C03
/-- ECC_CORRECTED (R306). -/
def eccCorrected : Nat := 0x0C04
/-- ECC_RECONSTRUCTED (R306). -/
def eccReconstructed : Nat := 0x0C05
/-- ECC_POISON (R306). -/
def eccPoison : Nat := 0x0C06
/-- MEM_REMAP (R306). -/
def memRemap : Nat := 0x0C07
/-- PATROL_GRANULES (R306). -/
def patrolGranules : Nat := 0x0C08
/-- PORT_OFFLINE (R306). -/
def portOffline : Nat := 0x0C09
/-- PORT_REBUILD_GRANULES (R306). -/
def portRebuildGranules : Nat := 0x0C0A
/-- MEM_ACCESS_REFUSED (R306). -/
def memAccessRefused : Nat := 0x0C0B
/-- BULK_THROTTLE_US (R306). -/
def bulkThrottleUs : Nat := 0x0C0C
/-- LC_DEMOTED (R306). -/
def lcDemoted : Nat := 0x0C0D
/-- MEM_HOT_POLLS (R306). -/
def memHotPolls : Nat := 0x0C0E
/-- MEM_THERMAL_CAP_US (R306). -/
def memThermalCapUs : Nat := 0x0C0F

/-! Group 0x0d: the counters of R326. -/
/-- DMA_DESC_DONE (R326). -/
def dmaDescDone : Nat := 0x0D00
/-- DMA_BYTES (R326). -/
def dmaBytes : Nat := 0x0D01
/-- DMA_REFUSED (R326). -/
def dmaRefused : Nat := 0x0D02
/-- DMA_ABORTED (R326). -/
def dmaAborted : Nat := 0x0D03
/-- DMA_OVERLAP_WAIT (R326). -/
def dmaOverlapWait : Nat := 0x0D04
/-- DMA_CQ_FULL_US (R326). -/
def dmaCqFullUs : Nat := 0x0D05
/-- DMA_POOL_WAIT (R326). -/
def dmaPoolWait : Nat := 0x0D06

/-! Group 0x0e: the counters of R336. -/
/-- ARB_GRANTS (R336). -/
def arbGrants : Nat := 0x0E00
/-- ARB_SAT_ROUNDS (R336). -/
def arbSatRounds : Nat := 0x0E01
/-- ARB_MAX_WAIT (R336). -/
def arbMaxWait : Nat := 0x0E02
/-- ARB_PARKED (R336). -/
def arbParked : Nat := 0x0E03
/-- ARB_PARK_FULL (R336). -/
def arbParkFull : Nat := 0x0E04
/-- ARB_FROZEN_CYCLES (R336). -/
def arbFrozenCycles : Nat := 0x0E05
/-- ARB_MODE_REFUSED (R336). -/
def arbModeRefused : Nat := 0x0E06

/-! Group 0x0f: the counters of R356. -/
/-- TOKEN_WAIT_CYCLES (R356). -/
def tokenWaitCycles : Nat := 0x0F00
/-- GOV_LOW_US (R356). -/
def govLowUs : Nat := 0x0F01
/-- GOV_EMPTY_US (R356). -/
def govEmptyUs : Nat := 0x0F02
/-- FLOOR_OVERDRAFT_UJ (R356). -/
def floorOverdraftUj : Nat := 0x0F03
/-- SHADOW_DEFER_US (R356). -/
def shadowDeferUs : Nat := 0x0F04
/-- GOV_CLOCK_UP (R356). -/
def govClockUp : Nat := 0x0F05
/-- GOV_CLOCK_DOWN (R356). -/
def govClockDown : Nat := 0x0F06
/-- THERMAL_DERATE_US (R356). -/
def thermalDerateUs : Nat := 0x0F07
/-- THERMAL_CEIL_US (R356). -/
def thermalCeilUs : Nat := 0x0F08
/-- GOV_RECONCILE_ADJ (R356). -/
def govReconcileAdj : Nat := 0x0F09
/-- RUNG_ENTRIES_GATED (R356). -/
def rungEntriesGated : Nat := 0x0F0A
/-- RUNG_ENTRIES_DOZE (R356). -/
def rungEntriesDoze : Nat := 0x0F0B
/-- RUNG_ENTRIES_NAP (R356). -/
def rungEntriesNap : Nat := 0x0F0C
/-- RUNG_ENTRIES_SLEEP (R356). -/
def rungEntriesSleep : Nat := 0x0F0D
/-- RUNG_ENTRIES_DORMANT (R356). -/
def rungEntriesDormant : Nat := 0x0F0E
/-- RUNG_ENTRIES_OFF (R356). -/
def rungEntriesOff : Nat := 0x0F0F
/-- DRAIN_CANCELLED (R356). -/
def drainCancelled : Nat := 0x0F10
/-- RETIRE_QUEUED (R356). -/
def retireQueued : Nat := 0x0F11
/-- REENABLE_LAT_MAX (R356). -/
def reenableLatMax : Nat := 0x0F12

/-! Group 0x10: the counters of R409. -/
/-- CORE_SRAM_CORRECTED (R409). -/
def coreSramCorrected : Nat := 0x1000
/-- CORE_FAULTS (R409). -/
def coreFaults : Nat := 0x1001
/-- TIN_SWAPS (R409). -/
def tinSwaps : Nat := 0x1002
/-- SPARE_CORE_UNAVAILABLE (R409). -/
def spareCoreUnavailable : Nat := 0x1003
/-- SEAM_REPLAY (R409). -/
def seamReplay : Nat := 0x1004
/-- STEPS_ABANDONED (R409). -/
def stepsAbandoned : Nat := 0x1005
/-- ABANDON_MSG_DROP (R409). -/
def abandonMsgDrop : Nat := 0x1006
/-- GUEST_RESTARTS (R409). -/
def guestRestarts : Nat := 0x1007
/-- MIRROR_UNITS (R409). -/
def mirrorUnits : Nat := 0x1008
/-- MIRROR_RETRY (R409). -/
def mirrorRetry : Nat := 0x1009
/-- MIRROR_LAG_US (R409). -/
def mirrorLagUs : Nat := 0x100A
/-- MEMBER_LOST_SEEN (R409). -/
def memberLostSeen : Nat := 0x100B
/-- TAKEOVERS (R409). -/
def takeovers : Nat := 0x100C
/-- REPAIRS (R409). -/
def repairs : Nat := 0x100D
/-- JOURNAL_RECORDS (R409). -/
def journalRecords : Nat := 0x100E
/-- JOURNAL_BYTES (R409). -/
def journalBytes : Nat := 0x100F
/-- JOURNAL_OVERWRITTEN (R409). -/
def journalOverwritten : Nat := 0x1010
/-- REPLAY_STEPS (R409). -/
def replaySteps : Nat := 0x1011
/-- RECOVERY_US_MAX (R409). -/
def recoveryUsMax : Nat := 0x1012

/-! Group 0x11: the counters of R424. -/
/-- START_COUNT (R424). -/
def startCount : Nat := 0x1100
/-- START_FAIL (R424). -/
def startFail : Nat := 0x1101
/-- IMAGE_FALLBACK (R424). -/
def imageFallback : Nat := 0x1102
/-- THERMAL_TRIPS (R424). -/
def thermalTrips : Nat := 0x1103
/-- BROWN_OUTS (R424). -/
def brownOuts : Nat := 0x1104
/-- START_REMAPS (R424). -/
def startRemaps : Nat := 0x1105
/-- START_PORTS_UNTRAINED (R424). -/
def startPortsUntrained : Nat := 0x1106
/-- START_PORTS_SLOW (R424). -/
def startPortsSlow : Nat := 0x1107

/-! Group 0x12: the firmware and host counters of R445. -/
/-- RECONCILE (R445). -/
def reconcile : Nat := 0x1200
/-- RING_ERRORS (R445). -/
def ringErrors : Nat := 0x1201
/-- EVENTS_DROPPED (R445). -/
def eventsDropped : Nat := 0x1202
/-- COMMANDS_DONE (R445). -/
def commandsDone : Nat := 0x1203
/-- STATE_MISMATCHES (R445). -/
def stateMismatches : Nat := 0x1204
/-- RING_WRITE_IGNORED (R445). -/
def ringWriteIgnored : Nat := 0x1205
/-- BAR0_UR (R445). -/
def bar0Ur : Nat := 0x1220
/-- BAR2_REFUSED (R445). -/
def bar2Refused : Nat := 0x1221
/-- BAR2_POISON (R445). -/
def bar2Poison : Nat := 0x1222
/-- PCIE_CORRECTABLE (R445). -/
def pcieCorrectable : Nat := 0x1223
/-- PCIE_UNCORRECTABLE (R445). -/
def pcieUncorrectable : Nat := 0x1224
/-- PCIE_LINK_RETRAINS (R445). -/
def pcieLinkRetrains : Nat := 0x1225
/-- DDMA_SUBMIT_IGNORED (R445). -/
def ddmaSubmitIgnored : Nat := 0x1226
/-- DEBUG_GRANTS (R445). -/
def debugGrants : Nat := 0x1227
/-- FW_UPDATES (R445). -/
def fwUpdates : Nat := 0x1228

/-- Counters that are marked "not a count": they hold a largest value and restart at each step boundary (R379). -/
def isPeak (c : Nat) : Bool :=
  [preemptMax, chestPeakTiles, poolSharedPeak, arbMaxWait, reenableLatMax, mirrorLagUs, recoveryUsMax].contains c

end Ctr
end Sys2Proof
end

