-- ==== Sys2Proof/Config.lean ====
section
/-! DEFINITION. What the spec leaves open: every constant here is opaque, so no proof can rest on a value of it.
Each is named in a row of the assumption log. -/

namespace Sys2Proof

/-- Byte `a` of an undefined memory region, numbered by the `k`-th free value: SRAM after SLEEP or a swap (R338, R392), an overlapping
COPY (R313), a flash slot that is being written (R438). Log 5. -/
opaque Config.freeByte : Nat → Nat → BitVec 8
/-- The `k`-th free 32-bit value: random numbers (R439, R440). Log 5. -/
opaque Config.freeWord : Nat → BitVec 32
/-- The hash that the signature chain of R413 and R438 computes (SHA-384): a digest of a byte list. Log 6. -/
opaque Config.sha384 : List (BitVec 8) → List (BitVec 8)
/-- Whether a signature verifies over a byte list under the key with the given hash (R240, R413, R438, R440). Log 6. -/
opaque Config.verifies : (keyHash : List (BitVec 8)) → (message : List (BitVec 8)) → (signature : List (BitVec 8)) → Bool
/-- The hash of the key with the given number: 0-3 image keys and 4-7 debug keys that the fuses hold (R413, R440), 65536 + m the device
key of module m (R240). Log 6. -/
opaque Config.keyHash : Nat → List (BitVec 8)
/-- The epoch key's signature of a byte list (R240, R390). Log 6. -/
opaque Config.signature : List (BitVec 8) → List (BitVec 8)
/-- The rsqrt recipe of a recipe library, given by its bytes in the job image: its bits are the library's (R142, R156). Log 7. -/
opaque Config.rsqrt : (library : List (BitVec 8)) → BitVec 32 → BitVec 32
/-- What the updater routine of a tensor shard in a job image names (R161, R195), where no UPDATE of the shard has named it yet. Log 14. -/
opaque Config.updPlan : (image : List (BitVec 8)) → (layer shard : Nat) → UpdPlan
/-- The U4 zero point where the exact quotient of R68 leaves 0..15 (a negative G0): the spec states none. Log 22. -/
opaque Config.zeroPoint : (lo g0 : BitVec 32) → BitVec 4
/-- Whether the block error-energy test of R91 fails where a ratio rounds to infinity (a negative G0, whose block scale R66 clamps at the
smallest): the spec states no result. Log 22. -/
opaque Config.infiniteEnergy : (block : List (BitVec 32)) → (g0 theta : BitVec 32) → Bool
/-- The learned scale, (E << 3) | M, of a special block with a non-finite value and no entry in the scale exception list (R160): the
spec states none. Log 69. -/
opaque Config.lostScale : (block : List (BitVec 32)) → Nat
/-- Which of several fault codes an op ends with (R183): the spec states no order among them. Log 68. -/
opaque Config.faultChoice : (codes : List Nat) → Nat

/-- The shared pool units that training gives a pair's channel as credits beyond its reserved ones (R265): the spec states no number.
Log 61. -/
opaque Config.sharedCredits : (pair channel : Nat) → Nat

end Sys2Proof
end

