-- ==== Sys2Proof/Machine/Map.lean ====
section
/-! DEFINITION. Sparse tables in one canonical form, and their read and write: strictly rising keys and no entry equal to
the default `d`, so that equal tables are equal data. -/

namespace Sys2Proof
namespace SMap

/-- The value at key `k`, or the default. -/
def get {α : Type} (d : α) : SMap α → Nat → α
  | [], _ => d
  | (k', v) :: t, k => if k' = k then v else SMap.get d t k

/-- Put `e` in front unless it holds the default. -/
def cons {α : Type} [DecidableEq α] (d : α) (k : Nat) (v : α) (t : SMap α) : SMap α :=
  if v = d then t else (k, v) :: t

/-- The entries at other keys. -/
def drop {α : Type} (m : SMap α) (k : Nat) : SMap α := m.filter (fun e => e.1 != k)

/-- Put an entry at its place among rising keys. -/
def ins {α : Type} (k : Nat) (v : α) : SMap α → SMap α
  | [] => [(k, v)]
  | (k', v') :: t => if k < k' then (k, v) :: (k', v') :: t else (k', v') :: SMap.ins k v t

/-- Write `v` at key `k`; writing the default removes the entry. -/
def set {α : Type} [DecidableEq α] (d : α) (m : SMap α) (k : Nat) (v : α) : SMap α :=
  if v = d then SMap.drop m k else SMap.ins k v (SMap.drop m k)

/-- Apply `f` to the value at key `k`. -/
def modify {α : Type} [DecidableEq α] (d : α) (m : SMap α) (k : Nat) (f : α → α) : SMap α :=
  SMap.set d m k (f (SMap.get d m k))

/-- Remove every key that `p` names. -/
def eraseIf {α : Type} (p : Nat → Bool) (m : SMap α) : SMap α := m.filter (fun e => ! p e.1)

/-- Apply `f` to every listed value, dropping entries that become the default. -/
def mapVals {α : Type} [DecidableEq α] (d : α) (f : Nat → α → α) (m : SMap α) : SMap α :=
  (m.map (fun e => (e.1, f e.1 e.2))).filter (fun e => ! decide (e.2 = d))

/-- The listed keys that lie above `lo`. -/
def above {α : Type} (lo : Nat) : SMap α → Bool
  | [] => true
  | (k, _) :: t => decide (lo < k) && SMap.above k t

/-- The canonical form: keys rise strictly and no entry holds the default. -/
def wf {α : Type} [DecidableEq α] (d : α) (m : SMap α) : Bool :=
  (match m with
   | [] => true
   | (k, _) :: t => SMap.above k t) && m.all (fun e => ! decide (e.2 = d))

/-- Write the values `vs` at keys `k`, `k+1`, ... -/
def setList {α : Type} [DecidableEq α] (d : α) (m : SMap α) (k : Nat) : List α → SMap α
  | [] => m
  | v :: vs => SMap.setList d (SMap.set d m k v) (k + 1) vs

/-- The values at keys `k` to `k + n - 1`. -/
def getList {α : Type} (d : α) (m : SMap α) (k n : Nat) : List α :=
  (List.range n).map (fun i => SMap.get d m (k + i))

end SMap
end Sys2Proof
end

