-- ==== Sys2Proof/Machine/Bytes.lean ====
section
/-! DEFINITION. Bit fields and little-endian byte strings (R10): the helpers that every record layout uses. -/

namespace Sys2Proof

/-- Bits [hi:lo] of a number, in the manual's notation (R10). -/
def fld (v hi lo : Nat) : Nat := v / 2 ^ lo % 2 ^ (hi + 1 - lo)
/-- One bit of a number. -/
def bitOf (v i : Nat) : Bool := decide (v / 2 ^ i % 2 = 1)
/-- A Bool as a bit. -/
def b2n (b : Bool) : Nat := if b then 1 else 0

/-- The little-endian value of the `n` bytes that `rd` gives from address `a` on. -/
def rdLE (rd : Nat → Byte) (a : Nat) : Nat → Nat
  | 0 => 0
  | n + 1 => (rd a).toNat + 256 * rdLE rd (a + 1) n
/-- The `n` bytes from address `a` on. -/
def rdBytes (rd : Nat → Byte) (a n : Nat) : List Byte := (List.range n).map (fun i => rd (a + i))
/-- A value as `n` bytes, least significant first. -/
def leBytes : Nat → Nat → List Byte
  | 0, _ => []
  | n + 1, v => BitVec.ofNat 8 v :: leBytes n (v / 256)
/-- The little-endian value of a byte list. -/
def leNat : List Byte → Nat
  | [] => 0
  | b :: bs => b.toNat + 256 * leNat bs
/-- A reader of a byte list; bytes past its end read 0. -/
def rdList (l : List Byte) (a : Nat) : Byte := l.getD a 0
/-- Overlay the bytes `bs` at address `a` on a reader. -/
def overlay (rd : Nat → Byte) (a : Nat) (bs : List Byte) (x : Nat) : Byte :=
  if a ≤ x ∧ x < a + bs.length then bs.getD (x - a) 0 else rd x

/-- Set bits [hi:lo] of a number to `v`. -/
def setFld (x hi lo v : Nat) : Nat :=
  x - fld x hi lo * 2 ^ lo + v % 2 ^ (hi + 1 - lo) * 2 ^ lo

/-- One byte folded into a CRC of width `w`, most significant bit first, no reflection. -/
def crcBits (w poly : Nat) : Nat → Nat → Nat
  | 0, c => c
  | k + 1, c => crcBits w poly k (if c / 2 ^ (w - 1) % 2 = 1 then ((c * 2) % 2 ^ w) ^^^ poly else (c * 2) % 2 ^ w)
/-- A CRC of width `w` over bytes in address order, initial value `init`, no reflection and no final XOR. -/
def crcMsb (w poly init : Nat) (bs : List Byte) : Nat :=
  bs.foldl (fun c b => crcBits w poly 8 (c ^^^ (b.toNat * 2 ^ (w - 8)))) init
/-- One byte folded into a reflected CRC-32. -/
def crcReflBits (poly : Nat) : Nat → Nat → Nat
  | 0, c => c
  | k + 1, c => crcReflBits poly k (if c % 2 = 1 then (c / 2) ^^^ poly else c / 2)
/-- The CRC-32C register after the bytes `bs`, from register value `reg` (R321: Castagnoli, reflected). -/
def crc32cReg (reg : Nat) (bs : List Byte) : Nat :=
  bs.foldl (fun c b => crcReflBits 0x82F63B78 8 (c ^^^ b.toNat)) reg
/-- CRC-32C of a byte string (R321): register all ones at the start, final XOR of all ones. -/
def crc32c (bs : List Byte) : Word := BitVec.ofNat 32 (crc32cReg 0xFFFFFFFF bs ^^^ 0xFFFFFFFF)
/-- The CRC-16 of a message header (R184). -/
def crc16 (bs : List Byte) : Half := BitVec.ofNat 16 (crcMsb 16 0x1021 0xFFFF bs)
/-- The CRC-64 of a flit (R260): initial value and final XOR all ones. -/
def crc64 (bs : List Byte) : Long :=
  BitVec.ofNat 64 (crcMsb 64 0x42F0E1EBA9EA3693 (2 ^ 64 - 1) bs ^^^ (2 ^ 64 - 1))

end Sys2Proof
end

