-- ==== Sys2Proof/Machine/Memory.lean ====
section
/-! DEFINITION. An addressed memory in one canonical form: the bytes that differ from what an unlisted address reads as. -/

namespace Sys2Proof

/-- A memory: the listed bytes, by rising address. An address that is not listed reads an undefined byte in a
lost range (first, end, number of the free contents: R338, R392), else 0xFF in an erased flash, else 0. -/
structure Memory where
  cells : List Host.Cell
  erased : Bool := false
  lost : List (Nat × Nat × Nat) := []
  deriving DecidableEq, Repr

namespace Memory

/-- A memory with nothing listed. -/
def empty : Memory := { cells := [] }

/-- What an address that is not listed reads as. -/
def unlisted (m : Memory) (a : Nat) : Byte :=
  match m.lost.find? (fun r => decide (r.1 ≤ a) && decide (a < r.2.1)) with
  | some r => Config.freeByte r.2.2 a
  | none => if m.erased then 0xFF#8 else 0x00#8

/-- Read one byte. -/
def read (m : Memory) (a : Nat) : Byte := SMap.get (m.unlisted a) m.cells a

/-- Write one byte. -/
def write (m : Memory) (a : Nat) (v : Byte) : Memory := { m with cells := SMap.set (m.unlisted a) m.cells a v }

/-- Write consecutive bytes. -/
def writeList (m : Memory) (a : Nat) : List Byte → Memory
  | [] => m
  | v :: vs => writeList (m.write a v) (a + 1) vs

/-- The parts of a lost range outside [lo, hi). -/
def cutLost (lo hi : Nat) (r : Nat × Nat × Nat) : List (Nat × Nat × Nat) :=
  (if r.1 < min r.2.1 lo then [(r.1, min r.2.1 lo, r.2.2)] else []) ++ (if max r.1 hi < r.2.1 then [(max r.1 hi, r.2.1, r.2.2)] else [])

/-- Set `n` addresses from `a` on to 0, or to 0xFF in an erased flash. -/
def clearRange (m : Memory) (a n : Nat) : Memory :=
  { m with
    cells := SMap.eraseIf (fun k => decide (a ≤ k) && decide (k < a + n)) m.cells
    lost := m.lost.flatMap (cutLost a (a + n)) }

/-- Every byte of [lo, hi) becomes undefined: the `k`-th free contents. -/
def lose (m : Memory) (lo hi k : Nat) : Memory :=
  { m with cells := SMap.eraseIf (fun a => decide (lo ≤ a) && decide (a < hi)) m.cells, lost := (lo, hi, k) :: m.lost }

/-- Every address that `p` names reads as unlisted. -/
def clearIf (m : Memory) (p : Nat → Bool) : Memory := { m with cells := SMap.eraseIf p m.cells }

/-- A little-endian value of `n` bytes. -/
def readLE (m : Memory) (a n : Nat) : Nat := rdLE m.read a n
/-- Write a little-endian value of `n` bytes. -/
def writeLE (m : Memory) (a n v : Nat) : Memory := m.writeList a (leBytes n v)

/-- The canonical form: addresses rise strictly, and no entry equals what its address would read as unlisted. -/
def wf (m : Memory) : Bool :=
  (match m.cells with
   | [] => true
   | (k, _) :: t => SMap.above k t) && m.cells.all (fun e => ! decide (e.2 = m.unlisted e.1))

end Memory
end Sys2Proof
end

