-- ==== Sys2Proof/Machine/CoreTypes.lean ====
section
/-! DEFINITION. The state of one core (chapters 5, 6 and 8): memories, tile queue, stream joiner, and its two contexts. -/

namespace Sys2Proof.Machine

/-- A reference to a table of a routine header (R195): first line and count. -/
structure TableRef where
  line : Nat := 0
  count : Nat := 0
  deriving DecidableEq, Repr

/-- A routine header (R195). -/
structure Hdr where
  line : Nat := 0
  routine : Nat := 0
  nOps : Nat := 0
  ocBase : Nat := 0
  ocLines : Nat := 0
  desc : TableRef := {}
  const : TableRef := {}
  qrec : TableRef := {}
  ep : TableRef := {}
  ch : TableRef := {}
  mode : TableRef := {}
  grant : TableRef := {}
  recipeLib : Nat := 0
  updateLib : Nat := 0
  bxLine : Nat := 0
  bxGrant : Nat := 0
  bxValid : Bool := false
  deriving DecidableEq, Repr

/-- What a context does (R171, R180, R181, R183): `waitTok` holds a WAIT's mask, its
timeout, the register D and its ST token. -/
inductive CtxStatus where
  | idle
  | running
  | waitTok (mask : BitVec 16) (timeout : Word) (d : BitVec 4) (tok : Option Nat)
  | waitStep (d : BitVec 4) (tok : Option Nat)
  | trapped (code : Nat)
  | faulted (code : Nat)
  deriving DecidableEq, Repr

/-- One level of the loop stack (R178): the body runs from op `first` to before op `last`, `left` more times. -/
structure LoopFrame where
  first : Nat
  last : Nat
  left : Nat
  reg : BitVec 4
  step : BitVec 16
  deriving DecidableEq, Repr

/-- The memories whose ranges are tracked against ops in flight (R173). -/
inductive RSpace where
  | ls | oc | ta
  deriving DecidableEq, Repr

/-- A range of lines or tile registers named by an op (R173). -/
structure Rng where
  sp : RSpace
  lo : Nat
  n : Nat
  deriving DecidableEq, Repr

/-- An op that waits in its unit for a FULL tile-queue entry (R123) and runs when one is there. -/
inductive DefOp where
  | vec (fn : VecFn) (a : VecArgs)
  | red (fn : RedFn) (a : RedArgs)
  | tload (a : VecArgs)
  deriving DecidableEq, Repr

/-- A deferred op with the scalar registers and the routine header as they stood at its issue (R131: SREG is read at issue; R132: the
op acts in routine order). -/
structure Deferred where
  op : DefOp
  sregs : SMap Word
  hdr : Hdr
  deriving DecidableEq, Repr

/-- A product in the nibble array (R115): the routine header and the two operands' descriptor indices of its issue, chunks formed so far,
the window, and whether a chunk ran on the wide array; `owe` holds the energy units that the chunk at hand has yet to pay, `entry` the
tile-queue entry reserved for its output (R122), and `spilled` says that the window lies in the context's save area (R124). -/
structure MatRun where
  args : MatmulArgs
  hdr : Hdr
  aDesc : Nat
  bDesc : Nat
  aTile : Nat
  bTile : Nat
  out : Word
  mb : BitVec 16
  done : Nat
  acc : SMap Word
  wide : Bool
  owe : Option Nat := none
  entry : Option Nat := none
  spilled : Bool := false
  deriving DecidableEq, Repr

/-- A WMATMUL in the wide array (R119 to R121): the lines it names, its tag fields, the layer and product its counts go to (R130), the RND
bit (R120), chunks formed so far, the wide array's window, whether its next chunk is still to pay (`owe`), the tile-queue entry reserved for it, and whether the window is spilled (R124). -/
structure WideRun where
  args : WmatmulArgs
  aLine : Nat
  bLine : Nat
  dLine : Nat
  out : Word
  mb : BitVec 16
  lm : Nat × Nat
  rnd : Bool
  done : Nat
  acc : SMap Word
  owe : Nat := 0
  entry : Option Nat := none
  spilled : Bool := false
  deriving DecidableEq, Repr

/-- What the completion of an op in flight waits for or does (R175): nothing more; a ring slot to return; a product with chunks to form in
either array; a deferred op; a TAP that has not met its VEC op (R143), with the registers and header of its issue; a DMA notice (R318); a
tile credit (R190). -/
inductive Finish where
  | plain
  | freeSlot (ch : Nat)
  | matmul (m : MatRun)
  | wide (w : WideRun)
  | deferred (d : Deferred)
  | tapWait (fn : RedFn) (a : RedArgs) (sregs : SMap Word) (hdr : Hdr)
  | dma (id : Nat)
  | tileCredit (ep first : Nat)
  deriving DecidableEq, Repr

/-- An op in flight (R173): its offset in the routine, its token if ST is set, its ranges, the scalar registers it writes (16
is TQ_TAG), the energy units that it has yet to pay and the cost of one (R350). -/
structure InFlight where
  unit : OpUnit
  off : Nat
  tok : Option Nat
  reads : List Rng
  writes : List Rng
  regs : List Nat := []
  finish : Finish := .plain
  units : Nat := 0
  unitCost : Nat := 0
  doneCtr : Option Nat := none
  word : Nat := 0
  deriving DecidableEq, Repr

/-- What an op that cannot issue waits for beside its tokens, ranges and unit (R23, R188, R189, R310): a message on a channel, a held message of
a channel, a credit of an endpoint, room in a DMA channel, or the gathered tensor of a layer. -/
inductive WaitFor where
  | message (ch : Nat)
  | held (ch : Nat)
  | credit (ep : Nat)
  | dma (ch : Nat)
  | gather (layer axis : Nat)
  deriving DecidableEq, Repr

/-- What an op needs before it can issue and what it leaves in flight (R173, R175, R350): `wait` names a counter when the op must wait for
something else, `on` what that is, `fault` the fault that it ends with and `at'` the offset and word of the op that this is reported for
where it is another, `needs` the unit of an op that completes at issue. -/
structure Plan where
  word : Nat
  unit : Option OpUnit := none
  needs : Option OpUnit := none
  reads : List Rng := []
  readsNow : List Rng := []
  writes : List Rng := []
  regsR : List Nat := []
  regsW : List Nat := []
  cost : Nat := 0
  units : Nat := 1
  later : Nat := 0
  comm : Bool := false
  wait : Option Nat := none
  on : Option WaitFor := none
  fault : Option Nat := none
  at' : Option (Nat × Nat) := none
  finish : Finish := .plain
  ctl : Bool := false
  ownMask : Bool := false
  hold : Bool := false
  doneCtr : Option Nat := none
  deriving DecidableEq, Repr

/-- The next op of a context, once it has been found unable to issue (R22, R192). -/
structure NextOp where
  head : OpHead
  plan : Plan
  deriving DecidableEq, Repr

/-- A window of the nibble array (R114): its elements by row * 64 + column, whether a chunk ran on the wide array, the layer and product
that formed it (R130), and whether it lies in the context's save area (R124). -/
structure Win where
  acc : SMap Word
  wide : Bool
  lm : Nat × Nat := (0xFFFF, 3)
  spilled : Bool := false
  deriving DecidableEq, Repr

/-- A message held in a ring (R188): the ring slot it lies in, its sender and the header fields that FWD keeps. -/
structure Held where
  slot : Nat
  srcDev : BitVec 14
  srcX : BitVec 6
  srcY : BitVec 6
  seq : BitVec 16
  len : Nat
  endf : Bool
  nf : Bool
  deriving DecidableEq, Repr

/-- A channel binding (R187, R188): RING or JOIN, and for a ring the messages arrived, handed over and not yet freed. -/
structure Chan where
  bound : Bool := false
  join : Bool := false
  desc : Nat := 0
  line : Nat := 0
  slots : Nat := 0
  words : Nat := 0
  arrived : Nat := 0
  waiting : List Held := []
  held : List Held := []
  deriving DecidableEq, Repr

/-- A logged segment of an unreleased tile (R190). -/
structure Seg where
  word : Nat
  len : Nat
  seq : BitVec 16
  stream : Nat
  plane : Nat
  deriving DecidableEq, Repr

/-- A tile of a send log (R190): first block sequence number, segments, whether TEND closed it, whether it is being resent (R82), and the
QUANT source. -/
structure TileLog where
  first : Nat
  segs : List Seg
  closed : Bool := false
  resent : Bool := false
  src : Option (Nat × Nat × Nat) := none
  deriving DecidableEq, Repr

/-- An endpoint (R189) with its credits and, on a JOIN endpoint, its send log. -/
structure Endp where
  valid : Bool := false
  dev : Nat := 0
  x : Nat := 0
  y : Nat := 0
  tc : Nat := 0
  join : Bool := false
  ch : Nat := 0
  credits : Nat := 0
  log : List TileLog := []
  deriving DecidableEq, Repr

/-- The QUANT source of a tile, for a send log (R190): descriptor index, tile, source line, SFMT, ROT_N. -/
structure QSrc where
  desc : Nat
  tile : Nat
  line : Nat
  sfmt : Nat
  rotN : Nat
  deriving DecidableEq, Repr

/-- A routine context (R171): `win` is the window that a HOLD left in the array, `winOpen` whether, in routine order, one is held for a CONT
(R176), `waitWord` the op word of the WAIT in progress (R183), `next` the next op once it could not issue. -/
structure Ctx where
  status : CtxStatus := .idle
  slot : Nat := 0
  hdr : Hdr := {}
  pos : Nat := 0
  loops : List LoopFrame := []
  sregs : SMap Word := []
  tokens : SMap Nat := []
  tqTag : Long := 0#64
  modes : SMap Word := []
  modeLayers : List Nat := []
  sleepHint : Nat := 0
  inflight : List InFlight := []
  win : Option Win := none
  winOpen : Bool := false
  waitWord : Nat := 0
  next : Option NextOp := none
  lastMode : Option (Nat × Nat) := none
  chans : SMap Chan := []
  eps : SMap Endp := []
  qsrc : List QSrc := []
  needCharge : Nat := 0
  purse : Nat := 0
  deriving DecidableEq, Repr

/-- A tile queue entry (R122): FREE entries are absent; `full = false` is RESERVED and `reading` is READING. -/
structure TqEntry where
  id : Nat
  guest : Bool
  full : Bool
  reading : Bool := false
  acc : SMap Word
  tag : Long
  deriving DecidableEq, Repr

/-- How far a joiner tile has come (R79, R82, R83): joining, joined and checked, awaiting its single resend, or on the wide
path, where its wide source is awaited or complete. -/
inductive TileMark where
  | joining | ready | resend | wide | wideReady
  deriving DecidableEq, Repr

/-- A sender of segments: module, x, y. -/
structure Sender where
  dev : BitVec 14
  x : BitVec 6
  y : BitVec 6
  deriving DecidableEq, Repr

/-- A stream joiner tile slot (R80): channel, tile, what has joined (the codes by plane, PLANE-1), who sent it, and which senders
have closed the tile with TEND. -/
structure JTile where
  ch : Nat
  guest : Bool
  tile : Nat
  codes : SMap (List Word) := []
  blockw : List Word := []
  kites : List Word := []
  kiteSeen : Bool := false
  wideSrc : List Word := []
  wideFmt : Nat := 0
  senders : List Sender := []
  ended : List Sender := []
  mark : TileMark := .joining
  retried : Bool := false
  deriving DecidableEq, Repr

/-- A shadow tile whose 1,024-cycle units are not all paid (R106, R350): layer, product, micro-batch, tile and the units left. -/
structure ShadowWait where
  layer : Nat
  product : Nat
  mb : Nat
  tile : Nat
  left : Nat
  deriving DecidableEq, Repr

/-- One core (R19, R171, R391): `lmem` is the local address map, local store and piggy bank (R172); `chestLines` are the lines
that the toy chest holds (R208); `guestBound` is the guest slot that the core was
last bound to (R194); `bankOf` is the layer and product of a piggy-bank slot's last drain and `bankNf` the slots that
BANK_NONFINITE has counted since the clear (R129, R130). -/
structure Core where
  lmem : Memory := { cells := [] }
  oc : Memory := { cells := [] }
  ta : Memory := { cells := [] }
  tq : List TqEntry := []
  tqNext : Nat := 0
  joiner : List JTile := []
  step : Word := 0#32
  main : Ctx := {}
  guest : Ctx := {}
  guestLast : Nat := 0
  guestBound : Nat := 0
  guestIssuing : Bool := false
  swapMark : Bool := false
  bankNf : List Nat := []
  bankOf : SMap (Nat × Nat) := []
  bankClearing : Bool := false
  bxBusy : Bool := false
  chestLines : Nat := 0
  shadowWaits : List ShadowWait := []
  deriving DecidableEq, Repr

end Sys2Proof.Machine
end

