-- ==== Sys2Proof/Machine/HostTypes.lean ====
section
/-! DEFINITION. The state of the host side: rings and commands (chapter 16), start-up (18), host registers (19), links (11) and
arbiters (14). -/

namespace Sys2Proof.Machine

/-- A ring's register block (R358) and the time of its first record not yet signalled (R361). -/
structure Ring where
  baseLo : Nat := 0
  baseHi : Nat := 0
  en : Bool := false
  sizeLog2 : Nat := 0
  ie : Bool := false
  vector : Nat := 0
  coal : Nat := 0
  err : Bool := false
  cause : Nat := 0
  doorbell : Word := 0#32
  index : Word := 0#32
  unsig : Option Nat := none
  deriving DecidableEq, Repr

/-- A command fetched and not completed (R360): its ring, its 64 bytes, the status word OBSERVED when it acted, whether its
action has started (Long) or its acceptance is made (RUN_STEP), and the update-record table as it was then. -/
structure Cmd where
  ring : Nat
  bytes : List Byte
  observed : Nat := 0
  active : Bool := false
  data : List Byte := []
  deriving DecidableEq, Repr

/-- The mailbox: rings, fetched commands, completion records that wait for their ring (R360), firmware's view of the units (R369), MSI-X tables (by function * 256 + word, a
vector-control word stored inverted in bit 0) with pending bits and the vectors raised (R361, R431), enabled virtual functions
(R362), and the host's memory. -/
structure Mail where
  rings : SMap Ring := []
  cmds : List Cmd := []
  done : List (Nat × List Byte) := []
  view : SMap Nat := []
  msix : SMap Word := []
  msixPend : List (Nat × Nat) := []
  irqs : List (Nat × Nat) := []
  vfs : List Nat := []
  host : Memory := { cells := [] }
  deriving DecidableEq, Repr

/-- A physical row's map (R16, R417): repaired at a physical column, no spare, unusable, spare unavailable. -/
inductive RowMap where
  | plain
  | repaired (pc : Nat)
  | noSpare
  | unusable
  deriving DecidableEq, Repr

/-- The always-on domain, the hub's start-up state, the pins, the fuses and the flash, and the JTAG instruction of each die (R411 to
R423, R437, R442, R449, R452, R454). -/
structure Boot where
  aon : Bool := false
  rails : Bool := false
  stage : Nat := 0
  result : Nat := 0
  cause : Nat := 0
  image : Nat := 0
  lastRst : Nat := 0
  trip : Bool := false
  linkEnded : Bool := false
  crystal : Bool := false
  refclk : Bool := false
  refReq : Bool := false
  pll : Bool := false
  begun : Bool := false
  memFell : Bool := false
  perst : Bool := true
  pcieUp : Bool := false
  selfRefresh : Bool := false
  memPwrGood : Bool := false
  thermTripN : Bool := true
  straps : BitVec 14 := 0#14
  smbPins : BitVec 7 := 0#7
  smbAddr : BitVec 7 := 0#7
  idValid : Bool := false
  logSeq : Nat := 0
  logStatus : Nat := 0
  logTEnd : Nat := 0
  logMemOnline : Nat := 0
  logLinkLock : Nat := 0
  logMemRate : Nat := 0
  logDensity : Nat := 0
  logDiePwr : Nat := 0
  logFwVersion : Nat := 0
  logSecVersion : Nat := 0
  logRowMap : SMap Nat := []
  logBistFail : Nat := 0
  antiRollback : Nat := 0
  keyRevoked : List Nat := []
  dbgRevoked : List Nat := []
  dbgLock : Nat := 0
  stepping : Nat := 0
  jtag : SMap Nat := []
  testDies : List Nat := []
  powerLimit : Nat := 0
  moduleW : Nat := 4200
  flash : Memory := { cells := [], erased := true }
  deriving DecidableEq, Repr

/-- A driver DMA block (R435). -/
structure Ddma where
  desc : SMap Word := []
  en : Bool := false
  vector : Nat := 0
  cqLog2 : Nat := 0
  cqLo : Nat := 0
  cqHi : Nat := 0
  cqhLo : Nat := 0
  cqhHi : Nat := 0
  ovf : Bool := false
  enFail : Bool := false
  accepted : Word := 0#32
  deriving DecidableEq, Repr

/-- What a request of the host port (R11, R429) or a memory request (R287, R296, R300) was answered with. -/
inductive RespKind where
  | none | ok | unsupported | abort | poisoned | refused | waiting
  deriving DecidableEq, Repr

/-- BAR2, driver DMA, firmware update (with the slot and the image of the write in progress), debug and sideband registers (R427 to
R441), the last answer of the host port or of a
memory request, and the last MCTP response (R443). -/
structure HostRegs where
  winPart : Nat := 0
  winOffLo : Nat := 0
  winOffHi : Nat := 0
  bar2Log2 : Nat := 34
  ddma : SMap Ddma := []
  fwuLo : Nat := 0
  fwuHi : Nat := 0
  fwuLen : Nat := 0
  fwuSlot : Bool := false
  fwuRaise : Bool := false
  fwuState : Nat := 0
  fwuCause : Nat := 0
  fwuJob : Option (Nat × List Byte) := none
  nonce : Long := 0#64
  tokLo : Nat := 0
  tokHi : Nat := 0
  scope : Nat := 0
  granted : Bool := false
  scopeG : Nat := 0
  dbgCause : Nat := 0
  sbAddr : Nat := 0
  sbData : Word := 0#32
  resp : RespKind := .none
  respData : List Byte := []
  mctp : List Byte := []
  deriving DecidableEq, Repr

/-- A link port (R257 to R262, R273 to R278): usable lanes, width and spares being trained, what its far end asked, sequence numbers (the
next RSEQ to send and to accept), the replay buffer, the replays of its oldest flit, the NAK to be returned, the ACK last sent, the rung agreed
with the far end, CTRL flits that wait for room, the time in us at which a width change ends (R274), and the flit last put on its lanes. -/
structure LPort where
  locked : Bool := false
  up : Bool := false
  retraining : Bool := false
  usable : Nat := 26
  width : Nat := 24
  sparing : Nat := 0
  laneMap : Nat := 0
  farWidth : Nat := 24
  tx : BitVec 16 := 0#16
  rx : BitVec 16 := 0#16
  replay : List Flit := []
  replays : Nat := 0
  nak : Bool := false
  acked : BitVec 16 := 0xFFFF#16
  rung : Nat := 0
  ctrl : List (Nat × Nat) := []
  changing : Option Nat := none
  last : Option Flit := none
  deriving DecidableEq, Repr

/-- A flit that waits to be sent (R263, R264): whether it keeps the PSEQ that it was sent with before, whether it is another module's, its
source, 0 and 1 a receive pair of its link die, 2 and 3 a ring input, 4 the mesh (R327), and the unit of the receive pool that its sending frees: pair * 6 + channel, or 48 + die * 6 + ring input * 3 + class (R265). -/
structure WFlit where
  flit : Flit
  numbered : Bool := false
  fwd : Bool := false
  src : Nat := 4
  unit : Option Nat := none
  deriving DecidableEq, Repr

/-- The bytes of a channel not yet in a flit (R261): where message headers start, each with the message's source;
the source of the message in progress; and the receive units that the bytes hold. -/
structure OutStream where
  bytes : List Byte := []
  starts : List (Nat × Nat) := []
  cur : Nat := 4
  units : List Nat := []
  deriving DecidableEq, Repr

/-- The bytes of a channel that arrived and do not yet make a message, and how many each flit brought. -/
structure InStream where
  bytes : List Byte := []
  fills : List Nat := []
  deriving DecidableEq, Repr

/-- A pair (R257, R263, R264): its service state; the next PSEQ to send and to deliver; by channel, class * 2 + DL, credits spent, credits
owed and units held; flits ahead of their PSEQ; flits and bytes that wait to be sent; bytes that arrived. -/
structure LPair where
  down : Bool := false
  barred : Bool := false
  tx : BitVec 16 := 0#16
  rx : BitVec 16 := 0#16
  spent : SMap Nat := []
  owed : SMap Nat := []
  held : SMap Nat := []
  ahead : List Flit := []
  waiting : List WFlit := []
  out : SMap OutStream := []
  inn : SMap InStream := []
  deriving DecidableEq, Repr

/-- A message on the link-die ring (R269): the link die that it stands in, the one that it goes to, its source there (as a
flit's), and the units that it holds. -/
structure RingMsg where
  msg : Msg
  die : Nat
  goal : Nat
  src : Nat
  units : List Nat
  deriving DecidableEq, Repr

/-- The links (R258, R276, R277): extents, ports by number, pairs by d * 2 + e, detour words, blocked links as LINK_STATE gives them and links to
lost modules by dimension, the messages on the ring and the units of its inputs in use (R265, R269), whether the
ports drive at all (R387), and whether LINK_CONFIG has been made and its training still runs (R416). -/
structure Links where
  k : List Nat := [1, 1, 1, 1]
  ports : SMap LPort := []
  pairs : SMap LPair := []
  detour : SMap Nat := []
  blocked : SMap Nat := []
  lost : SMap Nat := []
  ring : List RingMsg := []
  ringHeld : SMap Nat := []
  driving : Bool := true
  configured : Bool := false
  training : Bool := false
  deriving DecidableEq, Repr

/-- An arbiter instance (R328 to R335); `normal` is MODE inverted, so that the default is PARKED. `active` holds the waiting
requests as (requester, class) in order of arrival, `queue` the parked ones; `prio` and `waits` are by requester, `last` is one
more than the last requester granted, `busy` the transfer in progress or decided; `used` counts the slots that each class has
had in a memory port's window (R299). -/
structure Arb where
  freeze : Bool := false
  normal : Bool := false
  prio : SMap Nat := []
  waits : SMap Nat := []
  active : List (Nat × Nat) := []
  queue : List (Nat × Nat) := []
  drainQueue : Bool := false
  last : Nat := 0
  busy : Option Nat := none
  used : SMap Nat := []
  deriving DecidableEq, Repr

end Sys2Proof.Machine
end

