-- ==== Sys2Proof/Machine/MemTypes.lean ====
section
/-! DEFINITION. The state of the memory ports, partitions and stripes (chapter 12) and of the DMA channels (chapter 13). -/

namespace Sys2Proof.Machine

/-- A partition record (R295), whether SCRUB_PARTITION runs over it, and whether nothing has been written since (R297). -/
structure PartRec where
  owner : Nat := 0
  valid : Bool := false
  groups : Nat := 0
  baseRow : Nat := 0
  rows : Nat := 0
  bulkRate : Nat := 0
  bulkBurst : Nat := 0
  lcQuota : Nat := 0
  scrubbing : Bool := false
  clean : Bool := false
  deriving DecidableEq, Repr

/-- A memory port (R282, R290, R292, R302, R304). `st` and `rate` are coded as R367, `thermal` as its FLAGS; `ptr` is the
rebuild pointer, `lower` counts polls that call for a lower state, `shut` polls above the limit. -/
structure MPort where
  st : Nat := 3
  rate : Nat := 0
  density : Nat := 0
  thermal : Nat := 0
  lower : Nat := 0
  shut : Nat := 0
  cause : Nat := 0
  ptr : Nat := 0
  deriving DecidableEq, Repr

/-- An entry of a group's combining buffer (R289): the stripe's row, and the pieces written to it in arrival order, each at
its offset in the stripe's 2,816 data bytes. -/
structure BufEntry where
  row : Nat
  pieces : List (Nat × List Byte)
  deriving DecidableEq, Repr

/-- A BULK request that waits for its partition's tokens (R300); a write carries its data. -/
structure WaitReq where
  q : MemReq
  data : Option (List Byte)
  deriving DecidableEq, Repr

/-- The memory system. Granules are numbered (port * 4 + channel) * 2^25 + row; `dram` holds byte b of granule g at g * 256 + b.
`owners` lists rows last held by an owner as (group, base, rows, owner); `bad` the granules that cannot be read and are not
rebuilt; `tokens` the BULK buckets in 1/64 tokens by die * 8 + partition; `lcUsed` the LC bytes of the window; `unanswered` the writes whose response has not left (R289); `ceil` the memory
dies that request a clock ceiling. -/
structure Mem where
  dram : Memory := { cells := [] }
  parts : SMap PartRec := []
  owners : List (Nat × Nat × Nat × Nat) := []
  ports : SMap MPort := []
  bufs : SMap (List BufEntry) := []
  bad : List Nat := []
  remaps : List Nat := []
  full : List Nat := []
  patrol : List Nat := []
  tokens : SMap Nat := []
  lcUsed : SMap Nat := []
  waiting : List WaitReq := []
  unanswered : List MemReq := []
  ceil : List Nat := []
  deriving DecidableEq, Repr

/-- A DMA descriptor (R311). -/
structure DmaDesc where
  src : Nat := 0
  dst : Nat := 0
  len : Nat := 0
  op : Nat := 0
  tc : Nat := 0
  slot : Nat := 0
  release : Bool := false
  cq : Bool := false
  irq : Bool := false
  chain : Bool := false
  trailer : Bool := false
  nf : Bool := false
  tag : Nat := 0
  seed : Nat := 0
  dev : Nat := 0
  core : Nat := 0
  chan : Nat := 0
  arg : Nat := 0
  kind : Nat := 0
  seqBase : Nat := 0
  rsv : Bool := false
  deriving DecidableEq, Repr

/-- Who submitted a descriptor (R310, R312): a core's context by a grant, Yucon firmware, or the driver. -/
inductive DmaFrom where
  | core (no : Nat) (guest : Bool) (grant : Nat) (id : Nat)
  | firmware
  | driver
  deriving DecidableEq, Repr

/-- A submitted descriptor (R317): its arrival count, the bytes done, the CRC register, the payload gathered for the next
message of a SEND, and how its work ended (STATUS and CAUSE) once it has. `flight` holds the bursts written whose response has not
returned, `nf` the NF of the contribution header that a SEND formed (R228). `sent` says that a SEND waits for the far end. -/
structure DmaJob where
  desc : DmaDesc
  from' : DmaFrom
  slot : Nat
  seq : Nat
  done : Nat := 0
  crc : Nat := 0xFFFFFFFF
  started : Bool := false
  sent : Bool := false
  paid : Nat := 0
  fin : Option (Nat × Nat) := none
  flight : List (Nat × Nat) := []
  nf : Bool := false
  deriving DecidableEq, Repr

/-- A DMA channel with its record (R309), the queue of submitted descriptors (R310), and its completion-queue state (R319,
R320). -/
structure DmaChan where
  owner : Nat := 0
  valid : Bool := false
  hasCq : Bool := false
  cqLog2 : Nat := 0
  cqBase : Nat := 0
  cqHeadAddr : Nat := 0
  cqHead : Nat := 0
  queue : List DmaJob := []
  arrivals : Nat := 0
  producer : Nat := 0
  full : Bool := false
  closing : Bool := false
  deriving DecidableEq, Repr

end Sys2Proof.Machine
end

