-- ==== Sys2Proof/Machine/JobTypes.lean ====
section
/-! DEFINITION. The state of a job slot (chapters 4, 7, 9, 10, 16, 17), of the toy chest (9) and of the journal (17). -/

namespace Sys2Proof.Machine

/-- A membership epoch record (R240); `roles` holds (group, member index) by module. -/
structure EpochRec where
  epoch : Nat := 0
  first : Nat := 0
  master : Nat := 0
  perm : Nat := 0
  members : List Nat := []
  roles : SMap (Nat × Nat) := []
  deriving DecidableEq, Repr

/-- The layer fall-back policy record (R98), at its defaults. -/
structure Policy where
  frac : Word := 0x3C800000#32
  trigSteps : Nat := 4
  hold : Nat := 200
  holdMax : Nat := 6400
  deriving DecidableEq, Repr

/-- Layer fall-back state of one layer product (R99). -/
structure LProd where
  wide : Bool := false
  overs : Nat := 0
  hold : Nat := 0
  left : Nat := 0
  clean : Nat := 0
  deriving DecidableEq, Repr

/-- A shadow record (R104). -/
structure ShadowRec where
  step : Nat
  layer : Nat
  product : Nat
  mb : Nat
  tile : Nat
  maxAbs : Word
  eNum : Word
  eDen : Word
  nonfin : Nat
  deriving DecidableEq, Repr

/-- A stage record (R203); chunk lists hold V entries. -/
structure StageRec where
  rank : Nat := 0
  p : Nat := 1
  v : Nat := 1
  thinAlways : Bool := false
  chestLines : Nat := 0
  prefetch : Nat := 0
  offBase : Nat := 0
  offTiles : Nat := 0
  gateCore : List Nat := []
  gateCh : List Nat := []
  blocks : List Nat := []
  entry : List Nat := []
  deriving DecidableEq, Repr

/-- A collective record (R224). -/
structure CollRec where
  credits : Nat := 0
  nodeN : Nat := 2
  slotBytes : Nat := 0
  base : List Nat := []
  emA : Nat := 0
  emB : Nat := 0
  master : Nat := 0
  deriving DecidableEq, Repr

/-- A bucket-table entry (R223). -/
structure BucketDef where
  layer : Nat
  shard : Nat
  firstTile : Nat
  tiles : Nat
  mode : Nat
  kLog2 : Nat
  agent : Nat
  emLine : Nat
  acc : Nat
  deriving DecidableEq, Repr

/-- An owned bucket (R225, R237, R238): its open step, the members whose contribution is summed, in the order of the sum, whether an
accumulator buffer is open for it, the sums of its elements, NF and AB, and the notes of resends asked for (member, step, epoch). -/
structure Bucket where
  openStep : Nat := 0
  arrived : List Nat := []
  buf : Bool := false
  acc : SMap Word := []
  nf : Bool := false
  ab : Bool := false
  notes : List (Nat × Nat × Nat) := []
  deriving DecidableEq, Repr

/-- A contribution in its landing slot (R225, R236, R239): `passed` once its END has passed R237 and it waits to be summed; those stand in
arrival order. -/
structure Landing where
  tag : Nat
  dev : Nat
  member : Nat
  agent : Nat
  slot : Nat
  bytes : Nat
  ended : Bool := false
  passed : Bool := false
  deriving DecidableEq, Repr

/-- A gather request (R248): layer, shard, coding, version, REFETCH, and the module that asks or is asked. -/
structure GatherReq where
  layer : Nat
  shard : Nat
  coding : Nat
  version : Nat
  refetch : Bool
  dev : Nat
  tries : Nat := 0
  regather : Bool := false
  deriving DecidableEq, Repr

/-- A permutation-table entry (R252). -/
structure PermEntry where
  src : Nat
  dst : Nat
  kind : Nat
  layer : Nat
  shard : Nat
  srcAddr : Nat
  dstAddr : Nat
  bytes : Nat
  deriving DecidableEq, Repr

/-- A permutation in progress (R253): its number, whether a takeover built it, entries passed and retried by index, and the
modules that reported PERMUTE_DONE. -/
structure Perm where
  active : Bool := false
  number : Nat := 0
  takeover : Option (Nat × Nat) := none
  entries : List PermEntry := []
  passed : List Nat := []
  retried : List Nat := []
  dones : List Nat := []
  deriving DecidableEq, Repr

/-- A released step (R370, R378, R379): what RUN_STEP asked, whether it runs in replay mode (R381, R408), the telemetry bytes
written at its decision, and whether this module updates, journals and mirrors in it (not a survivor of a repair, R401). -/
structure Run where
  step : Nat
  m : Nat := 1
  hold : Bool := false
  noTelem : Bool := false
  upd : List Byte := []
  batch : Nat := 0
  telem : Nat := 0
  telemCap : Nat := 0
  tRelease : Nat := 0
  replay : Bool := false
  diag : Bool := false
  repair : Bool := false
  shadowAll : Bool := false
  telemBytes : Nat := 0
  owner : Bool := true
  deriving DecidableEq, Repr

/-- A decided and committed step that awaits its mirror (R25, R395): decision, attempts abandoned, telemetry bytes, when its last
shard committed, and whether a repair ran it. -/
structure DoneRun where
  step : Nat
  decision : Nat
  abandons : Nat
  telemBytes : Nat
  tCommit : Nat
  repair : Bool
  deriving DecidableEq, Repr

/-- A shard whose UPDATE is committed in the step (R166, R168, R406): the gain in force, the gain chosen, the elements frozen, and the two
sums and the ratio of the update-to-weight watch, where it was updated. -/
structure ShardDone where
  layer : Nat
  shard : Nat
  k : Nat
  kNext : Nat
  frozen : Nat
  sums : Option (Word × Word × Word) := none
  deriving DecidableEq, Repr

/-- A mirror unit not yet acknowledged (R395, R396): UKIND, KEY, its failures, and whether it is on its way. -/
structure MUnit where
  kind : Nat
  key : Nat
  fails : Nat := 0
  sent : Bool := false
  deriving DecidableEq, Repr

/-- STATE of a job slot (R367). -/
inductive SlotState where
  | empty | loading | ready | running | replaying | halted | unloading | haltedBeyond
  deriving DecidableEq, Repr

/-- A job slot. `decided` and `committed` are the last decided and last committed steps; `modes` the layer mode entries (R97);
`sealTime` is when this module sealed, `heldTime` when it
recorded its last SEAL, `nextEpoch` an epoch that waits for a swap (R391); `greqs` are the gathers this module has asked for, `gpend` those asked of it, `gone` the gathered copies that another
transfer has overwritten, as (LAYER, SHARD, CODING) (R251), `permNext` the table in the second buffer (R252), `ghdr` the headers of transfers under way by source *
4 + agent, `glens` the body lengths held by key, `lastVer` the last step that committed and `prevVer` the one before; `hold0` is the hold of a layer product at load (R99); `boundary` says that a step that has ended awaits its reports, with its skip and whether it was a replay, `keptModes` holds the
mode entries while a replay applies those of its record (R100), `wides` the layers whose current area has a wide copy (R165), `qpol` is
the scale policy last used for a layer (R75); `abCause` the STEP_ABANDONED cause of the step so far; `spent` and `cursor` the landing credits spent and the slot cursor by owner
module * 4 + agent (R236), `resends` the resends that wait for one, as (owner, tag), `base` the image as JOB_LOAD copied it and `image` the one whose map sections are in force (log 15), `landCur` an owner's own count of them by sender * 4 + agent; `updDone` the shards whose UPDATE has been committed for the step; `after` the step that runs after a repair, `prev` a step that awaits its mirror,
`mirror` its units not yet acknowledged, `mirrorTurn` the staging slot in turn; `plans` what the updater routines of a tensor shard last
named (R161), `gains` the gain under which an area's residuals were written, plus 1, by 2 * (LAYER + SHARD * 65536) + area, 0 where the
header's is in force (R161), `emVer` the VERSION plus 1 of the error memory that a takeover brought for a bucket (R401), `used` the version of the row coding that each of the last steps reads (R167); `stand` the buddy chain's changes as (lost, spare)
(R394). -/
structure Slot where
  st : SlotState := .empty
  guest : Bool := false
  rollback : Option Nat := none
  quiesced : Bool := false
  seed : Long := 0#64
  part : Nat := 0
  bankExt : Nat := 0
  nf : Bool := false
  ab : Bool := false
  abCause : Option Nat := none
  step : Word := 0#32
  decided : Nat := 0
  committed : Nat := 0
  run : Option Run := none
  after : Option Run := none
  abandons : Nat := 0
  skipped : Nat := 0
  boundary : Option (Bool × Bool) := none
  keptModes : Option (SMap Word) := none
  wides : List Nat := []
  qpol : SMap Nat := []
  epoch : EpochRec := {}
  hasEpoch : Bool := false
  parts : SMap (List Byte) := []
  succ : List Nat := []
  lostTimeout : Nat := 60
  spares : List Nat := []
  lostSeen : List Nat := []
  modes : SMap Word := []
  policy : Policy := {}
  hold0 : Nat := 200
  lprods : SMap LProd := []
  shadows : List ShadowRec := []
  rank : Nat := 0
  spare : Bool := false
  stage : StageRec := {}
  coll : CollRec := {}
  buckets : List BucketDef := []
  gatherBase : Nat := 0
  gathers : Nat := 0
  grants : List (Nat × Nat) := []
  layout : List (Nat × Nat × Nat × Nat) := []
  bound : List (Nat × Bool) := []
  image : List Byte := []
  base : List Byte := []
  bkts : SMap Bucket := []
  landing : List Landing := []
  spent : SMap Nat := []
  cursor : SMap Nat := []
  landCur : SMap Nat := []
  resends : List (Nat × Nat) := []
  seals : List (Nat × Bool × Bool) := []
  tailSent : Bool := false
  sealSent : Bool := false
  sealTime : Option Nat := none
  heldTime : Nat := 0
  nextEpoch : Option EpochRec := none
  decision : Option Nat := none
  releases : List (Nat × Nat) := []
  greqs : List GatherReq := []
  ghdr : SMap (List Byte) := []
  gone : List (Nat × Nat × Nat) := []
  glens : SMap Nat := []
  lastVer : Nat := 0
  prevVer : Nat := 0
  gpend : List GatherReq := []
  srcCrc : List (Nat × Nat × Nat × Nat × Nat) := []
  emCur : Bool := false
  emVer : SMap Nat := []
  perm : Perm := {}
  permNext : Option (Nat × List PermEntry) := none
  updDone : List ShardDone := []
  plans : List (Nat × Nat × UpdPlan) := []
  gains : SMap Nat := []
  used : List (Nat × Nat) := []
  prev : Option DoneRun := none
  mirror : List MUnit := []
  stand : List (Nat × Nat) := []
  mirrorTurn : Bool := false
  closes : List (List Byte) := []
  deriving DecidableEq, Repr

/-- A tile held by the toy chest (R205, R208, R211): entry key, tile of the entry, recall key, and its place, an SRAM tile or a
tile of the off-load region. `recalled` marks one brought back ahead of its DLOAD (R212). -/
structure CTile where
  mb : Nat
  u : Nat
  b : Nat
  t : Nat
  key : Nat
  sram : Bool
  place : Nat
  recalled : Bool := false
  deriving DecidableEq, Repr

/-- A grant (R209): micro-batch, chunk, THIN, and the tiles that it still reserves. -/
structure CGrant where
  mb : Nat
  u : Nat
  thin : Bool
  tiles : Nat
  deriving DecidableEq, Repr

/-- The toy chest of slot 0 (R208, R209): the next micro-batch of each chunk, chunks whose grant is not freed, grants and tiles. -/
structure Chest where
  next : SMap Nat := []
  out : List Nat := []
  grants : List CGrant := []
  tiles : List CTile := []
  deriving DecidableEq, Repr

/-- The journal ring (R405): head and tail as byte offsets, and its records (step, slot, offset, length), oldest first. -/
structure Journal where
  head : Nat := 0
  tail : Nat := 0
  recs : List (Nat × Nat × Nat × Nat) := []
  deriving DecidableEq, Repr

end Sys2Proof.Machine
end

