-- ==== Sys2Proof/Machine/State.lean ====
section
/-! DEFINITION. State of the block: everything the spec gives the machine, and the queue of waiting commands. -/

namespace Sys2Proof.Machine

/-- The key of a counter (R380): its identifier and the units it is attributed to, where they apply. -/
structure CKey where
  id : Nat
  slot : Option Nat := none
  ctx : Option Bool := none
  core : Option Nat := none
  die : Option Nat := none
  layer : Option Nat := none
  product : Option Nat := none
  unit : Option Nat := none
  deriving DecidableEq, Repr

/-- An event record (R383); the payload is packed as R384 lists it. -/
structure Event where
  code : Nat
  cls : Nat
  slot : Option Nat
  skip : Bool
  replay : Bool
  step : Word
  time : Nat
  source : Nat
  seq : Nat
  lost : Nat
  payload : List Byte
  deriving DecidableEq, Repr

/-- A waiting refill request of a governor (R354): core, guest purse or main, the charge it names, and its age in us. -/
structure RefillReq where
  core : Nat
  guest : Bool
  charge : Nat
  age : Nat
  deriving DecidableEq, Repr

/-- The fields of a governor record (R349); the defaults are the record's. -/
structure GovRec where
  capW : Nat := 180
  floorW : Nat := 25
  fMax : Nat := 1600
  fMin : Nat := 400
  bucketUj : Nat := 5000
  tSoft : Nat := 95
  ageUs : Nat := 8
  lowPct : Nat := 25
  surplusPct : Nat := 50
  highPct : Nat := 75
  guestOff : Bool := false
  shadowLow : Bool := false
  deriving DecidableEq, Repr

/-- A budget governor (R349 to R355) of a compute die. Energies are in 0.01 nJ; `clock` is the core clock in MHz, `f` the
floor account, `base` the die's static energy per us, `corr` the correction of R351, `ledger` what was charged in the millisecond;
`capNow` is the cap in force (R444), `thermCeil` and `memCeil` the ceilings of R352 and R303, `deferred` the cores whose SHADOW
unit waits (R354). -/
structure Gov where
  cfg : GovRec := {}
  next : Option GovRec := none
  clock : Nat := 0
  chosen : Nat := 0
  b : Int := 0
  f : Int := 0
  base : Int := 0
  corr : Int := 0
  ledger : Nat := 0
  overdraft : Nat := 0
  tHot : Int := 0
  thermCeil : Nat := 1800
  memCeil : Nat := 1800
  capNow : Nat := 180
  reqs : List RefillReq := []
  bWindow : Int := 0
  deferred : List Nat := []
  deriving DecidableEq, Repr

/-- The bucket capacity C in 0.01 nJ (R349, R351). -/
def Gov.cap (g : Gov) : Int := g.cfg.bucketUj * 100000

/-- A power domain's status word but PIN (R343), rung by rung 0 ACTIVE to 6 OFF, and what R342 keeps beside it: whether a power
command asked for the rung, a deeper rung queued behind an exit, the ns that the retire step in progress had left when an enable
was queued, and the rung and latency that the last transition reached. -/
structure Domain where
  rung : Nat := 0
  target : Nat := 0
  phase : Nat := 0
  qd : Bool := false
  hint : Nat := 0
  commanded : Bool := false
  deeper : Option Nat := none
  remain : Nat := 0
  reached : Nat := 0
  lat : Nat := 0
  deriving DecidableEq, Repr

/-- The state of the block. `pending` is the queue of commands; `free` numbers free values (log 5); `wire` holds the messages that
have been injected and not yet delivered (log 20); `seen` holds the counters as the last step boundary found them, `cleared` what
TELEMETRY_READ has cleared from them since (R379), `beyonds` the events of class BEYOND since reset (R443). -/
structure State where
  pending : List Instr
  free : Nat
  wire : List Msg
  cores : SMap Core
  counters : List (CKey × Nat)
  seen : List (CKey × Nat)
  cleared : List (CKey × Nat)
  events : List Event
  evSeq : Nat
  evLost : Nat
  beyonds : Nat
  slots : SMap Slot
  govs : SMap Gov
  domains : SMap Domain
  modId : BitVec 14
  timeQ : Nat
  mem : Mem
  dma : SMap DmaChan
  chest : Chest
  journal : Journal
  mail : Mail
  boot : Boot
  rows : SMap RowMap
  host : HostRegs
  links : Links
  arbs : SMap Arb
  arbInst : SMap Nat
  deriving DecidableEq, Repr

/-- The module before power reaches it, with nothing placed: the always-on domain is unpowered, PERST# is asserted, no memory
holds a byte other than 0, every status word reads its reset value (R343, R367, R420), and no command waits. Values that the
spec does not give are named in log 3 and log 4. -/
def State.reset : State :=
  { pending := [], free := 0, wire := [], cores := [], counters := [], seen := [], cleared := [], events := [], evSeq := 0, evLost := 0, beyonds := 0, slots := []
    govs := [], domains := [], modId := 0#14, timeQ := 0, mem := {}, dma := [], chest := {}, journal := {}, mail := {}
    boot := {}, rows := [], host := {}, links := {}, arbs := [], arbInst := [] }

/-- Why a command stops the machine. -/
inductive Fault where
  /-- No command stops the machine with a fault. Raised by nothing; safe. -/
  | none
  deriving DecidableEq, Repr

/-- Why a command has no meaning. -/
inductive Refusal where
  /-- The command has no meaning yet. Raised by no meaning; safe. -/
  | notModelled (mnemonic : String)
  deriving DecidableEq, Repr

end Sys2Proof.Machine
end

