-- ==== Sys2Proof/Machine/Flags.lean ====
section
/-! DEFINITION. What the block reports: counters (R53, R380) and events (R383 to R385). The block has no arithmetic flags. -/

namespace Sys2Proof.Machine

/-- The value of a counter; one that is not listed is 0. -/
def ctrGet (cs : List (CKey × Nat)) (k : CKey) : Nat := (cs.lookup k).getD 0

/-- Set a counter in the list. -/
def ctrSet : List (CKey × Nat) → CKey → Nat → List (CKey × Nat)
  | [], k, v => [(k, v)]
  | (k', v') :: t, k, v => if k' = k then (k, v) :: t else (k', v') :: ctrSet t k v

/-- Add `n` to a counter: it saturates at 2^32 - 1 (R53); nothing is listed for a count of 0. -/
def ctrAdd (cs : List (CKey × Nat)) (k : CKey) (n : Nat) : List (CKey × Nat) :=
  if n = 0 then cs else ctrSet cs k (min (ctrGet cs k + n) (2 ^ 32 - 1))

/-- Raise a counter marked "not a count" to `n` (R379). -/
def ctrPeak (cs : List (CKey × Nat)) (k : CKey) (n : Nat) : List (CKey × Nat) :=
  if n ≤ ctrGet cs k then cs else ctrSet cs k (min n (2 ^ 32 - 1))

/-- Count `n` under a key. -/
def State.count (s : State) (k : CKey) (n : Nat := 1) : State := { s with counters := ctrAdd s.counters k n }
/-- Raise a peak counter. -/
def State.peak (s : State) (k : CKey) (n : Nat) : State := { s with counters := ctrPeak s.counters k n }

/-- The integer microseconds of TIME_US (R344). -/
def State.timeUs (s : State) : Nat := s.timeQ / 65536

/-- Event classes (R383). -/
inductive EvClass where
  | info | absorbed | reconcile | fault | beyond
  deriving DecidableEq, Repr

/-- CLASS as a number (R383). -/
def EvClass.code : EvClass → Nat
  | .info => 0 | .absorbed => 1 | .reconcile => 2 | .fault => 3 | .beyond => 4

/-- Pack fields (width in bytes, value) from offset 0, each at its natural alignment (R383). -/
def packAt : Nat → List (Nat × Nat) → List Byte
  | _, [] => []
  | o, (w, v) :: t =>
    let padN := (w - o % w) % w
    List.replicate padN 0#8 ++ leBytes w v ++ packAt (o + padN + w) t

/-- A payload of 32 bytes (R383). -/
def payload (fs : List (Nat × Nat)) : List Byte := ((packAt 0 fs) ++ List.replicate 32 0#8).take 32

/-- A unit in the SOURCE form (R383): UNIT_KIND in [7:0], UNIT_INDEX in [31:8]. -/
def unitRef (kind index : Nat) : Nat := kind % 256 + index % 2 ^ 24 * 256

/-- The step in progress in a slot (R383). -/
def State.slotStep (s : State) : Option Nat → Word
  | some k => (SMap.get {} s.slots k).step
  | none => 0#32

/-- The record of an event posted now (R383). -/
def State.mkEvent (s : State) (code : Nat) (cls : EvClass) (slot : Option Nat) (source : Nat) (pl : List Byte)
    (skip replay : Bool) : Event :=
  { code := code, cls := cls.code, slot := slot, skip := skip, replay := replay, step := s.slotStep slot
    time := s.timeUs, source := source, seq := s.evSeq, lost := s.evLost, payload := pl }

/-- Post an event (R383, R385): the internal queue holds 4,096 records; past that a new INFO event is dropped and counted. -/
def State.post (s : State) (code : Nat) (cls : EvClass) (slot : Option Nat) (source : Nat) (pl : List Byte)
    (skip : Bool := false) (replay : Bool := false) : State :=
  if cls = .info ∧ 4096 ≤ s.events.length then
    State.count { s with evLost := s.evLost + 1 } { id := Ctr.eventsDropped }
  else
    { s with
      events := s.events ++ [s.mkEvent code cls slot source pl skip replay]
      evSeq := s.evSeq + 1
      beyonds := s.beyonds + b2n (decide (cls = .beyond))
      evLost := 0 }

end Sys2Proof.Machine
end

