-- ==== Sys2Proof/Machine/Stripes.lean ====
section
/-! DEFINITION. Where device addresses lie (R284, R285), combining buffers as a write response sees them (R289), and the abort of a DMA channel (R324,
R325). -/

namespace Sys2Proof.Machine

/-- A place in device memory (R285): channel group, row, data position of the stripe, byte. -/
structure Loc where
  grp : Nat
  row : Nat
  d : Nat
  byte : Nat
  deriving DecidableEq, Repr

/-- The groups of a mask, ascending (R285). -/
def groupsOf (mask : Nat) : List Nat := (List.range 16).filter (bitOf mask)
/-- log2 of a number of groups (R295 allows 1, 2, 4, 8 and 16). -/
def log2Groups (n : Nat) : Nat := if n ≤ 1 then 0 else if n = 2 then 1 else if n = 4 then 2 else if n = 8 then 3 else 4
/-- The XOR-fold of a stripe number in b-bit pieces (R285). -/
def foldBits (b : Nat) : Nat → Nat → Nat
  | 0, _ => 0
  | k + 1, t => (t % 2 ^ b) ^^^ foldBits b k (t / 2 ^ b)

/-- locate (R285). -/
def locate (p : PartRec) (off : Nat) : Loc :=
  let gs := groupsOf p.groups
  let g := off / 256
  let q := g / 11
  let b := log2Groups gs.length
  let f := if b = 0 then 0 else foldBits b 40 q
  { grp := gs.getD f 0, row := (p.baseRow + q / 2 ^ b) % 2 ^ 32, d := g % 11, byte := off % 256 }

/-- The memory die of a group. -/
def Loc.die (l : Loc) : Nat := l.grp / 4
/-- The port that holds position `d` of a row, and the parity port with `d = 11` (R285). -/
def portAt (grp row d : Nat) : Nat := grp / 4 * 12 + (row % 12 + 1 + d) % 12
/-- The granule number of a place. -/
def granNo (port ch row : Nat) : Nat := (port * 4 + ch) * 2 ^ 25 + row
/-- The granule of a place. -/
def Loc.gran (l : Loc) : Nat := granNo (portAt l.grp l.row l.d) (l.grp % 4) l.row
/-- The 12 granules of a stripe, parity last. -/
def stripeGrans (grp row : Nat) : List Nat := (List.range 12).map (fun d => granNo (portAt grp row d) (grp % 4) row)
/-- The port of a granule number. -/
def granPort (g : Nat) : Nat := g / 2 ^ 27
/-- The channel of a granule number. -/
def granCh (g : Nat) : Nat := g / 2 ^ 25 % 4
/-- The row of a granule number. -/
def granRow (g : Nat) : Nat := g % 2 ^ 25

/-- A partition record. -/
def Mem.part (m : Mem) (k : Nat) : PartRec := SMap.get {} m.parts k
/-- A port. -/
def Mem.port (m : Mem) (p : Nat) : MPort := SMap.get {} m.ports p
/-- Rows per channel (R283). -/
def rowsOf (density : Nat) : Nat := if density = 0 then 15728640 else 31457280
/-- Spare granules per channel (R286). -/
def sparesOf (density : Nat) : Nat := if density = 0 then 64512 else 129024
/-- The size of a partition in bytes (R295). -/
def PartRec.size (p : PartRec) : Nat := if p.valid then p.rows * (groupsOf p.groups).length * 2816 else 0
/-- The groups of a partition on a die. -/
def PartRec.onDie (p : PartRec) (die : Nat) : Nat := ((groupsOf p.groups).filter (fun g => decide (g / 4 = die))).length

/-- The combining buffer of a group (R289). -/
def Mem.buf (m : Mem) (grp : Nat) : List BufEntry := SMap.get [] m.bufs grp
/-- PART, OFFSET of a device address in window 0b00 (R284). -/
def devPart (a : Nat) : Nat := a / 2 ^ 45 % 8
/-- OFFSET of a device address. -/
def devOff (a : Nat) : Nat := a % 2 ^ 45
/-- Whether an address lies in window 0b00 with its reserved bits 0. -/
def isDev (a : Nat) : Bool := decide (a < 2 ^ 48)

/-- Whether an entry covers any byte of a data position. -/
def BufEntry.touches (e : BufEntry) (d : Nat) : Bool :=
  e.pieces.any (fun p => decide (p.1 < d * 256 + 256) && decide (d * 256 < p.1 + p.2.length))
/-- Whether a device range still lies in a combining buffer, so that its write response has not left (R289). -/
def Mem.buffered (m : Mem) (a n : Nat) : Bool :=
  (List.range (n / 256 + 2)).any (fun i =>
    let l := locate (m.part (devPart a)) (devOff a / 256 * 256 + i * 256)
    decide (devOff a / 256 * 256 + i * 256 < devOff a + n) &&
      (m.buf l.grp).any (fun e => decide (e.row = l.row) && e.touches l.d))

/-- Whether a descriptor has work outstanding (R325): bytes to move, or a write response of its own to come. -/
def DmaJob.outstanding (m : Mem) (j : DmaJob) : Bool :=
  match j.fin with
  | none => true
  | some f => decide (f = (0, 0)) && decide (j.desc.op ≠ 2) && decide (j.desc.dst / 2 ^ 62 = 0) && m.buffered j.desc.dst j.done
/-- Abort a channel (R324): every descriptor with work outstanding ends ABORTED with the cause. -/
def DmaChan.abort (m : Mem) (c : DmaChan) (cause : Nat) : DmaChan :=
  { c with queue := c.queue.map (fun j => if j.outstanding m then { j with fin := some (0x01, cause) } else j) }

end Sys2Proof.Machine
end

