-- ==== Sys2Proof/Machine/Mail.lean ====
section
/-! DEFINITION. Records to the host and what stops a slot: rings (R357 to R361, R364), MSI-X (R431), completion of commands (R365),
halts (R183, R324) and beyond-model stops (R404). -/

namespace Sys2Proof.Machine

/-- A ring. -/
def State.ring (s : State) (r : Nat) : Ring := SMap.get {} s.mail.rings r
/-- Replace a ring. -/
def State.setRing (s : State) (r : Nat) (x : Ring) : State :=
  { s with mail := { s.mail with rings := SMap.set {} s.mail.rings r x } }
/-- Change the mailbox. -/
def State.modMail (s : State) (f : Mail → Mail) : State := { s with mail := f s.mail }
/-- A job slot. -/
def State.slot (s : State) (k : Nat) : Slot := SMap.get {} s.slots k
/-- Replace a job slot. -/
def State.setSlot (s : State) (k : Nat) (v : Slot) : State := { s with slots := SMap.set {} s.slots k v }
/-- Change a job slot. -/
def State.modSlot (s : State) (k : Nat) (f : Slot → Slot) : State := s.setSlot k (f (s.slot k))
/-- A DMA channel, by die code of R308 times 32 plus channel. -/
def State.chan (s : State) (i : Nat) : DmaChan := SMap.get {} s.dma i
/-- Replace a DMA channel. -/
def State.setChan (s : State) (i : Nat) (c : DmaChan) : State := { s with dma := SMap.set {} s.dma i c }

/-- The host address of a ring (R358). -/
def Ring.base (r : Ring) : Nat := r.baseHi * 2 ^ 32 + r.baseLo / 4096 * 4096
/-- The entries of a ring. -/
def Ring.size (r : Ring) : Nat := 2 ^ r.sizeLog2
/-- RUN (R358): enabled and not stopped. -/
def Ring.run (r : Ring) : Bool := r.en && !r.err
/-- Free entries of a completion or event ring (R359, R360). -/
def Ring.free (r : Ring) : Nat := r.size - (r.index - r.doorbell).toNat

/-- Raise a vector of a function (R361, R431): pending while its entry is masked. -/
def State.raise (s : State) (fn vec : Nat) : State :=
  let v := if fn = 0 then vec % 64 else vec % 4
  if (SMap.get 0#32 s.mail.msix (fn * 256 + v * 4 + 3)).getLsbD 0 then
    s.modMail (fun m => { m with irqs := m.irqs ++ [(fn, v)] })
  else if s.mail.msixPend.contains (fn, v) then s
  else s.modMail (fun m => { m with msixPend := m.msixPend ++ [(fn, v)] })

/-- The function that owns a ring's block (R362). -/
def State.ringFn (s : State) (r : Nat) : Nat :=
  let k := if r < 4 then r else if 5 ≤ r ∧ r ≤ 8 then r - 5 else 0
  if k ≠ 0 ∧ s.mail.vfs.contains k then k else 0

/-- Signal a record just written (R361). -/
def State.signal (s : State) (r : Nat) (urgent : Bool) : State :=
  let x := s.ring r
  if !x.ie then s
  else if urgent || decide (x.coal = 0) then (s.setRing r { x with unsig := none }).raise (s.ringFn r) x.vector
  else if x.unsig.isSome then s
  else s.setRing r { x with unsig := some s.timeUs }

/-- Write a record at a ring's next slot (R359, R364), the PHASE bit in bit 31 of its byte word `ph`. -/
def State.putRecord (s : State) (r ph : Nat) (rec' : List Byte) (urgent : Bool) : State :=
  let x := s.ring r
  let at' := x.base + x.index.toNat % x.size * rec'.length
  let phase := (x.index.toNat / x.size + 1) % 2
  let b3 := setFld (rec'.getD (ph + 3) 0#8).toNat 7 7 phase
  let bytes := rec'.set (ph + 3) (BitVec.ofNat 8 b3)
  ((s.modMail (fun m => { m with host := m.host.writeList at' bytes })).setRing r { x with index := x.index + 1#32 }).signal r
    urgent

/-- An event record in memory (R383); PHASE is added as the record is written. -/
def Event.bytes (e : Event) : List Byte :=
  leBytes 4 (e.code % 65536 + e.cls * 65536 + e.slot.getD 0 * 2 ^ 19 + b2n e.slot.isSome * 2 ^ 21 + b2n e.skip * 2 ^ 22 +
    b2n e.replay * 2 ^ 23) ++
  leBytes 4 e.step.toNat ++ leBytes 8 e.time ++ leBytes 4 e.source ++ leBytes 4 e.seq ++ leBytes 4 e.lost ++ leBytes 4 0 ++
  e.payload

/-- A field of a command (R363). -/
def Cmd.fieldAt (c : Cmd) (o n : Nat) : Nat := leNat ((c.bytes.drop o).take n)
/-- OPCODE. -/
def Cmd.opcode (c : Cmd) : Nat := c.fieldAt 0 2
/-- CMD_ID. -/
def Cmd.id (c : Cmd) : Nat := c.fieldAt 4 4
/-- UNIT_KIND. -/
def Cmd.unitKind (c : Cmd) : Nat := c.fieldAt 8 1
/-- UNIT_INDEX. -/
def Cmd.unitIndex (c : Cmd) : Nat := c.fieldAt 9 3

/-- A completion record (R364). -/
def Cmd.record (c : Cmd) (status detail result time : Nat) : List Byte :=
  leBytes 4 c.id ++ leBytes 4 status ++ leBytes 4 c.observed ++ leBytes 2 c.opcode ++ leBytes 2 detail ++ leBytes 8 result ++
  leBytes 4 time ++ leBytes 4 0

/-- Write the completion records that wait for a ring, while it runs and has room (R359, R360). -/
def State.flushRecords (s : State) (r : Nat) : (fuel : Nat) → State
  | 0 => s
  | n + 1 => match s.mail.done.find? (fun e => decide (e.1 = r)) with
    | some e =>
      if (s.ring r).run && decide (0 < (s.ring r).free) then
        ((s.modMail (fun m => { m with done := m.done.erase e })).putRecord r 4 e.2 false).flushRecords r n
      else s
    | none => s
/-- Complete a fetched command (R364, R365): its record goes to the matching completion ring; none is ever dropped (R360). -/
def State.complete (s : State) (c : Cmd) (status : Nat) (detail : Nat := 0) (result : Nat := 0) : State :=
  let s := s.modMail (fun m => { m with
    cmds := m.cmds.erase c, done := m.done ++ [(c.ring + 5, c.record status detail result s.timeUs)] })
  let s := s.count { id := Ctr.commandsDone }
  let s := if status = 1 then s.count { id := Ctr.stateMismatches } else s
  s.flushRecords (c.ring + 5) s.mail.done.length

/-- Complete every command of a ring that is in progress with a status (R365). -/
def State.completeActive (s : State) (r status : Nat) : State :=
  (s.mail.cmds.filter (fun c => decide (c.ring = r) && c.active)).foldl (fun s c => s.complete c status) s

/-- Abort every DMA channel granted to a slot (R324). -/
def State.abortSlotDma (s : State) (k cause : Nat) : State :=
  { s with dma := SMap.mapVals {} (fun _ c => if c.valid && decide (c.owner = k) then c.abort s.mem cause else c) s.dma }

/-- Whether a slot holds a job (R367, LOADED). -/
def SlotState.loaded : SlotState → Bool
  | .empty => false | .loading => false | .unloading => false | _ => true

/-- Halt a job slot (R183, R324): it keeps its last committed step, its channels abort, and its commands in progress complete
HALTED. A slot that stopped beyond the model stays so (R404). -/
def State.haltSlot (s : State) (k : Nat) : State :=
  (((s.modSlot k (fun x => { x with st := if x.st = .haltedBeyond then x.st else .halted, run := none })).abortSlotDma k 0x11).completeActive k 0x20)

/-- Stop a slot beyond the fault model (R3, R404): its RUN_STEPs complete BEYOND_MODEL and BEYOND_MODEL is posted. -/
def State.beyond (s : State) (k kind : Nat) (units : List Nat) : State :=
  let s := (((s.modSlot k (fun x => { x with st := .haltedBeyond, run := none })).abortSlotDma k 0x11).completeActive k 0x22)
  s.post 0x0703 .beyond (some k) (unitRef 8 k)
    (payload ((1, kind) :: (List.range 4).map (fun i => (4, units.getD i 0)) ++ [(4, (s.slot k).committed)]))

/-- A FAULT_ABSORBED event (R403). -/
def State.absorbed (s : State) (kind unit n lat step : Nat) : State :=
  s.post 0x0702 .absorbed none unit (payload [(1, kind), (1, 0), (2, 0), (4, unit), (4, n), (4, lat), (4, step)])

end Sys2Proof.Machine
end

