-- ==== Sys2Proof/Machine/Domains.lean ====
section
/-! DEFINITION. Power domains (R337 to R343): their keys and fields, the module's own rung, and exits that a request begins. -/

namespace Sys2Proof.Machine

/-- The key of a power domain: kind and index of R366, a core by its number. -/
def domKey (kind index : Nat) : Nat := kind * 65536 + index
/-- The kind of a die's domain by die number (R366). -/
def dieKind (d : Nat) : Nat := if d < 16 then 1 else if d < 20 then 2 else if d < 24 then 3 else 4
/-- The key of a die's domain. -/
def dieKey (d : Nat) : Nat := domKey (dieKind d) d
/-- A power domain. -/
def State.domain (s : State) (k : Nat) : Domain := SMap.get {} s.domains k
/-- Replace a power domain. -/
def State.setDomain (s : State) (k : Nat) (d : Domain) : State := { s with domains := SMap.set {} s.domains k d }

/-- Change a power domain. -/
def State.modDomain (s : State) (k : Nat) (f : Domain → Domain) : State := s.setDomain k (f (s.domain k))
/-- The module's domain. -/
def moduleKey : Nat := domKey 7 0
/-- The counter of entries into a rung (R356). -/
def rungCtr (r : Nat) : Nat :=
  [Ctr.rungEntriesGated, Ctr.rungEntriesDoze, Ctr.rungEntriesNap, Ctr.rungEntriesSleep, Ctr.rungEntriesDormant,
   Ctr.rungEntriesOff].getD (r - 1) 0
/-- The counter key of a domain. -/
def ckDom (id k : Nat) : CKey := { id := id, unit := some k }
/-- The module's rung is the shallowest of its dies' (R340), while no module command moves it. -/
def State.syncModule (s : State) : State :=
  let d := s.domain moduleKey
  let r := ((List.range 25).map (fun i => (s.domain (dieKey i)).rung)).foldl min 6
  if d.phase ≠ 0 ∨ d.commanded ∨ d.rung = r then s
  else
    let s := s.setDomain moduleKey { d with rung := r, target := r }
    if r = 1 then s.count (ckDom Ctr.rungEntriesGated moduleKey) else s

/-- The exit of a domain ends (R337): it is ACTIVE; a deeper command that waited begins its DRAIN (R342). -/
def State.exitDone (s : State) (k : Nat) : State :=
  s.modDomain k (fun d => match d.deeper with
    | some t => { d with rung := 0, target := t, phase := 1, deeper := none, commanded := true, reached := 0, lat := 0 }
    | none => { d with rung := 0, target := 0, phase := 0, commanded := false, reached := 0, lat := 0 })

/-- REFCLK_REQ rises when an exit from a rung that released it begins (R348). -/
def State.exitStart (s : State) (k : Nat) : State :=
  let s := if k = moduleKey then { s with boot := { s.boot with refReq := true } } else s
  s.modDomain k (fun d => { d with target := 0, phase := 3, qd := false })

/-- The key of an instance; the key of instance 4095 holds what every unlisted instance of the die is. -/
def arbKey (die inst : Nat) : Nat := die * 4096 + inst
/-- What every unlisted instance of a die is. -/
def State.arbBase (s : State) (die : Nat) : Arb := SMap.get {} s.arbs (arbKey die 4095)
/-- An arbiter instance. -/
def State.arb (s : State) (die inst : Nat) : Arb := SMap.get (s.arbBase die) s.arbs (arbKey die inst)
/-- Whether FREEZE is in force at an arbiter (R332): it makes no new decision. -/
def State.frozen (s : State) (die inst : Nat) : Bool := (s.arb die inst).freeze
/-- Whether a domain is ACTIVE and stays so. -/
def State.awake (s : State) (k : Nat) : Bool := decide ((s.domain k).rung = 0) && decide ((s.domain k).phase = 0)
/-- A request comes for a memory port or its die (R305, R339): from GATED it is ACTIVE at once, from a deeper rung its exit begins; a commanded
shutdown goes on (R342). -/
def State.rouse (s : State) (k : Nat) : State :=
  let d := s.domain k
  if d.phase ≠ 0 ∨ d.rung = 0 then s
  else if d.rung = 1 then (s.exitDone k).syncModule
  else s.exitStart k

end Sys2Proof.Machine
end

