-- ==== Sys2Proof/Machine/Mem.lean ====
section
/-! DEFINITION. Device memory (chapter 12): the interleave (R284, R285), checks (R296), stripes and combining buffers (R289), lost
granules (R287, R291, R293), classes and meters (R298 to R301). -/

namespace Sys2Proof.Machine

/-- Whether a port's granule of a row cannot be read there (R291, R292): the port is out of service, or the rebuild has not
reached the row. -/
def Mem.portLost (m : Mem) (g : Nat) : Bool :=
  let p := m.port (granPort g)
  decide (p.st = 1) || decide (p.st = 3) || (decide (p.st = 2) && decide (p.ptr ≤ granRow g))
/-- Whether a granule cannot be read directly. -/
def Mem.lost (m : Mem) (g : Nat) : Bool := m.portLost g || m.bad.contains g
/-- Whether a lost granule cannot be rebuilt from its stripe (R293). -/
def Mem.poisoned (m : Mem) (l : Loc) : Bool :=
  m.lost l.gran && ((stripeGrans l.grp l.row).any (fun g => g != l.gran && m.lost g))

/-- The buffered byte at an offset of a stripe's data, the last one written (R289). -/
def BufEntry.byte (e : BufEntry) (o : Nat) : Option Byte :=
  (e.pieces.reverse.find? (fun p => decide (p.1 ≤ o) && decide (o < p.1 + p.2.length))).map (fun p => p.2.getD (o - p.1) 0#8)
/-- The byte that a read of a place returns: the buffered byte, or the stored one (R289). -/
def Mem.byteAt (m : Mem) (l : Loc) : Byte :=
  match (m.buf l.grp).find? (fun e => decide (e.row = l.row)) with
  | some e => (e.byte (l.d * 256 + l.byte)).getD (m.dram.read (l.gran * 256 + l.byte))
  | none => m.dram.read (l.gran * 256 + l.byte)
/-- The byte at an offset of a partition. -/
def Mem.at (m : Mem) (part off : Nat) : Byte := m.byteAt (locate (m.part part) off)

/-- Bytes of device memory, unchecked: what Yucon firmware reads. -/
def State.devRead (s : State) (a n : Nat) : List Byte :=
  let p := devPart a
  (List.range n).map (fun i => s.mem.at p (devOff a + i))
/-- A little-endian value in device memory. -/
def State.devLE (s : State) (a n : Nat) : Nat := leNat (s.devRead a n)

/-- Change the memory system. -/
def State.modMem (s : State) (f : Mem → Mem) : State := { s with mem := f s.mem }
/-- The key of a port's counter (R306). -/
def ckPort (id p : Nat) : CKey := { id := id, unit := some p }
/-- The key of a die's counter; dies are numbered as R366. -/
def ckDie (id d : Nat) : CKey := { id := id, die := some d }
/-- Count one access on the ports of granules that are in service. -/
def State.countGrans (s : State) (id : Nat) (gs : List Nat) : State :=
  gs.foldl (fun s g => if s.mem.portLost g then s else s.count (ckPort id (granPort g))) s

/-- The data positions of a stripe that a buffered entry covers wholly, and partly. -/
def BufEntry.covers (e : BufEntry) (d : Nat) : Bool := (List.range 256).all (fun i => (e.byte (d * 256 + i)).isSome)
/-- Whether an entry covers its stripe (R289). -/
def BufEntry.whole (e : BufEntry) : Bool := (List.range 11).all e.covers

/-- Put an entry's bytes into the stored granules. -/
def storeEntry (m : Memory) (grp : Nat) (e : BufEntry) : Memory :=
  e.pieces.foldl (fun m p => p.2.zipIdx.foldl (fun m (v, i) =>
    let o := p.1 + i
    m.write (granNo (portAt grp e.row (o / 256)) (grp % 4) e.row * 256 + o % 256) v) m) m

/-- The accesses of one partial-stripe write at position `d` (R289, R291), as granules read and written: old data and old parity, then both anew;
with the granule's port out of service the other ten, and the parity too for what the write does not cover, then the parity; with the
parity's port out of service the data alone. -/
def Mem.partAccess (m : Mem) (grp row d : Nat) (whole : Bool) : List Nat × List Nat :=
  let own := granNo (portAt grp row d) (grp % 4) row
  let par := granNo (portAt grp row 11) (grp % 4) row
  let ten := ((stripeGrans grp row).filter (fun g => g != own && g != par))
  if m.portLost own then (ten ++ (if whole then [] else [par]), [par])
  else if m.portLost par then (if whole then [] else [own], [own])
  else ([own, par], [own, par])
/-- A memory request was answered: how, and with what data. -/
def State.answer (s : State) (k : RespKind) (bs : List Byte := []) : State :=
  { s with host := { s.host with resp := k, respData := bs } }
/-- The write responses that leave once the last of their bytes is out of the buffers (R289). -/
def State.respond (s : State) : State :=
  let (held, done) := s.mem.unanswered.partition (fun q => s.mem.buffered q.addr.toNat q.len)
  if done.isEmpty then s else ({ s with mem := { s.mem with unanswered := held } } : State).answer .ok

/-- An entry goes out (R289): a whole stripe as 12 granules, else one partial-stripe write for each granule it covers. A
granule written whole in a whole stripe can be read again. -/
def State.drainEntry (s : State) (grp : Nat) (e : BufEntry) : State :=
  let all := stripeGrans grp e.row
  let s := s.modMem (fun m => { m with dram := storeEntry m.dram grp e })
  if e.whole then
    ((s.modMem (fun m => { m with bad := m.bad.filter (fun g => !all.contains g) })).countGrans Ctr.memWrGranules all).respond
  else
    ((List.range 11).foldl (fun (s : State) d =>
      if e.touches d then
        let x := s.mem.partAccess grp e.row d (e.covers d)
        ((s.countGrans Ctr.memRdGranules x.1).countGrans Ctr.memWrGranules x.2).count (ckPort Ctr.memRmw (portAt grp e.row d))
      else s) s).respond

/-- Put one piece into a group's combining buffer (R289): it merges with its stripe; a whole stripe goes out at once, and the
oldest entry goes out when a 33rd stripe comes. -/
def State.bufferPiece (s : State) (grp row off : Nat) (bs : List Byte) : State :=
  let b := s.mem.buf grp
  let old := b.find? (fun e => decide (e.row = row))
  let e : BufEntry := { row := row, pieces := (old.map (fun e => e.pieces)).getD [] ++ [(off, bs)] }
  let rest := b.filter (fun e => !decide (e.row = row))
  let put (s : State) (b : List BufEntry) : State := s.modMem (fun m => { m with bufs := SMap.set [] m.bufs grp b })
  if e.whole then (put s rest).drainEntry grp e
  else if old.isSome then put s (b.map (fun x => if x.row = row then e else x))
  else match b with
    | [] => put s [e]
    | o :: t => if 32 ≤ b.length then (put s (t ++ [e])).drainEntry grp o else put s (b ++ [e])

/-- Write bytes at an offset of a partition, granule by granule in ascending order (R289). -/
def State.writeParts (s : State) (part off : Nat) : (fuel : Nat) → List Byte → State
  | 0, _ => s
  | _ + 1, [] => s
  | k + 1, b :: bs =>
    let l := locate (s.mem.part part) off
    let n := 256 - off % 256
    (s.bufferPiece l.grp l.row (l.d * 256 + l.byte) ((b :: bs).take n)).writeParts part (off + n) k ((b :: bs).drop n)
/-- Part of a run of rows (group, first, number, owner) outside [lo, hi). -/
def cutRows (lo hi : Nat) (e : Nat × Nat × Nat × Nat) : List (Nat × Nat × Nat × Nat) :=
  let (g, b, n, o) := e
  (if b < lo then [(g, b, min (b + n) lo - b, o)] else []) ++ (if hi < b + n then [(g, max b hi, b + n - max b hi, o)] else [])
/-- The rows of a partition are now held by its owner (R297). -/
def Mem.hold (m : Mem) (p : PartRec) : Mem :=
  let gs := groupsOf p.groups
  let rest := (m.owners.map (fun e =>
    if gs.contains e.1 then cutRows p.baseRow (p.baseRow + p.rows) e else [e])).flatten
  { m with owners := rest ++ gs.map (fun g => (g, p.baseRow, p.rows, p.owner)) }

/-- A write after a scrub: the rows are held by their owner again (R297). -/
def State.holdAgain (s : State) (k : Nat) : State :=
  if (s.mem.part k).clean then
    s.modMem (fun m => ({ m with parts := SMap.set {} m.parts k { m.part k with clean := false } }).hold (m.part k))
  else s
/-- Write bytes of device memory, unchecked: what Yucon firmware writes. -/
def State.devWrite (s : State) (a : Nat) (bs : List Byte) : State := (s.holdAgain (devPart a)).writeParts (devPart a) (devOff a) (bs.length + 1) bs

/-- Whether the requester may reach a partition (R296, R436): BAR2 reaches OWNER 6, or any with the debug grant's BAR2 scope. -/
def State.ownsPart (s : State) (who : Requester) (p : PartRec) : Bool :=
  match who with
  | .slot k => decide (p.owner = k.toNat)
  | .firmware => true
  | .driver k => decide (p.owner = k.toNat) || decide (p.owner = 6)
  | .bar2 => decide (p.owner = 6) || (s.host.granted && bitOf s.host.scopeG 0)

/-- Whether a memory die admits a request (R296). -/
def State.admits (s : State) (q : MemReq) : Bool :=
  let a := q.addr.toNat
  let p := s.mem.part (devPart a)
  isDev a && p.valid && decide (devOff a + q.len ≤ p.size) && s.ownsPart q.who p

/-- Count a refused request on the die that its first byte names (R296, R306). -/
def State.refuse (s : State) (q : MemReq) : State :=
  s.count (ckDie Ctr.memAccessRefused (16 + (locate (s.mem.part (devPart q.addr.toNat)) (devOff q.addr.toNat)).die))

/-- The places of the granules that a request touches. -/
def reqLocs (m : Mem) (a n : Nat) : List Loc :=
  (List.range ((devOff a + n + 255) / 256 - devOff a / 256)).map (fun i =>
    locate (m.part (devPart a)) (devOff a / 256 * 256 + i * 256))

/-- The class in force (R298, R301): a guest's COLL is BULK, a write's LC is COLL, and an LC read beyond its quota is BULK. -/
def classOf (who : Requester) (wr : Bool) (tc : BitVec 2) (overQuota : Bool) : Nat :=
  let guest := match who with
    | .slot k => decide (k ≠ 0#2)
    | .driver k => decide (k ≠ 0#2)
    | _ => false
  if tc = 2#2 then 2
  else if tc = 1#2 ∨ wr then (if guest then 2 else 1)
  else if overQuota then 2 else 0

/-- The LC bytes that a partition may read from a die in a window (R301). -/
def PartRec.lcBytes (p : PartRec) (die : Nat) : Nat :=
  p.lcQuota * 10000 * p.onDie die / (max 1 (groupsOf p.groups).length)
/-- The capacity of a partition's bucket on a die, in 1/64 tokens (R300). -/
def PartRec.bucketCap (p : PartRec) : Nat := p.bulkBurst * 4096 * 64
/-- The fill of one controller cycle in 1/64 tokens: BULK_RATE * n / G bytes per nanosecond at 1.333 GHz (R300). -/
def PartRec.bucketFill (p : PartRec) (die : Nat) : Nat := p.bulkRate * p.onDie die * 48 / (max 1 (groupsOf p.groups).length)

/-- What a request charges a die's bucket in tokens (R300): 256 a granule read, 280 a data granule of a whole stripe, 1,024 a
partial-stripe write. -/
def reqCharge (m : Mem) (a n : Nat) (wr : Bool) (die : Nat) : Nat :=
  let ls := (reqLocs m a n).filter (fun l => decide (l.die = die))
  if !wr then ls.length * 256
  else (ls.map (fun l =>
    let inside := ls.filter (fun x => decide (x.grp = l.grp) && decide (x.row = l.row))
    if inside.length = 11 ∧ n ≥ 2816 then 280 else 1024)).sum

/-- BULK traffic that a memory die serves for its own module's UPDATE (R298) takes its charge from the partition's buckets (R300); it is not held
back (log 97). -/
def State.chargeBulk (s : State) (a n : Nat) (wr : Bool) : State :=
  if (s.mem.part (devPart a)).bulkRate = 0 then s
  else s.modMem (fun m => { m with
    tokens := [0, 1, 2, 3].foldl (fun t d => SMap.modify 0 t (d * 8 + devPart a) (fun v => v - reqCharge m a n wr d * 64)) m.tokens })
/-- The first granule of a range that cannot be rebuilt (R293). -/
def State.firstPoison (s : State) (a n : Nat) : Option Loc := (reqLocs s.mem a n).find? s.mem.poisoned
/-- How a request fares before it moves data. -/
inductive Admit where
  | refused | waits (s : State) | go (s : State)
/-- The power domains that a request needs (R305, R339): the dies of its granules, and their ports and, for a write, the parity's. -/
def reqDomains (m : Mem) (a n : Nat) (wr : Bool) : List Nat :=
  ((reqLocs m a n).flatMap (fun l => [dieKey (16 + l.die), domKey 5 (granPort l.gran)] ++
    (if wr then [domKey 5 (portAt l.grp l.row 11)] else []))).eraseDups

/-- Admit a request (R296, R298, R300, R301, R305): refused, held back by a port's exit, a
frozen scheduler (R332) or a BULK bucket, or charged and
let through. A request of more than a full bucket goes when the bucket is full (log 97). -/
def State.letIn (s : State) (q : MemReq) (wr : Bool) : Admit :=
  if !s.admits q then .refused
  else
    let a := q.addr.toNat
    let doms := reqDomains s.mem a q.len wr
    let s := doms.foldl State.rouse s
    if !doms.all s.awake || (reqLocs s.mem a q.len).any (fun l => s.frozen (16 + l.die) (granPort l.gran % 12)) then .waits s
    else
    let k := devPart a
    let p := s.mem.part k
    let dies := [0, 1, 2, 3]
    let bytes (d : Nat) : Nat := ((reqLocs s.mem a q.len).filter (fun l => decide (l.die = d))).length * 256
    let beyond := dies.find? (fun d => decide (0 < bytes d) && decide (p.lcBytes d < SMap.get 0 s.mem.lcUsed (d * 8 + k) + bytes d))
    let cls := classOf q.who wr q.tc beyond.isSome
    let demoted := s.count { id := Ctr.lcDemoted, die := some (16 + beyond.getD 0), unit := some k }
    let lc := !wr && decide (q.tc = 0#2)
    if cls = 2 ∧ p.bulkRate ≠ 0 then
      if dies.all (fun d => decide (min p.bucketCap (reqCharge s.mem a q.len wr d * 64) ≤ SMap.get 0 s.mem.tokens (d * 8 + k))) then
        let s := if lc then demoted else s
        .go (s.modMem (fun m => { m with
          tokens := dies.foldl (fun t d => SMap.modify 0 t (d * 8 + k) (fun v => v - reqCharge m a q.len wr d * 64)) m.tokens }))
      else .waits s
    else if cls = 0 then
      .go (s.modMem (fun m => { m with
        lcUsed := dies.foldl (fun t d => SMap.modify 0 t (d * 8 + k) (fun v => v + bytes d)) m.lcUsed }))
    else if lc then .go demoted
    else .go s

/-- Stop every loaded slot whose partition holds a group of a die, beyond the model (R293). -/
def State.beyondDie (s : State) (die : Nat) (units : List Nat) : State :=
  (List.range 4).foldl (fun s k =>
    if (s.slot k).st.loaded && decide (0 < (s.mem.part (s.slot k).part).onDie die) then s.beyond k 0x02 units else s) s

/-- A granule that cannot be rebuilt was read (R293): ECC_POISON, and the slots of its die stop. -/
def State.poisonHit (s : State) (l : Loc) : State :=
  (s.count (ckPort Ctr.eccPoison (granPort l.gran))).beyondDie l.die [unitRef 10 (granPort l.gran)]

/-- Move a granule to a spare slot (R287): without a free spare it stays, and MEM_REMAP_FULL is posted once for the channel. -/
def State.remap (s : State) (g : Nat) : State :=
  let ch := g / 2 ^ 25
  let used := (s.mem.remaps.filter (fun x => decide (x / 2 ^ 25 = ch))).length
  if s.mem.remaps.contains g then s.count (ckPort Ctr.memRemap (granPort g))
  else if used < sparesOf (s.mem.port (granPort g)).density then
    (s.modMem (fun m => { m with remaps := m.remaps ++ [g] })).count (ckPort Ctr.memRemap (granPort g))
  else if s.mem.full.contains ch then s
  else (s.modMem (fun m => { m with full := m.full ++ [ch] })).post 0x0505 .absorbed none (unitRef 10 (granPort g))
    (payload [(1, granPort g), (1, granCh g)])

/-- A granule that the check bytes cannot correct (R287, R293): it is rebuilt from its stripe and remapped, or it is lost. -/
def State.uncorrectable (s : State) (l : Loc) : State :=
  let m := { s.mem with bad := if s.mem.bad.contains l.gran then s.mem.bad else s.mem.bad ++ [l.gran] }
  if m.poisoned l then { s with mem := m }
  else
    (({ s with mem := { m with bad := m.bad.erase l.gran } }).count (ckPort Ctr.eccReconstructed (granPort l.gran))).remap l.gran

/-- Whether the check bytes cannot correct a granule (R287): a codeword has more than 4 symbols in error. -/
def eccFails (a b : Nat) : Bool := decide (4 < a) || decide (4 < b)
/-- Apply what ECC finds on the granules of a read (R287, R306). -/
def State.applyEcc (s : State) (ls : List Loc) (ecc : List (Nat × EccFind)) : State :=
  ecc.foldl (fun s e =>
    match ls[e.1]? with
    | none => s
    | some l => match e.2 with
      | .link => s.count (ckPort Ctr.memLinkEcc (granPort l.gran))
      | .symbols a b =>
        if eccFails a b then s.uncorrectable l else if 0 < a + b then s.count (ckPort Ctr.eccCorrected (granPort l.gran)) else s) s

/-- What a memory read answers (R287, R293, R296). -/
inductive MemAns where
  | refused | waits | poison (at' : Nat) | ok (bs : List Byte)
  deriving DecidableEq, Repr

/-- Count the accesses of a read (R291, R306): a granule on a port out of service costs its stripe's eleven others. -/
def State.countRead (s : State) (ls : List Loc) : State :=
  ls.foldl (fun s l =>
    if s.mem.portLost l.gran then s.countGrans Ctr.memRdGranules ((stripeGrans l.grp l.row).filter (fun g => g != l.gran))
    else s.countGrans Ctr.memRdGranules [l.gran]) s

/-- Serve a read that has been admitted. -/
def State.serveRead (s : State) (q : MemReq) : State × MemAns :=
  let ls := reqLocs s.mem q.addr.toNat q.len
  let s := s.countRead ls
  match ls.find? s.mem.poisoned with
  | some l => (s.poisonHit l, .poison ((ls.idxOf l) * 256 - devOff q.addr.toNat % 256))
  | none =>
    let back := ls.filter (fun l => s.mem.bad.contains l.gran && !s.mem.portLost l.gran)
    (back.foldl (fun s l => s.uncorrectable l) s, .ok (s.devRead q.addr.toNat q.len))

/-- A memory read (R287, R296, R300, R301). -/
def State.memRead (s : State) (q : MemReq) : State × MemAns :=
  match s.letIn q false with
  | .refused => (s.refuse q, .refused)
  | .waits s => (s, .waits)
  | .go s => s.serveRead q

/-- One granule's read, add and write as one access sequence under its stripe's lock (R289, R314): what the combining buffer holds of the stripe goes
out first, and `f` makes the granule's new bytes of its old ones. -/
def State.memAdd (s : State) (q : MemReq) (f : List Byte → List Byte) : State × MemAns :=
  match s.letIn q true with
  | .refused => (s.refuse q, .refused)
  | .waits s => (s, .waits)
  | .go s =>
    let a := q.addr.toNat
    let l := locate (s.mem.part (devPart a)) (devOff a)
    let s := match (s.mem.buf l.grp).find? (fun e => decide (e.row = l.row)) with
      | some e => (s.modMem (fun m => { m with bufs := SMap.modify [] m.bufs l.grp (fun b => b.erase e) })).drainEntry l.grp e
      | none => s
    if s.mem.poisoned l then (s.poisonHit l, .poison 0)
    else
      let new := f (s.devRead a 256)
      let x := s.mem.partAccess l.grp l.row l.d true
      let s := if s.mem.portLost l.gran then s.countGrans Ctr.memRdGranules [granNo (portAt l.grp l.row 11) (l.grp % 4) l.row] else s
      let s := ((s.countGrans Ctr.memRdGranules x.1).countGrans Ctr.memWrGranules x.2).count (ckPort Ctr.memRmw (granPort l.gran))
      let s := if s.mem.portLost (granNo (portAt l.grp l.row 11) (l.grp % 4) l.row) then s.countGrans Ctr.memRdGranules [l.gran] else s
      ((s.holdAgain (devPart a)).modMem (fun m => { m with dram := storeEntry m.dram l.grp { row := l.row, pieces := [(l.d * 256, new)] } }), .ok new)

/-- A memory write (R289, R296, R300): whether it was taken, refused, or waits. -/
def State.memWrite (s : State) (q : MemReq) (bs : List Byte) : State × MemAns :=
  match s.letIn q true with
  | .refused => (s.refuse q, .refused)
  | .waits s => (s, .waits)
  | .go s => (s.devWrite q.addr.toNat bs, .ok [])

end Sys2Proof.Machine
end

