-- ==== Sys2Proof/Machine/Fp.lean ====
section
/-! DEFINITION. The floating-point arithmetic of R48 to R51 and R134 to R137: exact values, one rounding to nearest-even,
canonical NaNs, subnormals kept. -/

namespace Sys2Proof
namespace Fp

/-- FP8 E4M3 (R48). -/
def e4m3 : Fmt := { ew := 4, mw := 3, bias := 7, maxFin := 0x7E, hasInf := false }
/-- FP8 E5M2 (R48). -/
def e5m2 : Fmt := { ew := 5, mw := 2, bias := 15, maxFin := 0x7B }
/-- FP16 (R48). -/
def fp16 : Fmt := { ew := 5, mw := 10, bias := 15, maxFin := 0x7BFF }
/-- BF16 (R48). -/
def bf16 : Fmt := { ew := 8, mw := 7, bias := 127, maxFin := 0x7F7F }
/-- F19 (R48): exponent 0 means zero. -/
def f19 : Fmt := { ew := 8, mw := 10, bias := 127, maxFin := 0x3FBFF, subnormals := false }
/-- FP32 (R48). -/
def fp32 : Fmt := { ew := 8, mw := 23, bias := 127, maxFin := 0x7F7FFFFF }
/-- FP64, used only for the sums of R105. -/
def fp64 : Fmt := { ew := 11, mw := 52, bias := 1023, maxFin := 0x7FEFFFFFFFFFFFFF }

/-- The sign bit's weight. -/
def signBit (f : Fmt) : Nat := 2 ^ (f.ew + f.mw)
/-- The canonical quiet NaN, sign 0 (R49). -/
def nanBits (f : Fmt) : Nat :=
  if f.hasInf then (2 ^ f.ew - 1) * 2 ^ f.mw + 2 ^ (f.mw - 1) else f.maxFin + 1
/-- The pattern of +Inf. -/
def infBits (f : Fmt) : Nat := (2 ^ f.ew - 1) * 2 ^ f.mw

/-- The exact value of a bit pattern (R48). -/
def unpack (f : Fmt) (b : Nat) : FpVal :=
  let neg := decide (b / signBit f % 2 = 1)
  let ex := b / 2 ^ f.mw % 2 ^ f.ew
  let m := b % 2 ^ f.mw
  if f.hasInf && ex == 2 ^ f.ew - 1 then (if m == 0 then .inf neg else .nan)
  else if !f.hasInf && b % signBit f == signBit f - 1 then .nan
  else if ex == 0 then
    (if f.subnormals then .fin neg m (1 - (f.bias : Int) - f.mw) else .fin neg 0 0)
  else .fin neg (m + 2 ^ f.mw) ((ex : Int) - f.bias - f.mw)

/-- The floor of log2 of the positive quotient n/d. -/
def log2Frac (n d : Nat) : Int :=
  let e : Int := (Nat.log2 n : Int) - Nat.log2 d
  if (if 0 ≤ e then decide (n < d * 2 ^ e.toNat) else decide (n * 2 ^ (-e).toNat < d)) then e - 1 else e

/-- n / d rounded to an integer, to nearest, ties to even. -/
def divRne (n d : Nat) : Nat :=
  let q := n / d
  let r := n % d
  if d < 2 * r || (2 * r == d && q % 2 == 1) then q + 1 else q

/-- The magnitude pattern of the positive quotient n/d rounded to nearest-even on the format's grid, with the exponent range
extended upward (R50): a result above `maxFin` is an overflow. -/
def roundMag (f : Fmt) (n d : Nat) : Nat :=
  if n = 0 then 0
  else
    let e := max (log2Frac n d) (1 - (f.bias : Int))
    let u := e - f.mw
    let q := if 0 ≤ u then divRne n (d * 2 ^ u.toNat) else divRne (n * 2 ^ (-u).toNat) d
    (e + f.bias - 1).toNat * 2 ^ f.mw + q

/-- Put the sign in front of a magnitude pattern. -/
def withSign (f : Fmt) (neg : Bool) (mag : Nat) : Nat := if neg then signBit f + mag else mag

/-- A quotient with a sign, rounded into the format; overflow gives an infinity (NaN where the format has none). -/
def roundQ (f : Fmt) (neg : Bool) (n d : Nat) : Nat :=
  let mag := roundMag f n d
  if f.maxFin < mag then (if f.hasInf then withSign f neg (infBits f) else nanBits f) else withSign f neg mag

/-- An exact value rounded into the format (R50, R51). -/
def pack (f : Fmt) : FpVal → Nat
  | .nan => nanBits f
  | .inf neg => if f.hasInf then withSign f neg (infBits f) else nanBits f
  | .fin neg m e => if 0 ≤ e then roundQ f neg (m * 2 ^ e.toNat) 1 else roundQ f neg m (2 ^ (-e).toNat)

/-- The exact value of an FP32 pattern. -/
def val (x : Word) : FpVal := unpack fp32 x.toNat
/-- An exact value rounded to FP32. -/
def toF32 (v : FpVal) : Word := BitVec.ofNat 32 (pack fp32 v)
/-- The canonical FP32 NaN (R49). -/
def qnan : Word := 0x7FC00000#32

/-- The negated value. -/
def neg : FpVal → FpVal
  | .nan => .nan
  | .inf s => .inf (!s)
  | .fin s m e => .fin (!s) m e

/-- The magnitude. -/
def abs : FpVal → FpVal
  | .nan => .nan
  | .inf _ => .inf false
  | .fin _ m e => .fin false m e

/-- The signed integer that a finite value is at the exponent `e0`, which is at most its own. -/
def alignTo (s : Bool) (m : Nat) (e e0 : Int) : Int :=
  let v : Int := (m * 2 ^ (e - e0).toNat : Nat)
  if s then -v else v

/-- The exact sum, with the sign rules of round-to-nearest for a zero sum (R51). -/
def add : FpVal → FpVal → FpVal
  | .nan, _ => .nan
  | _, .nan => .nan
  | .inf s, .inf t => if s = t then .inf s else .nan
  | .inf s, .fin _ _ _ => .inf s
  | .fin _ _ _, .inf t => .inf t
  | .fin s m e, .fin t n g =>
    let e0 := min e g
    let x := alignTo s m e e0 + alignTo t n g e0
    if x = 0 then .fin (s && t && m == 0 && n == 0) 0 0
    else .fin (decide (x < 0)) x.natAbs e0

/-- The exact product. -/
def mul : FpVal → FpVal → FpVal
  | .nan, _ => .nan
  | _, .nan => .nan
  | .inf s, .inf t => .inf (xor s t)
  | .inf s, .fin t n _ => if n = 0 then .nan else .inf (xor s t)
  | .fin s m _, .inf t => if m = 0 then .nan else .inf (xor s t)
  | .fin s m e, .fin t n g => .fin (xor s t) (m * n) (e + g)

/-- -1, 0 or 1 as the first value lies below, at or above the second; NaN compares as neither. -/
def cmp : FpVal → FpVal → Option Int
  | .nan, _ => none
  | _, .nan => none
  | .inf s, .inf t => some (if s = t then 0 else if s then -1 else 1)
  | .inf s, .fin _ _ _ => some (if s then -1 else 1)
  | .fin _ _ _, .inf t => some (if t then 1 else -1)
  | .fin s m e, .fin t n g =>
    let e0 := min e g
    let x := alignTo s m e e0 - alignTo t n g e0
    some (if x < 0 then -1 else if x = 0 then 0 else 1)

/-- add_rne (R47, R51). -/
def addRne (a b : Word) : Word := toF32 (add (val a) (val b))
/-- sub_rne. -/
def subRne (a b : Word) : Word := toF32 (add (val a) (neg (val b)))
/-- mul_rne. -/
def mulRne (a b : Word) : Word := toF32 (mul (val a) (val b))
/-- a * b + c rounded once (R136). -/
def fma (a b c : Word) : Word := toF32 (add (mul (val a) (val b)) (val c))

/-- Whether a pattern is a NaN. -/
def isNan (a : Word) : Bool := val a = .nan
/-- Whether a pattern is infinite or NaN. -/
def isNonFinite (a : Word) : Bool := decide (a.toNat / 2 ^ 23 % 2 ^ 8 = 255)
/-- Whether a pattern is +0 or -0. -/
def isZero (a : Word) : Bool := decide (a.toNat % 2 ^ 31 = 0)
/-- Whether a pattern is a finite normal value, not zero (R55, R58). -/
def isNormal (a : Word) : Bool :=
  decide (0 < a.toNat / 2 ^ 23 % 2 ^ 8) && decide (a.toNat / 2 ^ 23 % 2 ^ 8 < 255)

/-- The order that FMIN and FMAX use: -0.0 below +0.0 (R136). -/
def ltOrd (a b : Word) : Bool :=
  match cmp (val a) (val b) with
  | some c => decide (c < 0) || (decide (c = 0) && a.msb && !b.msb)
  | none => false

/-- FMIN (R136). -/
def fmin (a b : Word) : Word := if isNan a || isNan b then qnan else if ltOrd b a then b else a
/-- FMAX (R136). -/
def fmax (a b : Word) : Word := if isNan a || isNan b then qnan else if ltOrd a b then b else a
/-- FABS (R136). -/
def fabs (a : Word) : Word := if isNan a then qnan else a &&& 0x7FFFFFFF#32
/-- FNEG (R136). -/
def fneg (a : Word) : Word := if isNan a then qnan else a ^^^ 0x80000000#32
/-- A compare's mask (R134). -/
def mask (b : Bool) : Word := if b then 0xFFFFFFFF#32 else 0#32
/-- FCMPEQ, FCMPLT and FCMPLE test the comparison with these (R136). -/
def feq (a b : Word) : Bool := cmp (val a) (val b) = some 0
/-- a < b. -/
def flt (a b : Word) : Bool := cmp (val a) (val b) = some (-1)
/-- a ≤ b. -/
def fle (a b : Word) : Bool := feq a b || flt a b

/-- The integer square root of n by bits, from bit k down. -/
def isqrtBits (n : Nat) : Nat → Nat → Nat
  | 0, r => if (r + 1) * (r + 1) ≤ n then r + 1 else r
  | k + 1, r =>
    let r' := r + 2 ^ (k + 1)
    isqrtBits n k (if r' * r' ≤ n then r' else r)

/-- The square root of a finite value rounded to nearest-even (R143 NORM): a root with 64 spare bits and a sticky bit. -/
def sqrtF32 (a : Word) : Word :=
  match val a with
  | .nan => qnan
  | .inf s => if s then qnan else a
  | .fin s m e =>
    if m = 0 then a
    else if s then qnan
    else
      let odd := decide (e % 2 = 1)
      let m1 := if odd then 2 * m else m
      let e1 := if odd then e - 1 else e
      let n := m1 * 2 ^ 64
      let r := isqrtBits n 48 0
      let sticky := if r * r = n then 0 else 1
      toF32 (.fin false (2 * r + sticky) ((e1 - 64) / 2 - 1))

/-- FP32 to a narrower format with the overflow result `ov` and a saturation count (R50, R53): the pattern, and whether the
element counts in WIDE_NARROW_SAT. -/
def narrow (f : Fmt) (sat : Bool) (a : Word) : Nat × Bool :=
  match val a with
  | .nan => (nanBits f, false)
  | .inf s => if sat then (withSign f s f.maxFin, true) else (pack f (.inf s), false)
  | .fin s m e =>
    let mag := if 0 ≤ e then roundMag f (m * 2 ^ e.toNat) 1 else roundMag f m (2 ^ (-e).toNat)
    if f.maxFin < mag then
      (if sat then (withSign f s f.maxFin, true) else (pack f (.inf s), f == bf16 || f == fp16))
    else (withSign f s mag, false)

/-- A narrower format's pattern as FP32, exactly (R50). -/
def widen (f : Fmt) (b : Nat) : Word := toF32 (unpack f b)

/-- BF16 to FP32: 16 zero bits appended, a NaN canonical (R47, R50). -/
def ofBf16 (h : Half) : Word := widen bf16 h.toNat

/-- FP32 to F19 (R50): the value as FP32 bits would hold it, and whether the element counts in F19_FLUSH. -/
def toF19 (x : Word) (rnd : Bool) : BitVec 19 × Bool :=
  let s := x.toNat / 2 ^ 31
  let e := x.toNat / 2 ^ 23 % 2 ^ 8
  let m := x.toNat % 2 ^ 23
  if e = 255 then (if m ≠ 0 then (0x3FE00#19, false) else (BitVec.ofNat 19 (s * 2 ^ 18 + 255 * 2 ^ 10), false))
  else if e = 0 then (BitVec.ofNat 19 (s * 2 ^ 18), decide (m ≠ 0))
  else
    let m10 := m / 2 ^ 13
    let rest := m % 2 ^ 13
    let up := rnd && (decide (0x1000 < rest) || (decide (rest = 0x1000) && decide (m10 % 2 = 1)))
    (BitVec.ofNat 19 (s * 2 ^ 18 + (e * 2 ^ 10 + m10 + (if up then 1 else 0))), false)

/-- F19 to FP32, exactly. -/
def ofF19 (h : BitVec 19) : Word := widen f19 h.toNat

/-- CVT_F32_I32 (R137): the integer, whether it was clamped, whether a NaN became 0. -/
def toI32 (a : Word) : Word × Bool × Bool :=
  match val a with
  | .nan => (0#32, false, true)
  | .inf s => (if s then 0x80000000#32 else 0x7FFFFFFF#32, true, false)
  | .fin s m e =>
    let mag := if 0 ≤ e then m * 2 ^ e.toNat else divRne m (2 ^ (-e).toNat)
    if s then (if 2 ^ 31 < mag then (0x80000000#32, true, false) else (BitVec.ofInt 32 (-(mag : Int)), false, false))
    else if 2 ^ 31 - 1 < mag then (0x7FFFFFFF#32, true, false)
    else (BitVec.ofNat 32 mag, false, false)

/-- CVT_I32_F32 (R134). -/
def ofI32 (a : Word) : Word := toF32 (.fin a.msb a.toInt.natAbs 0)

/-- An exact integer as FP32 (R115). -/
def ofInt (n : Int) : Word := toF32 (.fin (decide (n < 0)) n.natAbs 0)

end Fp

namespace Frac

/-- The exact value of a finite pattern; 0 for the others. -/
def ofVal : FpVal → Frac
  | .fin s m e =>
    let n : Int := if 0 ≤ e then (m * 2 ^ e.toNat : Nat) else m
    { num := if s then -n else n, den := if 0 ≤ e then 1 else 2 ^ (-e).toNat }
  | _ => { num := 0, den := 1 }

/-- The exact value of a finite FP32 pattern. -/
def ofF32 (x : Word) : Frac := Frac.ofVal (Fp.val x)
/-- An integer. -/
def ofInt (n : Int) : Frac := { num := n, den := 1 }
/-- The exact sum; a common denominator is kept where one divides the other. -/
def add (a b : Frac) : Frac :=
  if a.den % b.den = 0 then { num := a.num + b.num * (a.den / b.den : Nat), den := a.den }
  else if b.den % a.den = 0 then { num := a.num * (b.den / a.den : Nat) + b.num, den := b.den }
  else { num := a.num * b.den + b.num * a.den, den := a.den * b.den }
/-- The negation. -/
def neg (a : Frac) : Frac := { a with num := -a.num }
/-- The exact difference. -/
def sub (a b : Frac) : Frac := Frac.add a (Frac.neg b)
/-- The exact product. -/
def mul (a b : Frac) : Frac := { num := a.num * b.num, den := a.den * b.den }
/-- The exact quotient; 0 by a zero divisor, which no rule forms. -/
def div (a b : Frac) : Frac :=
  if b.num = 0 then { num := 0, den := 1 }
  else { num := if b.num < 0 then -(a.num * b.den) else a.num * b.den, den := a.den * b.num.natAbs }
/-- The magnitude. -/
def abs (a : Frac) : Frac := { a with num := a.num.natAbs }
/-- a < b, exactly. -/
def lt (a b : Frac) : Bool := decide (a.num * b.den < b.num * a.den)
/-- a ≤ b, exactly. -/
def le (a b : Frac) : Bool := decide (a.num * b.den ≤ b.num * a.den)
/-- Rounded once to a format's pattern (R59 rnd32, R65 bf16_rne); a zero quotient is +0. -/
def round (f : Fmt) (a : Frac) : Nat := if a.num = 0 then 0 else Fp.roundQ f (decide (a.num < 0)) a.num.natAbs a.den
/-- Rounded to the nearest integer, ties to even. -/
def rne (a : Frac) : Int :=
  let q : Int := Fp.divRne a.num.natAbs a.den
  if a.num < 0 then -q else q
/-- The sum of a list. -/
def sum (l : List Frac) : Frac := l.foldl Frac.add { num := 0, den := 1 }

end Frac
end Sys2Proof
end

