-- ==== Sys2Proof/Machine/Coding.lean ====
section
/-! DEFINITION. Codings of chapter 2: tensor descriptors (R32, R33), code levels (R34, R35), block words and kites
(R38 to R46, R456, R457) and the decode of R47. -/

namespace Sys2Proof

/-- A tensor descriptor (R32) as its 64 bytes spell it. `rsv` holds the reserved bits. -/
structure TDesc where
  codes : Nat
  blockw : Nat
  kite : Nat
  kiteDir : Nat
  g : Word
  kiteWords : Nat
  rows : Nat
  cols : Nat
  fmt : Nat
  planeLimit : Nat
  rotN : Nat
  column : Bool
  rsv : Nat
  seqBase : Nat
  version : Nat
  planeStride : Nat
  layer : Nat
  axis : Nat
  deriving DecidableEq, Repr

/-- What a block word and its streams make of a block (R38, R39). -/
inductive BlkKind where
  | zero | const | fallback | nonfinite | normal
  deriving DecidableEq, Repr

/-- One block ready for a product or a decode: `kites` pairs an element index with its BF16 value, `vals` are the 32 BF16
values of a fall-back block, `value` the BF16 value of a constant block. -/
structure Blk where
  kind : BlkKind
  e : Nat := 0
  m : Nat := 0
  zp : Nat := 0
  p : Nat := 1
  planes : List (List Nat) := []
  kites : List (Nat × Half) := []
  value : Half := 0#16
  vals : List Half := []
  deriving DecidableEq, Repr

/-- A tile read by address (R457): its 128 blocks, the sequence numbers to report as malformed, whether kite words were
left over, and the blocks whose kite SEQ disagreed or whose kite words were missing (R83). -/
structure TileRd where
  blks : List Blk
  malformed : List Nat
  surplus : Bool
  unresolved : List Nat
  deriving DecidableEq, Repr

namespace Coding

/-- FORMAT values (R32). -/
def fmtB4 : Nat := 0x01
/-- U4. -/
def fmtU4 : Nat := 0x02
/-- S4 plane tensor. -/
def fmtS4 : Nat := 0x03
/-- Whether a FORMAT is one of the wide formats 0x10 to 0x14. -/
def isWide (f : Nat) : Bool := decide (0x10 ≤ f) && decide (f ≤ 0x14)
/-- Whether a FORMAT is one of the 4-bit codings. -/
def is4bit (f : Nat) : Bool := f == fmtB4 || f == fmtU4 || f == fmtS4

/-- Read a descriptor from its 64 bytes (R32). -/
def parseDesc (b : List Byte) : TDesc :=
  let rd := rdList b
  let w30 := rdLE rd 0x31 1
  let w3c := rdLE rd 0x3C 4
  { codes := rdLE rd 0 8, blockw := rdLE rd 8 8, kite := rdLE rd 0x10 8, kiteDir := rdLE rd 0x18 8,
    g := BitVec.ofNat 32 (rdLE rd 0x20 4), kiteWords := rdLE rd 0x24 4, rows := rdLE rd 0x28 4, cols := rdLE rd 0x2C 4,
    fmt := rdLE rd 0x30 1, planeLimit := fld w30 1 0, rotN := fld w30 4 2, column := bitOf w30 5,
    rsv := fld w30 7 6 + fld w3c 31 18, seqBase := rdLE rd 0x32 2, version := rdLE rd 0x34 4,
    planeStride := rdLE rd 0x38 4, layer := fld w3c 15 0, axis := fld w3c 17 16 }

/-- Whether a consumer accepts the descriptor (R33). -/
def validDesc (d : TDesc) : Bool :=
  (is4bit d.fmt || isWide d.fmt) && decide (d.rotN ≤ 4) && decide (d.axis ≤ 2) && decide (d.rsv = 0) &&
  decide (0 < d.rows) && decide (d.rows % 64 = 0) && decide (0 < d.cols) && decide (d.cols % 64 = 0) &&
  decide (d.codes % 256 = 0) &&
  (isWide d.fmt || (decide (d.blockw % 256 = 0) && decide (d.kite % 256 = 0) && decide (d.kiteDir % 256 = 0))) &&
  Fp.isNormal d.g &&
  (d.fmt == fmtS4 || decide (d.planeLimit = 0)) &&
  (!(d.fmt == fmtU4) || decide (d.rotN = 0)) &&
  (!(d.fmt == fmtS4 && decide (0 < d.planeLimit)) || decide (d.rows * d.cols / 2 ≤ d.planeStride * 256))

/-- The tiles of one tile row (R27). -/
def tileCols (d : TDesc) : Nat := d.cols / 64
/-- The tiles of the tensor. -/
def tileCount (d : TDesc) : Nat := d.rows / 64 * tileCols d
/-- The block sequence number of ordinal `o` (R29). -/
def blockSeq (d : TDesc) (o : Nat) : Nat := (d.seqBase + o) % 65536

/-- B4 level magnitudes by index (R34). -/
def b4Mag (i : Nat) : Nat := [0, 1, 2, 3, 5, 7, 10, 14].getD i 0

/-- The level of a code (R34, R47). -/
def level (fmt c zp : Nat) : Int :=
  if fmt = fmtU4 then (c : Int) - zp
  else
    let mag : Int := if fmt = fmtB4 then b4Mag (c % 8) else (c % 8 : Nat)
    if 8 ≤ c then -mag else mag

/-- Whether a code is the escape code of its format (R34). -/
def isEscape (fmt c : Nat) : Bool := !(fmt == fmtU4) && c == 8

/-- The 5-bit multiplier operand (R34): an escape code is operand 0. -/
def operand (fmt c zp : Nat) : Int := if isEscape fmt c then 0 else level fmt c zp

/-- The code of a level of B4 or S4 given its magnitude index and sign; level 0 is 0b0000 (R35). -/
def signMag (neg : Bool) (idx : Nat) : Nat := if idx = 0 then 0 else if neg then 8 + idx else idx

/-- The block scale (1 + M/8) * 2^(E - 127) exactly (R38). -/
def scaleVal (e : Int) (m : Nat) : FpVal := .fin false (8 + m) (e - 130)

/-- The 32 codes of the 16 bytes at `a` (R28). -/
def codesAt (rd : Nat → Byte) (a : Nat) : List Nat :=
  (List.range 32).map (fun i => (rd (a + i / 2)).toNat / (if i % 2 = 0 then 1 else 16) % 16)

/-- The number of escape codes of a plane. -/
def escapes (fmt : Nat) (codes : List Nat) : Nat := (codes.filter (isEscape fmt)).length

/-- The kite words that a block takes from its stream (R456). -/
def kiteCount (fmt bw : Nat) (plane1 : List Nat) : Nat :=
  let e := fld bw 15 8
  let m := fld bw 7 5
  if e = 0 then (if m = 1 then 1 else if m = 2 then 17 else 0)
  else if e = 255 then 0
  else if bitOf bw 0 && !(fmt == fmtU4) then escapes fmt plane1
  else 0

/-- The indices of the escape codes of a plane, ascending. -/
def escapeIdx (fmt : Nat) (codes : List Nat) : List Nat :=
  (List.range 32).filter (fun i => isEscape fmt (codes.getD i 0))

/-- Whether a block is malformed (R46), given the planes as stored and exactly the kite words R456 calls for. -/
def malformed (fmt planeLimit bw : Nat) (planes : List (List Nat)) (kites : List Nat) : Bool :=
  let e := fld bw 15 8
  let m := fld bw 7 5
  let f := fld bw 4 1
  let k := bitOf bw 0
  let kite0 := kites.getD 0 0
  if e = 255 then true
  else if e = 0 then
    decide (4 ≤ m) || decide (f ≠ 0) || (k != (m == 1 || m == 2)) ||
    (m == 1 && (fld kite0 31 30 != 1 || fld kite0 29 25 != 0)) ||
    (m == 2 && (fld kite0 31 30 != 2 || fld kite0 29 25 != 0 || fld kite0 15 0 != 16))
  else
    let p1 := planes.getD 0 []
    let esc := escapeIdx fmt p1
    let n := esc.length
    let rest := (planes.take (f + 1)).drop 1
    (fmt == fmtB4 && f != 0) ||
    (if fmt = fmtU4 then k else (k != (n == 1 || n == 2))) || decide (3 ≤ n) ||
    (k && !((List.range n).all (fun j => fld (kites.getD j 0) 31 30 == 0 && fld (kites.getD j 0) 29 25 == esc.getD j 0))) ||
    (fmt == fmtS4 &&
      (decide (planeLimit < f) || decide (e < 3 * f + 1) ||
       rest.any (fun pl => pl.any (fun c => c == 8) || esc.any (fun i => pl.getD i 0 != 0))))

/-- The block that its streams spell (R38 to R46); a malformed one decodes as a non-finite block. -/
def mkBlk (fmt planeLimit bw : Nat) (planes : List (List Nat)) (kites : List Nat) : Blk :=
  let e := fld bw 15 8
  let m := fld bw 7 5
  let f := fld bw 4 1
  if malformed fmt planeLimit bw planes kites then { kind := .nonfinite }
  else if e = 0 then
    if m = 0 then { kind := .zero }
    else if m = 1 then { kind := .const, value := BitVec.ofNat 16 (kites.getD 0 0) }
    else if m = 2 then
      { kind := .fallback,
        vals := (List.range 32).map (fun i =>
          BitVec.ofNat 16 (kites.getD (1 + i / 2) 0 / (if i % 2 = 0 then 1 else 65536))) }
    else { kind := .nonfinite }
  else
    { kind := .normal, e := e, m := m, zp := if fmt = fmtU4 then f else 0, p := if fmt = fmtS4 then f + 1 else 1,
      planes := planes.take (if fmt = fmtS4 then f + 1 else 1),
      kites := (escapeIdx fmt (planes.getD 0 [])).zipIdx.map (fun (i, j) => (i, BitVec.ofNat 16 (kites.getD j 0))) }

/-- The value of element `i` of a block (R47): G times the value, rounded once; the sum over planes is exact. -/
def decElem (fmt : Nat) (g : Word) (b : Blk) (i : Nat) : Word :=
  match b.kind with
  | .zero => 0#32
  | .const => Fp.mulRne g (Fp.ofBf16 b.value)
  | .fallback => Fp.mulRne g (Fp.ofBf16 (b.vals.getD i 0#16))
  | .nonfinite => Fp.qnan
  | .normal =>
    match b.kites.lookup i with
    | some v => Fp.mulRne g (Fp.ofBf16 v)
    | none =>
      let acc := b.planes.zipIdx.foldl (fun a (pl, k) =>
        let l := level fmt (pl.getD i 0) b.zp
        Fp.add a (Fp.mul (.fin (decide (l < 0)) l.natAbs 0) (scaleVal ((b.e : Int) - 3 * k) b.m))) (.fin false 0 0)
      Fp.toF32 (Fp.mul (Fp.val g) acc)

/-- The 32 values of a block (R47). -/
def decode (fmt : Nat) (g : Word) (b : Blk) : List Word := (List.range 32).map (decElem fmt g b)

/-- The block words of tile `t`. -/
def blockWords (rd : Nat → Byte) (d : TDesc) (t : Nat) : List Nat :=
  (List.range 128).map (fun i => rdLE rd (d.blockw + 256 * t + 2 * i) 2)

/-- The stored planes of block ordinal `o` (R43): one for B4 and U4, the block's own for S4. -/
def planesOf (rd : Nat → Byte) (d : TDesc) (o bw : Nat) : List (List Nat) :=
  (List.range (if d.fmt = fmtS4 then fld bw 4 1 % 4 + 1 else 1)).map
    (fun k => codesAt rd (d.codes + k * d.planeStride * 256 + 16 * o))

/-- Whether the SEQ fields of a block's kite words agree with its sequence number (R78, R83). Pair words have none. -/
def kiteSeqOk (seq bw : Nat) (kites : List Nat) : Bool :=
  let ws := if fld bw 15 8 = 0 && fld bw 7 5 = 2 then kites.take 1 else kites
  ws.all (fun w => fld w 24 16 == seq % 512)

/-- Take the blocks of a tile in order, each with its kite words (R457); `base` is the tile's first ordinal. -/
def takeBlks (rd : Nat → Byte) (d : TDesc) (wide : Bool) : List (Nat × Nat) → List Nat → TileRd
  | [], ks => { blks := [], malformed := [], surplus := !ks.isEmpty, unresolved := [] }
  | (o, bw) :: rest, ks =>
    let pl := planesOf rd d o bw
    let n := kiteCount d.fmt bw (pl.getD 0 [])
    let mine := ks.take n
    let short := decide (mine.length < n)
    let seqBad := wide && !kiteSeqOk (blockSeq d o) bw mine
    let mal := !short && malformed d.fmt d.planeLimit bw pl mine
    let r := takeBlks rd d wide rest (ks.drop n)
    { blks := (if short || seqBad then { kind := .nonfinite } else mkBlk d.fmt d.planeLimit bw pl mine) :: r.blks,
      malformed := if (mal && !seqBad) || (short && !wide) then blockSeq d o :: r.malformed else r.malformed,
      surplus := r.surplus,
      unresolved := if seqBad || (short && wide) then blockSeq d o :: r.unresolved else r.unresolved }

/-- The directory word of tile `t`, or KITE_WORDS past the last tile (R31). -/
def dirWord (rd : Nat → Byte) (d : TDesc) (t : Nat) : Nat :=
  if t < tileCount d then rdLE rd (d.kiteDir + 4 * t) 4 else d.kiteWords

/-- A stored tile read by address (R31, R457); `wide` is the address read of R83. A directory that decreases gives the tile no words
(DESIGN CHOICE, log 106). -/
def readTile (rd : Nat → Byte) (d : TDesc) (wide : Bool) (t : Nat) : TileRd :=
  let k0 := dirWord rd d t
  let n := dirWord rd d (t + 1) - k0
  let ks := (List.range (min n 2176)).map (fun i => rdLE rd (d.kite + 4 * (k0 + i)) 4)
  let r := takeBlks rd d wide ((blockWords rd d t).zipIdx.map (fun (bw, i) => (128 * t + i, bw))) ks
  { r with surplus := r.surplus || decide (2176 < n) }

/-- The malformed reports of a tile read: each malformed block, and the tile's first block once for surplus words. -/
def malformedSeqs (d : TDesc) (t : Nat) (r : TileRd) : List Nat :=
  r.malformed ++ (if r.surplus then [blockSeq d (128 * t)] else [])

/-- Counts of a tile's block words (R77, R116): zero blocks (0x0000), fall-back blocks (0x0041), and PMAX over the normal
blocks of a plane tensor. A malformed word is none of these (R46). -/
def tileCounts (fmt : Nat) (bws : List Nat) : Nat × Nat × Nat :=
  ((bws.filter (fun w => w == 0)).length,
   (bws.filter (fun w => w == 0x41)).length,
   if fmt = fmtS4 then
     bws.foldl (fun a w => if fld w 15 8 = 0 || fld w 15 8 = 255 || 3 < fld w 4 1 then a else max a (fld w 4 1)) 0
   else 0)

/-- Source formats SFMT (R176): bytes per element. -/
def sfmtBytes (f : Nat) : Nat := if f = 0 then 4 else if f ≤ 2 then 2 else 1
/-- An element of source format `f` as FP32, exactly (R50). -/
def sfmtVal (f b : Nat) : Word :=
  if f = 0 then (if Fp.isNan (BitVec.ofNat 32 b) then Fp.qnan else BitVec.ofNat 32 b)
  else if f = 1 then Fp.widen Fp.bf16 b
  else if f = 2 then Fp.widen Fp.fp16 b
  else if f = 3 then Fp.widen Fp.e4m3 b
  else Fp.widen Fp.e5m2 b

/-- A wide 64 x 64 tile at byte address `a`, as 64 lines of FP32 (R27); a transposing load delivers columns (R112). -/
def readWide (rd : Nat → Byte) (a f : Nat) (transpose : Bool) : List (List Word) :=
  (List.range 64).map (fun r => (List.range 64).map (fun c =>
    let i := if transpose then c * 64 + r else r * 64 + c
    sfmtVal f (rdLE rd (a + i * sfmtBytes f) (sfmtBytes f))))

end Coding
end Sys2Proof
end

