-- ==== Sys2Proof/Machine/Quantise.lean ====
section
/-! DEFINITION. The quantiser's decisions for one block (R59 to R76, R91, R92): the block word, planes, kite words, counts and
summary bits. Comparisons are exact; `rnd32` is one rounding. -/

namespace Sys2Proof

/-- A quantisation parameter record (R58); `bad` says that a field is out of range, reserved or set where it must be 0. -/
structure QRec where
  tau : Word
  theta : Word
  rho : Word
  kiteR : Word
  zeroPolicy : Nat
  satPolicy : Nat
  learned : Bool
  layer : Nat
  bad : Bool
  deriving DecidableEq, Repr

/-- What the quantiser writes for one block, and what it counts: counter identifiers with amounts (R84), and the summary
bits it sets (R77). -/
structure QBlk where
  bw : Nat
  planes : List (List Nat)
  kites : List Nat
  counts : List (Nat × Nat)
  nf : Bool := false
  ov : Bool := false
  ze : Bool := false
  se : Bool := false
  gs : Bool := false
  pl : Bool := false
  deriving DecidableEq, Repr

/-- One coding attempt (R63 to R72): either a fall-back cause, or the coded block with what R73 and R91 judge it by; `infinite` says that
a ratio rounded to infinity, so that R91 states no sums. -/
structure QTry where
  fallback : Option Nat
  out : QBlk
  plLimit : Bool := false
  ev : Option Bool := none
  infinite : Bool := false
  errNum : Frac := { num := 0, den := 1 }
  errDen : Frac := { num := 0, den := 1 }
  deriving DecidableEq, Repr

namespace Quant

/-- |x| of an FP32 pattern lies in [lo, hi], both exact patterns of positive values. -/
def inRange (x lo hi : Word) : Bool :=
  Fp.isNormal x && !x.msb && Fp.fle lo x && Fp.fle x hi

/-- Read a quantisation parameter record from its 32 bytes (R58). -/
def parseRec (b : List Byte) : QRec :=
  let rd := rdList b
  let w (a : Nat) : Word := BitVec.ofNat 32 (rdLE rd a 4)
  let p := rdLE rd 0x10 1
  { tau := w 0, theta := w 4, rho := w 8, kiteR := w 12, zeroPolicy := fld p 1 0, satPolicy := fld p 3 2,
    learned := bitOf p 4, layer := rdLE rd 0x12 2,
    bad := !(inRange (w 0) 0x39800000#32 0x3F000000#32) || !(inRange (w 4) 0x3A800000#32 0x3F800000#32) ||
      !(inRange (w 8) 0x40000000#32 0x43800000#32) || !(inRange (w 12) 0x41680000#32 0x44800000#32) ||
      fld p 1 0 == 3 || fld p 3 2 == 3 || fld p 7 5 != 0 || rdLE rd 0x11 1 != 0 || rdLE rd 0x14 12 != 0 }

/-- c_n of R55 by ROT_N. -/
def foldFactor (rotN : Nat) : Word :=
  if rotN = 1 then 0x3E3504F3#32 else if rotN = 2 then 0x3E000000#32
  else if rotN = 3 then 0x3DB504F3#32 else 0x3D800000#32

/-- The folded scale G (R55). -/
def foldedG (rotN : Nat) (g0 : Word) : Word := if rotN = 0 then g0 else Fp.mulRne g0 (foldFactor rotN)

/-- bf16_rne(x / G0) of the exact quotient, clamped to the largest finite value (R65, R76): the pattern and whether it counts
in WIDE_NARROW_SAT. -/
def kiteValue (x g0 : Word) : Nat × Bool :=
  let q := Frac.div (Frac.ofF32 x) (Frac.ofF32 g0)
  let mag := Fp.roundMag Fp.bf16 q.num.natAbs q.den
  if q.num = 0 then (0, false)
  else if Fp.bf16.maxFin < mag then (Fp.withSign Fp.bf16 (decide (q.num < 0)) Fp.bf16.maxFin, true)
  else (Fp.withSign Fp.bf16 (decide (q.num < 0)) mag, false)

/-- A block that is written with no codes. -/
def special (bw : Nat) (kites : List Nat) (counts : List (Nat × Nat)) : QBlk :=
  { bw := bw, planes := [], kites := kites, counts := counts }

/-- The fall-back block (R76). -/
def fallbackBlk (x : List Word) (g0 : Word) (seq cause : Nat) : QBlk :=
  let vs := x.map (fun v => kiteValue v g0)
  let sat := (vs.filter (fun v => v.2)).length
  special 0x0041
    ((2 * 2 ^ 30 + seq % 512 * 65536 + 16) ::
      (List.range 16).map (fun j => (vs.getD (2 * j) (0, false)).1 + (vs.getD (2 * j + 1) (0, false)).1 * 65536))
    ((cause, 1) :: if sat = 0 then [] else [(Ctr.wideNarrowSat, sat)])

/-- The exact value of an E8M3 scale. -/
def scaleFrac (e : Int) (m : Nat) : Frac := Frac.ofVal (Coding.scaleVal e m)

/-- ceil_e8m3(t) (R66): the smallest scale at or above t, as E and M; none where t exceeds every scale. -/
def ceilE8m3 (t : Frac) : Option (Nat × Nat) :=
  if Frac.le t (scaleFrac 1 0) then some (1, 0)
  else
    let e := Fp.log2Frac t.num.natAbs t.den
    let cands := [0, 1, 2, 3, 4, 5, 6, 7].map (fun m => (e + 127, m)) ++ [(e + 128, 0)]
    match cands.find? (fun c => Frac.le t (scaleFrac c.1 c.2)) with
    | some c => if c.1 ≤ 254 then some (c.1.toNat, c.2) else none
    | none => none

/-- rnd32(x / (G0 * s)) (R35, R59). -/
def ratio (x g0s : Frac) : Word := BitVec.ofNat 32 (Frac.round Fp.fp32 (Frac.div x g0s))

/-- The B4 magnitude index of a ratio, and whether it was clamped (R35, R36): boundaries belong to the lower level. -/
def b4Index (r : Word) : Nat × Bool :=
  let a := Fp.abs (Fp.val r)
  let beyond (m : Nat) (e : Int) : Bool := Fp.cmp a (.fin false m e) = some 1
  ((if beyond 1 (-1) then 1 else 0) + (if beyond 3 (-1) then 1 else 0) + (if beyond 5 (-1) then 1 else 0) +
    (if beyond 4 0 then 1 else 0) + (if beyond 6 0 then 1 else 0) + (if beyond 17 (-1) then 1 else 0) + (if beyond 12 0 then 1 else 0),
   beyond 14 0)

/-- A ratio rounded to the nearest integer, ties to even; an infinite one lies beyond every level. -/
def rneRatio (r : Word) : Int :=
  if Fp.isNonFinite r then (if r.msb then -(2 ^ 128) else 2 ^ 128) else Frac.rne (Frac.ofF32 r)

/-- The S4 level of a ratio, and whether it was clamped (R35, R36). -/
def s4Level (r : Word) : Int × Bool :=
  let q := rneRatio r
  (max (-7) (min 7 q), decide (7 < q) || decide (q < -7))

/-- Whether x lies before y in the ranking of R60: larger magnitude first, a tie by lower index. -/
def ranksBefore (x y : Word × Nat) : Bool :=
  Fp.flt (Fp.fabs y.1) (Fp.fabs x.1) || (Fp.feq (Fp.fabs x.1) (Fp.fabs y.1) && decide (x.2 < y.2))

/-- Insert an element in rank order. -/
def insertRank (x : Word × Nat) : List (Word × Nat) → List (Word × Nat)
  | [] => [x]
  | y :: t => if ranksBefore x y then x :: y :: t else y :: insertRank x t

/-- The elements by rank (R60): the four largest magnitudes come first. -/
def ranked (x : List Word) : List (Word × Nat) := x.zipIdx.foldl (fun l e => insertRank e l) []

/-- The measured-scale outliers of a B4 or S4 block (R63): their indices. -/
def outliers (x : List Word) (rho : Word) : List Nat :=
  let r := ranked x
  let mag (i : Nat) : Frac := Frac.abs (Frac.ofF32 (r.getD i (0#32, 0)).1)
  if (mag 3).num = 0 then []
  else ((List.range 3).filter (fun i => Frac.lt (Frac.mul (Frac.ofF32 rho) (mag 3)) (mag i))).map
    (fun i => (r.getD i (0#32, 0)).2)

/-- The single-outlier kite words of the block in ascending index, and how many values were clamped (R65). -/
def outlierKites (x : List Word) (g0 : Word) (seq : Nat) (ks : List Nat) : List Nat × Nat :=
  let idx := (List.range 32).filter (fun i => ks.contains i)
  let vs := idx.map (fun i => (i, kiteValue (x.getD i 0#32) g0))
  (vs.map (fun v => v.1 * 2 ^ 25 + seq % 512 * 65536 + v.2.1), (vs.filter (fun v => v.2.2)).length)

/-- The counts of a coded block: kites, clamps of kite values, clamped elements (R84). -/
def codedCounts (nk sat gs : Nat) : List (Nat × Nat) :=
  (if nk = 0 then [] else [(Ctr.kiteOutlier, nk)]) ++ (if sat = 0 then [] else [(Ctr.wideNarrowSat, sat)]) ++
  (if gs = 0 then [] else [(Ctr.gridSaturate, gs)])

/-- A B4 block coded against the scale (e, m) with the kite indices `ks` (R35, R64, R67). -/
def codeB4 (x : List Word) (g0 : Word) (seq e m : Nat) (ks : List Nat) (learned : Bool) : QTry :=
  let g0s := Frac.mul (Frac.ofF32 g0) (scaleFrac e m)
  let rs := x.map (fun v => ratio (Frac.ofF32 v) g0s)
  let ix := rs.map b4Index
  let kept := (List.range 32).filter (fun i => !ks.contains i)
  let codes := (List.range 32).map (fun i =>
    if ks.contains i then 8 else Coding.signMag (rs.getD i 0#32).msb (ix.getD i (0, false)).1)
  let gs := (kept.filter (fun i => (ix.getD i (0, false)).2)).length
  let (kw, sat) := outlierKites x g0 seq ks
  let lv (i : Nat) : Frac := Frac.ofInt (Coding.level Coding.fmtB4 (codes.getD i 0) 0)
  let r (i : Nat) : Frac := Frac.ofF32 (rs.getD i 0#32)
  let live := kept.filter (fun i => !Fp.isZero (x.getD i 0#32))
  { fallback := none,
    out := { bw := e * 256 + m * 32 + (if ks.isEmpty then 0 else 1), planes := [codes], kites := kw,
             counts := codedCounts kw.length sat gs, gs := decide (0 < gs) },
    ev := if !learned || live.isEmpty then none
          else if kept.all (fun i => (ix.getD i (0, false)).1 == 0) then some false
          else if live.all (fun i => (ix.getD i (0, false)).2) then some true else none,
    infinite := kept.any (fun i => Fp.isNonFinite (rs.getD i 0#32)),
    errNum := Frac.sum (kept.map (fun i => let d := Frac.sub (r i) (lv i); Frac.mul d d)),
    errDen := Frac.sum (kept.map (fun i => Frac.mul (r i) (r i))) }

/-- One plane of the decomposition (R71): the levels and the exact residuals it leaves. -/
def planeStep (res : List Frac) (g0s : Frac) : List Int × List Frac :=
  let lv := res.map (fun v => (s4Level (ratio v g0s)).1)
  (lv, (res.zip lv).map (fun (v, l) => Frac.sub v (Frac.mul g0s (Frac.ofInt l))))

/-- The planes of R71: levels and residuals plane by plane until the residual falls below τ, at most `fuel` planes. -/
def planesGo (g0 tau s1 : Frac) : (fuel k : Nat) → List Frac → List (List Int × List Frac) × Bool
  | 0, _, _ => ([], false)
  | fuel + 1, k, res =>
    let g0s := Frac.mul (Frac.mul g0 s1) { num := 1, den := 8 ^ k }
    let st := planeStep res g0s
    if st.2.all (fun v => Frac.lt (Frac.abs v) (Frac.mul (Frac.mul tau g0) s1)) then ([st], true)
    else
      let r := planesGo g0 tau s1 fuel (k + 1) st.2
      (st :: r.1, r.2)

/-- An attempt that ends as a fall-back block of the given cause. -/
def failed (cause : Nat) : QTry := { fallback := some cause, out := special 0 [] [] }

/-- An S4 block coded in planes from the first-plane scale (e, m) (R71, R72, R91). -/
def codeS4 (x : List Word) (rec : QRec) (g0 : Word) (seq planeLimit e m : Nat) (ks : List Nat) : QTry :=
  let g := Frac.ofF32 g0
  let s1 := scaleFrac e m
  let res0 := x.zipIdx.map (fun (v, i) => if ks.contains i then { num := 0, den := 1 } else Frac.ofF32 v)
  let (steps, met) := planesGo g (Frac.ofF32 rec.tau) s1 4 0 res0
  if !met then failed Ctr.fbSpread
  else
    let beyond := decide (planeLimit + 1 < steps.length)
    let p := if beyond then planeLimit + 1 else steps.length
    if (e : Int) - 3 * ((p : Int) - 1) < 1 then { failed Ctr.fbSpread with plLimit := beyond }
    else
      let used := steps.take p
      let planes := used.zipIdx.map (fun (st, k) => st.1.zipIdx.map (fun (l, i) =>
        if ks.contains i then (if k = 0 then 8 else 0) else Coding.signMag (decide (l < 0)) l.natAbs))
      let last := (used.getLastD ([], res0)).2
      let gs1 := Frac.mul g s1
      let kept := (List.range 32).filter (fun i => !ks.contains i)
      let el (l : List Frac) (i : Nat) : Frac := Frac.div (l.getD i { num := 0, den := 1 }) gs1
      let (kw, sat) := outlierKites x g0 seq ks
      { fallback := none, plLimit := beyond,
        out := { bw := e * 256 + m * 32 + (p - 1) * 2 + (if ks.isEmpty then 0 else 1), planes := planes, kites := kw,
                 counts := codedCounts kw.length sat 0 ++ [(Ctr.planes1 + (p - 1), 1)], pl := beyond },
        errNum := Frac.sum (kept.map (fun i => let d := el last i; Frac.mul d d)),
        errDen := Frac.sum (kept.map (fun i => let d := el res0 i; Frac.mul d d)) }

/-- The smallest and largest element by exact value (R60). -/
def extremes (x : List Word) : Word × Word :=
  x.foldl (fun (lo, hi) v => (if Fp.flt v lo then v else lo, if Fp.flt hi v then v else hi)) (x.headD 0#32, x.headD 0#32)

/-- A U4 block (R68): the interval always contains 0. -/
def codeU4 (x : List Word) (g0 : Word) : QTry :=
  let (mn, mx) := extremes x
  let lo := if Fp.flt mn 0#32 then mn else 0#32
  let hi := if Fp.flt 0#32 mx then mx else 0#32
  let g := Frac.ofF32 g0
  match ceilE8m3 (Frac.div (Frac.sub (Frac.ofF32 hi) (Frac.ofF32 lo)) (Frac.mul { num := 15, den := 1 } g)) with
  | none => failed Ctr.fbScaleRange
  | some (e, m) =>
    let g0s := Frac.mul g (scaleFrac e m)
    let z := Frac.rne (Frac.div (Frac.neg (Frac.ofF32 lo)) g0s)
    let zp := if 0 ≤ z ∧ z ≤ 15 then z.toNat else (Config.zeroPoint lo g0).toNat
    let rs := x.map (fun v => ratio (Frac.ofF32 v) g0s)
    let raw := rs.map (fun r => (zp : Int) + rneRatio r)
    let codes := raw.map (fun c => (max 0 (min 15 c)).toNat)
    let gs := (raw.filter (fun c => decide (c < 0) || decide (15 < c))).length
    let er := (rs.zip codes).map (fun (r, c) =>
      let d := Frac.sub (Frac.ofF32 r) (Frac.ofInt ((c : Int) - zp)); (Frac.mul d d, Frac.mul (Frac.ofF32 r) (Frac.ofF32 r)))
    { fallback := none,
      out := { bw := e * 256 + m * 32 + zp * 2, planes := [codes], kites := [], counts := codedCounts 0 0 gs,
               gs := decide (0 < gs) },
      infinite := rs.any Fp.isNonFinite,
      errNum := Frac.sum (er.map (fun p => p.1)), errDen := Frac.sum (er.map (fun p => p.2)) }

/-- One coding attempt with measured scales (R63, R66, R67, R68). -/
def tryMeasured (x : List Word) (fmt : Nat) (rec : QRec) (g0 : Word) (seq planeLimit : Nat) : QTry :=
  if fmt = Coding.fmtU4 then codeU4 x g0
  else
    let ks := outliers x rec.rho
    if ks.length = 3 then failed Ctr.fbOutlier
    else
      let mn := Frac.abs (Frac.ofF32 ((ranked x).getD ks.length (0#32, 0)).1)
      let top : Int := if fmt = Coding.fmtB4 then 14 else 7
      match ceilE8m3 (Frac.div mn (Frac.mul { num := top, den := 1 } (Frac.ofF32 g0))) with
      | none => failed Ctr.fbScaleRange
      | some (e, m) =>
        if fmt = Coding.fmtB4 then codeB4 x g0 seq e m ks false else codeS4 x rec g0 seq planeLimit e m ks

/-- One coding attempt with the learned scale of block word `bw` (R64, R69). -/
def tryLearned (x : List Word) (rec : QRec) (g0 : Word) (seq bw : Nat) : QTry :=
  let e := fld bw 15 8
  let m := fld bw 7 5
  let g0s := Frac.mul (Frac.ofF32 g0) (scaleFrac e m)
  let ks := (List.range 32).filter (fun i =>
    Fp.flt rec.kiteR (Fp.fabs (ratio (Frac.ofF32 (x.getD i 0#32)) g0s)))
  if 3 ≤ ks.length then failed Ctr.fbOutlier else codeB4 x g0 seq e m ks true

/-- Whether the block error-energy test fails (R91); a free value where a ratio is infinite (log 22). -/
def energyFails (x : List Word) (g0 : Word) (t : QTry) (theta : Word) : Bool :=
  if t.infinite then Config.infiniteEnergy x g0 theta
  else decide (t.errDen.num ≠ 0) && Frac.lt (Frac.mul (Frac.ofF32 theta) t.errDen) t.errNum

/-- Finish an attempt (R59): a fall-back, the energy test, or the block as coded. `pre` counts the events already found. -/
def finish (x : List Word) (rec : QRec) (g0 : Word) (seq : Nat) (t : QTry) (pre : List (Nat × Nat)) (ov ze se : Bool) :
    QBlk :=
  let pre := pre ++ (if t.plLimit then [(Ctr.planeLimit, 1)] else [])
  let out := match t.fallback with
    | some cause => fallbackBlk x g0 seq cause
    | none => if energyFails x g0 t rec.theta then fallbackBlk x g0 seq Ctr.fbEnergy else t.out
  { out with counts := pre ++ out.counts, ov := ov, ze := ze, se := se, pl := t.plLimit }

/-- The measured path after a discarded learned attempt or none (R59, R70, R74). -/
def measuredPath (x : List Word) (fmt : Nat) (rec : QRec) (g0 : Word) (seq planeLimit : Nat) (pre : List (Nat × Nat))
    (ov ze se : Bool) : QBlk :=
  finish x rec g0 seq (tryMeasured x fmt rec g0 seq planeLimit) pre ov ze se

/-- The learned path (R69, R73, R74). -/
def learnedPath (x : List Word) (rec : QRec) (g0 : Word) (seq planeLimit bw : Nat) : QBlk :=
  let t := tryLearned x rec g0 seq bw
  match t.fallback, t.ev with
  | some _, _ => finish x rec g0 seq t [] false false false
  | none, none => finish x rec g0 seq t [] false false false
  | none, some sat =>
    let ctr := if sat then Ctr.satEvt else Ctr.roundZeroEvt
    let pol := if sat then rec.satPolicy else rec.zeroPolicy
    if pol = 0 then finish x rec g0 seq t [(ctr, 1)] false (!sat) sat
    else if pol = 2 then
      let out := fallbackBlk x g0 seq Ctr.fbPolicy
      { out with counts := (ctr, 1) :: out.counts, ze := !sat, se := sat }
    else measuredPath x Coding.fmtB4 rec g0 seq planeLimit [(ctr, 1), (Ctr.scaleOverride, 1)] true (!sat) sat

/-- quantise_block (R59). `x` are the 32 source values as FP32; `learned` is the learned block word in learned mode. -/
def block (x : List Word) (fmt : Nat) (rec : QRec) (g0 : Word) (rot : Bool) (planeLimit : Nat) (learned : Option Nat)
    (seq : Nat) : QBlk :=
  let x0 := x.headD 0#32
  let cval := Frac.round Fp.bf16 (Frac.div (Frac.ofF32 x0) (Frac.ofF32 g0))
  if x.any Fp.isNonFinite then { special 0x0060 [] [(Ctr.nonfiniteBlock, 1)] with nf := true }
  else if x.all Fp.isZero then special 0x0000 [] [(Ctr.zeroBlock, 1)]
  else if !rot && x.all (fun v => v == x0) && Fp.mulRne g0 (Fp.ofBf16 (BitVec.ofNat 16 cval)) == x0 then
    special 0x0021 [2 ^ 30 + seq % 512 * 65536 + cval] [(Ctr.constBlock, 1)]
  else
    match learned with
    | none => measuredPath x fmt rec g0 seq planeLimit [] false false false
    | some bw =>
      if fld bw 15 8 = 0 || fld bw 15 8 = 255 then
        measuredPath x fmt rec g0 seq planeLimit [(Ctr.learnedInvalid, 1)] true false false
      else learnedPath x rec g0 seq planeLimit bw

/-- The summary word of a tile (R77). -/
def summary (fmt : Nat) (bs : List QBlk) : Nat :=
  let (z, f, p) := Coding.tileCounts fmt (bs.map (fun b => b.bw))
  f + z * 2 ^ 8 + p * 2 ^ 16 + b2n (bs.any (·.nf)) * 2 ^ 18 + b2n (bs.any (·.ov)) * 2 ^ 19 + b2n (bs.any (·.ze)) * 2 ^ 20 +
  b2n (bs.any (·.se)) * 2 ^ 21 + b2n (bs.any (·.gs)) * 2 ^ 22 + b2n (bs.any (·.pl)) * 2 ^ 23

/-- The 16 bytes of one plane of codes (R28). -/
def planeBytes (codes : List Nat) : List Byte :=
  (List.range 16).map (fun j => BitVec.ofNat 8 (codes.getD (2 * j) 0 + 16 * codes.getD (2 * j + 1) 0))

end Quant
end Sys2Proof
end

