-- ==== Sys2Proof/Machine/ProductMath.lean ====
section
/-! DEFINITION. The fixed order of the two arrays (R115 to R120): chunk terms, side terms, passes, and the wide chain. -/

namespace Sys2Proof

/-- An operand tile of a product: its blocks, FORMAT and G, and its block words for the counts of R116. -/
structure OpTile where
  blks : List Blk
  fmt : Nat
  g : Word
  bws : List Nat
  deriving DecidableEq, Repr

namespace Prod

/-- Block `i` of a tile. -/
def blk (t : OpTile) (i : Nat) : Blk := t.blks.getD i { kind := .nonfinite }

/-- The FP32 scale of plane k of a normal block, or the value of a constant block (R115). -/
def termScale (b : Blk) (k : Nat) : Word :=
  if b.kind = .const then Fp.ofBf16 b.value else Fp.toF32 (Coding.scaleVal ((b.e : Int) - 3 * ((k : Int) - 1)) b.m)

/-- operand(x, k, i) of R115. -/
def operandOf (fmt : Nat) (b : Blk) (k i : Nat) : Int :=
  if b.kind = .const then 1 else Coding.operand fmt ((b.planes.getD (k - 1) []).getD i 0) b.zp

/-- The exact integer sum of a block pair (R37). -/
def intSum (fa fb : Nat) (a b : Blk) (k : Nat) : Int :=
  (List.range 32).foldl (fun n i => n + operandOf fa a k i * operandOf fb b 1 i) 0

/-- The element indices with a kite in either block (R115). -/
def kiteUnion (a b : Blk) : List Nat :=
  (List.range 32).filter (fun i => (a.kites.lookup i).isSome || (b.kites.lookup i).isSome)

/-- Add the side terms of the given indices in order (R115). -/
def sideTerms (acc : Word) (ta tb : OpTile) (a b : Blk) (idx : List Nat) : Word :=
  idx.foldl (fun s i => Fp.addRne s (Fp.mulRne (Coding.decElem ta.fmt ta.g a i) (Coding.decElem tb.fmt tb.g b i))) acc

/-- block_term (R115). -/
def blockTerm (acc : Word) (ta tb : OpTile) (a b : Blk) (k : Nat) (gab : Word) : Word :=
  if a.kind = .nonfinite ∨ b.kind = .nonfinite then (if k = 1 then Fp.addRne acc Fp.qnan else acc)
  else if a.kind = .zero ∨ b.kind = .zero then acc
  else if a.kind = .fallback ∨ b.kind = .fallback then
    (if k = 1 then sideTerms acc ta tb a b (List.range 32) else acc)
  else if a.p < k then acc
  else
    let f := Fp.mulRne (Fp.mulRne (termScale a k) (termScale b 1)) gab
    let acc := Fp.addRne acc (Fp.mulRne (Fp.ofInt (intSum ta.fmt tb.fmt a b k)) f)
    if k = 1 then sideTerms acc ta tb a b (kiteUnion a b) else acc

/-- The terms of one window element in a chunk: plane by plane, block 0 then block 1 (R115). -/
def chunkElem (ta tb : OpTile) (gab : Word) (passes r j : Nat) (acc : Word) : Word :=
  (List.range passes).foldl (fun s k =>
    [0, 1].foldl (fun s blkNo => blockTerm s ta tb (blk ta (2 * r + blkNo)) (blk tb (2 * j + blkNo)) (k + 1) gab) s) acc

/-- A chunk on the nibble array: every element of the 64 x 64 window, row-major. -/
def nibbleChunk (acc : List Word) (ta tb : OpTile) (gab : Word) (passes : Nat) : List Word :=
  acc.zipIdx.map (fun (v, i) => chunkElem ta tb gab passes (i / 64) (i % 64) v)

/-- The pass count of a chunk on the nibble array (R116). -/
def passes (ta : OpTile) : Nat := 1 + (Coding.tileCounts ta.fmt ta.bws).2.2
/-- Whether a tile is all zero blocks (R116). -/
def allZero (t : OpTile) : Bool := (Coding.tileCounts t.fmt t.bws).1 == 128
/-- Whether R93 moves a chunk with this operand tile to the wide array. -/
def tooMany (t : OpTile) : Bool := decide (16 < (Coding.tileCounts t.fmt t.bws).2.1)

/-- S, the side terms of a chunk (R117). -/
def sideCount (ta tb : OpTile) : Nat :=
  (List.range 8192).foldl (fun n q =>
    let a := blk ta (2 * (q / 128) + q % 2)
    let b := blk tb (2 * (q / 2 % 64) + q % 2)
    if a.kind = .zero ∨ b.kind = .zero ∨ a.kind = .nonfinite ∨ b.kind = .nonfinite then n
    else if a.kind = .fallback ∨ b.kind = .fallback then n + 32
    else n + (kiteUnion a b).length) 0

/-- The fixed pairwise tree over a list, level by level (R119, R144). -/
def pairUp {α : Type} (f : α → α → α) : List α → List α
  | a :: b :: t => f a b :: pairUp f t
  | l => l
/-- The tree's value after `k` levels. -/
def tree {α : Type} (f : α → α → α) : Nat → List α → List α
  | 0, l => l
  | k + 1, l => tree f k (pairUp f l)

/-- group_sum of 16 products (R119). -/
def groupSum (a b : List (BitVec 19)) : Word :=
  (tree Fp.addRne 4 ((a.zip b).map (fun (x, y) => Fp.mulRne (Fp.ofF19 x) (Fp.ofF19 y)))).headD 0#32

/-- wide_chain over `n` groups of 16, ascending, from `acc` (R119). -/
def chainFrom : (n : Nat) → (acc : Word) → List (BitVec 19) → List (BitVec 19) → Word
  | 0, acc, _, _ => acc
  | n + 1, acc, a, b => chainFrom n (Fp.addRne acc (groupSum (a.take 16) (b.take 16))) (a.drop 16) (b.drop 16)

/-- wide_chain (R119). -/
def wideChain (a b : List (BitVec 19)) : Word := chainFrom (a.length / 16) 0#32 a b

/-- A line converted to F19 (R120), and how many elements flushed. -/
def toF19Line (l : List Word) (rnd : Bool) : List (BitVec 19) × Nat :=
  let c := l.map (fun v => Fp.toF19 v rnd)
  (c.map (fun p => p.1), (c.filter (fun p => p.2)).length)

/-- Lines converted to F19. -/
def toF19Lines (ls : List (List Word)) (rnd : Bool) : List (List (BitVec 19)) × Nat :=
  let c := ls.map (fun l => toF19Line l rnd)
  (c.map (fun p => p.1), (c.map (fun p => p.2)).sum)

/-- Every element's wide chain of the lines `a` by the lines `b`: the 64 x 64 output, row-major (R96, R119). -/
def wideTile (a b : List (List (BitVec 19))) : List Word :=
  (a.map (fun la => b.map (fun lb => wideChain la lb))).flatten

/-- Go on with every element's wide chain from the window `acc` by the lines of a further stretch of the contraction (R119, R121). -/
def wideOn (acc : List Word) (a b : List (List (BitVec 19))) : List Word :=
  (acc.zip (a.map (fun la => b.map (fun lb => (la, lb)))).flatten).map (fun (v, la, lb) => chainFrom (la.length / 16) v la lb)

/-- The 64 decoded lines of an operand tile (R47, R94). -/
def decodeTile (t : OpTile) : List (List Word) :=
  (List.range 64).map (fun r =>
    Coding.decode t.fmt t.g (blk t (2 * r)) ++ Coding.decode t.fmt t.g (blk t (2 * r + 1)))

/-- A tile-fall-back chunk (R94): each element's chunk sum joins the window with one addition; the flush count is beside. -/
def wideChunkLines (acc : List Word) (la lb : List (List Word)) (rnd : Bool) : List Word × Nat :=
  let (a, fa) := toF19Lines la rnd
  let (b, fb) := toF19Lines lb rnd
  ((acc.zip (wideTile a b)).map (fun (x, y) => Fp.addRne x y), fa + fb)

end Prod
end Sys2Proof
end

