-- ==== Sys2Proof/Machine/VecMath.lean ====
section
/-! DEFINITION. The lane functions of R134 to R137 and the reductions of R143, R144 and R147. -/

namespace Sys2Proof

/-- A lane's result and what it counts: INT_SAT, CVT_NAN_ZERO, WIDE_NARROW_SAT. -/
structure LaneOut where
  v : Word
  intSat : Bool := false
  nanZero : Bool := false
  narrowSat : Bool := false
  deriving DecidableEq, Repr

namespace Vec

/-- An exact integer result under SAT (R135). -/
def intResult (sat : Bool) (x : Int) : LaneOut :=
  if sat then
    (if x < -(2 ^ 31) then { v := 0x80000000#32, intSat := true }
     else if 2 ^ 31 - 1 < x then { v := 0x7FFFFFFF#32, intSat := true }
     else { v := BitVec.ofInt 32 x })
  else { v := BitVec.ofInt 32 x }

/-- The shift amount b[5:0] (R135). -/
def amount (b : Word) : Nat := b.toNat % 64

/-- The result of one lane (R134 to R137). Narrow results stand in the low bits. -/
def lane (fn : VecFn) (sat : Bool) (a b c : Word) : LaneOut :=
  match fn with
  | .iadd => intResult sat (a.toInt + b.toInt)
  | .isub => intResult sat (a.toInt - b.toInt)
  | .imul => intResult sat (a.toInt * b.toInt)
  | .imin => { v := if a.slt b then a else b }
  | .imax => { v := if a.slt b then b else a }
  | .iabs => intResult sat (a.toInt.natAbs : Int)
  | .ineg => intResult sat (-a.toInt)
  | .icmpeq => { v := Fp.mask (a == b) }
  | .icmplt => { v := Fp.mask (a.slt b) }
  | .shl => if sat then intResult true (a.toInt * 2 ^ amount b) else { v := a <<< amount b }
  | .shr => { v := a >>> amount b }
  | .sra => { v := a.sshiftRight (amount b) }
  | .and => { v := a &&& b }
  | .or => { v := a ||| b }
  | .xor => { v := a ^^^ b }
  | .andn => { v := a &&& ~~~b }
  | .sel => { v := if c = 0#32 then b else a }
  | .mov => { v := a }
  | .fadd => { v := Fp.addRne a b }
  | .fsub => { v := Fp.subRne a b }
  | .fmul => { v := Fp.mulRne a b }
  | .ffma => { v := Fp.fma a b c }
  | .fmin => { v := Fp.fmin a b }
  | .fmax => { v := Fp.fmax a b }
  | .fabs => { v := Fp.fabs a }
  | .fneg => { v := Fp.fneg a }
  | .fcmpeq => { v := Fp.mask (Fp.feq a b) }
  | .fcmplt => { v := Fp.mask (Fp.flt a b) }
  | .fcmple => { v := Fp.mask (Fp.fle a b) }
  | .cvtF32I32 => let r := Fp.toI32 a; { v := r.1, intSat := r.2.1, nanZero := r.2.2 }
  | .cvtI32F32 => { v := Fp.ofI32 a }
  | .cvtToBf16 => let r := Fp.narrow Fp.bf16 false a; { v := BitVec.ofNat 32 r.1, narrowSat := r.2 }
  | .cvtToFp16 => let r := Fp.narrow Fp.fp16 false a; { v := BitVec.ofNat 32 r.1, narrowSat := r.2 }
  | .cvtToE5m2 => let r := Fp.narrow Fp.e5m2 sat a; { v := BitVec.ofNat 32 r.1, narrowSat := r.2 }
  | .cvtToE4m3 => let r := Fp.narrow Fp.e4m3 sat a; { v := BitVec.ofNat 32 r.1, narrowSat := r.2 }
  | .cvtFromBf16 => { v := Fp.widen Fp.bf16 (a.toNat % 2 ^ 16) }
  | .cvtFromFp16 => { v := Fp.widen Fp.fp16 (a.toNat % 2 ^ 16) }
  | .cvtFromE5m2 => { v := Fp.widen Fp.e5m2 (a.toNat % 2 ^ 8) }
  | .cvtFromE4m3 => { v := Fp.widen Fp.e4m3 (a.toNat % 2 ^ 8) }

/-- FN of each function (R134). -/
def code : VecFn → Nat
  | .iadd => 0x00 | .isub => 0x01 | .imul => 0x02 | .imin => 0x03 | .imax => 0x04 | .iabs => 0x05 | .ineg => 0x06
  | .icmpeq => 0x07 | .icmplt => 0x08 | .shl => 0x10 | .shr => 0x11 | .sra => 0x12 | .and => 0x13 | .or => 0x14
  | .xor => 0x15 | .andn => 0x16 | .sel => 0x17 | .mov => 0x18 | .fadd => 0x20 | .fsub => 0x21 | .fmul => 0x22
  | .ffma => 0x23 | .fmin => 0x24 | .fmax => 0x25 | .fabs => 0x26 | .fneg => 0x27 | .fcmpeq => 0x28 | .fcmplt => 0x29
  | .fcmple => 0x2A | .cvtF32I32 => 0x30 | .cvtI32F32 => 0x31 | .cvtToBf16 => 0x32 | .cvtToFp16 => 0x33
  | .cvtToE5m2 => 0x34 | .cvtToE4m3 => 0x35 | .cvtFromBf16 => 0x38 | .cvtFromFp16 => 0x39 | .cvtFromE5m2 => 0x3A
  | .cvtFromE4m3 => 0x3B

/-- Whether the function reads operand B (R177): it combines two operands. -/
def readsB : VecFn → Bool
  | .iabs => false | .ineg => false | .mov => false | .fabs => false | .fneg => false
  | .cvtF32I32 => false | .cvtI32F32 => false | .cvtToBf16 => false | .cvtToFp16 => false | .cvtToE5m2 => false
  | .cvtToE4m3 => false | .cvtFromBf16 => false | .cvtFromFp16 => false | .cvtFromE5m2 => false | .cvtFromE4m3 => false
  | _ => true

/-- Whether the function reads operand C (R177). -/
def readsC : VecFn → Bool
  | .sel => true
  | .ffma => true
  | _ => false

/-- The element width in bytes of a narrowing conversion's destination (R137), if it is one. -/
def narrowBytes : VecFn → Option Nat
  | .cvtToBf16 => some 2 | .cvtToFp16 => some 2 | .cvtToE5m2 => some 1 | .cvtToE4m3 => some 1
  | _ => none

/-- The element width in bytes of a widening conversion's source (R137), if it is one. -/
def widenBytes : VecFn → Option Nat
  | .cvtFromBf16 => some 2 | .cvtFromFp16 => some 2 | .cvtFromE5m2 => some 1 | .cvtFromE4m3 => some 1
  | _ => none

end Vec

namespace Red

/-- The per-element term (R143). -/
def term (fn : RedFn) (x : Word) : Word :=
  match fn with
  | .maxabs => Fp.fabs x
  | .ssq => Fp.mulRne x x
  | .norm => Fp.mulRne x x
  | .countNf => if Fp.isNonFinite x then 1#32 else 0#32
  | _ => x

/-- The combining operation (R143, R144). -/
def combine (fn : RedFn) (a b : Word) : Word :=
  match fn with
  | .max => Fp.fmax a b
  | .min => Fp.fmin a b
  | .maxabs => Fp.fmax a b
  | .countNf => a + b
  | _ => Fp.addRne a b

/-- Whether the function orders instead of adding. -/
def isExtreme : RedFn → Bool
  | .max => true | .min => true | .maxabs => true
  | _ => false

/-- Whether SKIPNF leaves the element out (R144). -/
def leftOut (fn : RedFn) (skipNf : Bool) (x : Word) : Bool := skipNf && decide (fn ≠ .countNf) && Fp.isNonFinite x

/-- Combine two positions of a tree, where none is an absent element (R144). -/
def combineOpt (fn : RedFn) : Option Word → Option Word → Option Word
  | none, b => b
  | a, none => a
  | some a, some b => some (combine fn a b)

/-- The tree's position of an element: +0.0 in a sum, absent in an extreme, when left out (R144). -/
def position (fn : RedFn) (skipNf : Bool) (x : Word) : Option Word :=
  if leftOut fn skipNf x then (if isExtreme fn then none else some 0#32) else some (term fn x)

/-- The last operation: NORM's square root (R143). -/
def last (fn : RedFn) (x : Word) : Word := if fn = .norm then Fp.sqrtF32 x else x

/-- The pairwise tree over 2^k elements (R144). -/
def treeOf (fn : RedFn) (skipNf : Bool) (k : Nat) (xs : List Word) : Word :=
  last fn (((Prod.tree (combineOpt fn) k (xs.map (position fn skipNf))).headD none).getD 0#32)

/-- The chain over a list (R144): sums start from 0, extremes from their first remaining element. -/
def chainOf (fn : RedFn) (skipNf : Bool) (xs : List Word) : Word :=
  let ts := (xs.filter (fun x => !leftOut fn skipNf x)).map (term fn)
  last fn (if isExtreme fn then
      (match ts with
       | [] => 0#32
       | t :: rest => rest.foldl (combine fn) (combine fn t t))
    else ts.foldl (combine fn) 0#32)

/-- RED function codes (R143). -/
def code : RedFn → Nat
  | .max => 0 | .min => 1 | .maxabs => 2 | .sum => 3 | .ssq => 4 | .norm => 5 | .countNf => 6

end Red

namespace Tbin

/-- TBIN's operation (R146, R177). -/
def apply (op : TbinOp) (a b : Word) : Word :=
  match op with
  | .fadd => Fp.addRne a b
  | .fsub => Fp.subRne a b
  | .fmul => Fp.mulRne a b
  | .fmax => Fp.fmax a b
  | .fmin => Fp.fmin a b

/-- The EXT code of the operation (R177). -/
def code : TbinOp → Nat
  | .fadd => 0 | .fsub => 1 | .fmul => 2 | .fmax => 3 | .fmin => 4

end Tbin
end Sys2Proof
end

