-- ==== Sys2Proof/Machine/Operands.lean ====
section
/-! DEFINITION. Operand forms of the core ops: cores and contexts, scalar registers and tokens, local-store addresses (R172),
routine tables (R195), and the row operands of VEC and RED (R131, R177). -/

namespace Sys2Proof.Machine

/-- The number of a core: x + 48 y. -/
def coreNo (x y : Nat) : Nat := x + 48 * y
/-- The core of a site. -/
def Site.no (p : Site) : Nat := coreNo p.x.val p.y.val
/-- A core in the event and counter form (R379): x in [5:0], y in [13:8]. -/
def coreRef (no : Nat) : Nat := no % 48 + no / 48 * 256
/-- The compute die of a core (R8): 4 * (y / 12) + x / 12. -/
def dieOf (no : Nat) : Nat := 4 * (no / 48 / 12) + no % 48 / 12
/-- Whether a core is an anchor core (R17). -/
def isAnchor (no : Nat) : Bool := decide (no % 48 % 12 % 4 = 0) && decide (no / 48 % 12 % 4 = 0)

/-- A core of the module. -/
def State.core (s : State) (no : Nat) : Core := SMap.get {} s.cores no
/-- Replace a core. -/
def State.setCore (s : State) (no : Nat) (c : Core) : State := { s with cores := SMap.set {} s.cores no c }
/-- A context of a core. -/
def Core.ctx (c : Core) (guest : Bool) : Ctx := if guest then c.guest else c.main
/-- Replace a context of a core. -/
def Core.setCtx (c : Core) (guest : Bool) (t : Ctx) : Core := if guest then { c with guest := t } else { c with main := t }
/-- The context of a site. -/
def State.ctx (s : State) (p : Site) : Ctx := (s.core (Site.no p)).ctx p.guest
/-- Replace the context of a site. -/
def State.setCtx (s : State) (p : Site) (t : Ctx) : State :=
  s.setCore (Site.no p) ((s.core (Site.no p)).setCtx p.guest t)
/-- A budget governor of a compute die. -/
def State.gov (s : State) (d : Nat) : Gov := SMap.get {} s.govs d
/-- Replace a governor. -/
def State.setGov (s : State) (d : Nat) (g : Gov) : State := { s with govs := SMap.set {} s.govs d g }

/-- Scalar register S[i]: S0 reads as 0 (R171). -/
def Ctx.sreg (c : Ctx) (i : BitVec 4) : Word := if i = 0#4 then 0#32 else SMap.get 0#32 c.sregs i.toNat
/-- Write S[i]: a write of S0 is ignored (R171). -/
def Ctx.setSreg (c : Ctx) (i : BitVec 4) (v : Word) : Ctx :=
  if i = 0#4 then c else { c with sregs := SMap.set 0#32 c.sregs i.toNat v }
/-- Token T[i] (R171). -/
def Ctx.token (c : Ctx) (i : Nat) : Nat := SMap.get 0 c.tokens i
/-- Write token T[i]. -/
def Ctx.setToken (c : Ctx) (i v : Nat) : Ctx := { c with tokens := SMap.set 0 c.tokens i v }
/-- The mode slot's layer mode entry; its reset value has RN = 1 (R97). -/
def Ctx.mode (c : Ctx) (i : Nat) : Word := SMap.get 0x200#32 c.modes i

/-- Whether every token of a mask holds at least 1 (R173). -/
def Ctx.tokensReady (c : Ctx) (mask : BitVec 16) : Bool :=
  (List.range 16).all (fun i => !mask.getLsbD i || decide (1 ≤ c.token i))
/-- Subtract 1 from every token of a mask (R173). -/
def Ctx.takeTokens (c : Ctx) (mask : BitVec 16) : Ctx :=
  (List.range 16).foldl (fun c i => if mask.getLsbD i then c.setToken i (c.token i - 1) else c) c

/-- The line of an LSA (R172): 32-bit wrap. -/
def Ctx.line (c : Ctx) (a : Lsa) : Nat := (c.sreg a.s + BitVec.ofNat 32 a.off.toNat).toNat
/-- The tile index of a TIX (R172). -/
def Ctx.tile (c : Ctx) (a : Tix) : Nat := (c.sreg a.s + BitVec.ofNat 32 a.off.toNat).toNat
/-- The word address of an LWA (R172). -/
def Ctx.word (c : Ctx) (a : Lwa) : Nat := (c.sreg a.s + BitVec.ofNat 32 a.off.toNat).toNat

/-- Whether a context may read (or write) `n` bytes from local offset `a` on (R172): its own range of local store, but for the
SRAM-tier lines of the toy chest (R208), and for the main context's reads the piggy bank. -/
def localOk (chestLines : Nat) (guest wr : Bool) (a n : Nat) : Bool :=
  if guest then decide (0x280000 ≤ a) && decide (a + n ≤ 0x300000)
  else (decide (a + n ≤ 0x280000) && (decide (a + n ≤ (10112 - chestLines) * 256) || decide (10112 * 256 ≤ a) || decide (chestLines = 0)))
    || (!wr && decide (0x400000 ≤ a) && decide (a + n ≤ 0x500000))
/-- Whether a context may read (or write) `n` lines from line `l` on (R172). -/
def linesOk (chestLines : Nat) (guest wr : Bool) (l n : Nat) : Bool := localOk chestLines guest wr (l * 256) (n * 256)
/-- The local offset of a device address in window 0b11 with its reserved bits 0 (R172). -/
def localOff (addr : Nat) : Option Nat := if addr / 2 ^ 32 = 0xC0000000 then some (addr % 2 ^ 32) else none
/-- The lines that `n` bytes from local offset `a` on touch, as a tracked range (R173). -/
def lsRange (a n : Nat) : Rng := { sp := .ls, lo := a / 256, n := if n = 0 then 0 else (a + n - 1) / 256 + 1 - a / 256 }

/-- Whether two ranges share a line or register. -/
def rngHit (a b : Rng) : Bool := decide (a.sp = b.sp) && decide (a.lo < b.lo + b.n) && decide (b.lo < a.lo + a.n)

/-- The byte offset of entry `i` of a routine table with entries of `w` bytes (R195); none past its count. -/
def tableAt (t : TableRef) (w i : Nat) : Option Nat := if i < t.count then some (t.line * 256 + i * w) else none
/-- A constant of the routine's table (R176). -/
def constAt (c : Core) (h : Hdr) (i : Nat) : Option Word :=
  (tableAt h.const 4 i).map (fun a => BitVec.ofNat 32 (c.lmem.readLE a 4))
/-- A descriptor of the routine's table with its local address (R176). -/
def descAt (c : Core) (h : Hdr) (i : Nat) : Option (Nat × TDesc) :=
  (tableAt h.desc 64 i).map (fun a => (a, Coding.parseDesc (rdBytes c.lmem.read a 64)))
/-- A quantisation record of the routine's table (R176). -/
def qrecAt (c : Core) (h : Hdr) (i : Nat) : Option QRec :=
  (tableAt h.qrec 32 i).map (fun a => Quant.parseRec (rdBytes c.lmem.read a 32))

/-- Where the rows of an operand come from or go to, registers and indices resolved (R131): memory at a byte base with a row
stride, a tile register, rows of a tile, or one word in every lane. -/
inductive RowPlace where
  | oc (base stride : Nat)
  | ls (base stride : Nat)
  | ta (n : Nat)
  | tile (row0 : Nat) (acc : SMap Word)
  | all (w : Word)
  deriving DecidableEq, Repr

/-- The byte address of word (i, j) of tile register n: 32 x 32 words of 4 bytes (R146). -/
def taAddr (n i j : Nat) : Nat := n * 4096 + (i * 32 + j) * 4

/-- Row `i` of an operand, 64 lanes; `w` is the width in bytes of a lane's element, 4 except in a widening source (R137). -/
def rowRead (c : Core) (pl : RowPlace) (w i : Nat) : List Word :=
  match pl with
  | .oc base stride => (List.range 64).map (fun j =>
      BitVec.ofNat 32 (c.oc.readLE (if w = 4 then base + i * stride + 4 * j else base + i * 64 * w + j * w) w))
  | .ls base stride => (List.range 64).map (fun j =>
      BitVec.ofNat 32 (c.lmem.readLE (if w = 4 then base + i * stride + 4 * j else base + i * 64 * w + j * w) w))
  | .ta n => (List.range 64).map (fun j => BitVec.ofNat 32 (c.ta.readLE (taAddr n (2 * i + j / 32) (j % 32)) 4))
  | .tile row0 acc => (List.range 64).map (fun j => SMap.get 0#32 acc ((row0 + i) * 64 + j))
  | .all v => List.replicate 64 v

/-- Write row `i` of a destination: the lanes `vs` from lane `lane0` on, `w` bytes each (R131, R137). -/
def rowWrite (c : Core) (pl : RowPlace) (w i lane0 : Nat) (vs : List Word) : Core :=
  let bytes := (vs.map (fun v => leBytes w v.toNat)).flatten
  match pl with
  | .oc base stride =>
    { c with oc := c.oc.writeList ((if w = 4 then base + i * stride else base + i * 64 * w) + lane0 * w) bytes }
  | .ls base stride =>
    { c with lmem := c.lmem.writeList ((if w = 4 then base + i * stride else base + i * 64 * w) + lane0 * w) bytes }
  | .ta n => { c with ta := c.ta.writeList (taAddr n (2 * i) 0 + lane0 * 4) bytes }
  | _ => c

/-- The number of lines that rows of an operand touch from its base line on: N rows at a stride, or N * 64 * w bytes. -/
def rowSpan (w n stride : Nat) : Nat := if w = 4 then (n - 1) * stride + 1 else (n * 64 * w + 255) / 256

/-- The oldest FULL tile-queue entry of a context (R122). -/
def Core.tqFull (c : Core) (guest : Bool) : Option TqEntry := c.tq.find? (fun e => e.full && e.guest == guest)

/-- The resolved place of an operand spec (R131, R177): `none` where the spec names none of them. A TQ source takes the entry
that is there when the op runs. -/
def placeOf (c : Core) (guest : Bool) (stride : Nat) : Spec → Option RowPlace
  | .none _ => none
  | .oc line st => some (.oc ((((c.ctx guest).hdr.ocBase) + line.toNat) * 256) (st.toNat * 256))
  | .tq row0 _ => (c.tqFull guest).map (fun e => .tile row0.toNat e.acc)
  | .ta n _ => some (.ta n.toNat)
  | .ls s off => some (.ls ((c.ctx guest).line ⟨s, off.zeroExtend 14⟩ * 256) (stride * 256))
  | .imm i _ => (constAt c (c.ctx guest).hdr i.toNat).map .all
  | .sreg n _ => some (.all ((c.ctx guest).sreg n))
  | .reserved _ => none

/-- The tracked ranges of an operand of `n` rows (R173). -/
def rangesOf (c : Core) (guest : Bool) (lsStride w n : Nat) : Spec → List Rng
  | .oc line st => [{ sp := .oc, lo := (c.ctx guest).hdr.ocBase + line.toNat, n := rowSpan w n st.toNat }]
  | .ta r _ => [{ sp := .ta, lo := r.toNat, n := 1 }]
  | .ls s off => [{ sp := .ls, lo := (c.ctx guest).line ⟨s, off.zeroExtend 14⟩, n := rowSpan w n lsStride }]
  | _ => []

/-- Whether a spec's reserved bits are clear and its kind is one of R177. -/
def specRsvOk : Spec → Bool
  | .none p => decide (p = 0#15)
  | .tq _ r => decide (r = 0#9)
  | .ta _ r => decide (r = 0#11)
  | .imm _ r => decide (r = 0#9)
  | .sreg _ r => decide (r = 0#11)
  | .reserved _ => false
  | _ => true

/-- Whether a spec reads the tile queue. -/
def isTq : Spec → Bool
  | .tq _ _ => true
  | _ => false

/-- Whether a spec names no operand. -/
def isNone : Spec → Bool
  | .none _ => true
  | _ => false

/-- Whether a spec is of kind OC or LS (R137). -/
def isMem : Spec → Bool
  | .oc _ _ => true
  | .ls _ _ => true
  | _ => false

/-- A check: the fault code unless the condition holds. -/
def need (ok : Bool) (code : Nat) : Option Nat := if ok then none else some code

/-- The first fault of a list of checks. -/
def firstFault : List (Option Nat) → Option Nat
  | [] => none
  | some f :: _ => some f
  | none :: t => firstFault t

/-- The fault that an op ends with where its checks find these (R183): an opcode fault, else a descriptor fault, since the other checks
read the word and the descriptor; among other faults of several codes the spec states none, and the code is a free one of them (log 68). -/
def faultOf (checks : List (Option Nat)) : Option Nat :=
  let codes := checks.filterMap id
  if codes.contains 0x01 then some 0x01
  else if codes.contains 0x02 then some 0x02
  else match codes with
    | [] => none
    | c :: cs => if cs.all (fun d => d == c) then some c else codes[Config.faultChoice codes % codes.length]?

/-- The fault of an operand of `n` rows, if any (R138, R139, R146, R172, R177): operand-cache lines outside the allocation,
local-store lines outside the context's range, tile registers of another context or of no anchor core, a constant beyond the
table. -/
def specFault (c : Core) (no : Nat) (guest wr : Bool) (lsStride w n : Nat) (sp : Spec) : Option Nat :=
  let t := c.ctx guest
  match sp with
  | .oc line st => if t.hdr.ocLines < line.toNat + rowSpan w n st.toNat then some 0x04 else none
  | .tq row0 _ => if wr || decide (63 < row0.toNat + n - 1) then some 0x06 else none
  | .ta r _ =>
    faultOf [need (isAnchor no && guest == decide (12 ≤ r.toNat)) 0x05, need (n ≤ 16) 0x06]
  | .ls s off =>
    if linesOk c.chestLines guest wr (t.line ⟨s, off.zeroExtend 14⟩) (rowSpan w n lsStride) then none else some 0x03
  | .imm i _ => if wr then some 0x06 else if (constAt c t.hdr i.toNat).isSome then none else some 0x03
  | .sreg _ _ => if wr then some 0x06 else none
  | .none _ => some 0x06
  | .reserved _ => some 0x01

end Sys2Proof.Machine
end

