-- ==== Sys2Proof/Machine/Units.lean ====
section
/-! DEFINITION. Unit status words (R343, R366, R367) and how commands meet them (R368, R369). -/

namespace Sys2Proof.Machine

/-- A domain status word but its PIN bit (R343). -/
def Domain.word (d : Domain) (kind : Nat) : Nat :=
  d.rung + d.target * 8 + d.phase * 64 + b2n d.qd * 256 + (if kind = 0 then d.hint * 1024 else 0) + kind * 65536

/-- STATE of a job slot as a number (R367). -/
def SlotState.code : SlotState → Nat
  | .empty => 0 | .loading => 1 | .ready => 2 | .running => 3 | .replaying => 4 | .halted => 5 | .unloading => 6
  | .haltedBeyond => 7
/-- The status word of a job slot (R367). -/
def Slot.word (x : Slot) : Nat :=
  x.st.code + b2n x.st.loaded * 16 + b2n x.guest * 32 + b2n x.rollback.isSome * 64 + 8 * 65536

/-- Whether rows were last held by an owner other than `owner` (R297). -/
def Mem.scrubDue (m : Mem) (p : PartRec) : Bool :=
  m.owners.any (fun (g, b, n, o) => (groupsOf p.groups).contains g && decide (o ≠ p.owner) && decide (b < p.baseRow + p.rows) &&
    decide (p.baseRow < b + n))
/-- Whether a loaded job slot owns a partition (R297, R367). -/
def State.ownerLoaded (s : State) (p : PartRec) : Bool := decide (p.owner < 4) && (s.slot p.owner).st.loaded
/-- The status word of a partition (R367). -/
def State.partWord (s : State) (k : Nat) : Nat :=
  let p := s.mem.part k
  (if p.scrubbing then 2 else b2n p.valid) + p.owner * 16 + b2n (p.valid && s.mem.scrubDue p) * 128 +
    b2n (p.valid && s.ownerLoaded p) * 256 + 9 * 65536
/-- The service word of a memory port (R367). -/
def MPort.word (p : MPort) : Nat := p.st + p.thermal * 16 + p.rate * 64 + 10 * 65536

/-- A link port. -/
def State.lport (s : State) (p : Nat) : LPort := SMap.get {} s.links.ports p
/-- Replace a link port. -/
def State.setLport (s : State) (p : Nat) (x : LPort) : State := { s with links := { s.links with ports := SMap.set {} s.links.ports p x } }
/-- Change a link port. -/
def State.modLport (s : State) (p : Nat) (f : LPort → LPort) : State := s.setLport p (f (s.lport p))
/-- A pair, d * 2 + e. -/
def State.lpair (s : State) (p : Nat) : LPair := SMap.get {} s.links.pairs p
/-- Whether a port carries flits (R262, R274, R277): not while it retrains or changes its width. -/
def LPort.carries (p : LPort) : Bool := p.up && !p.retraining && p.changing.isNone
/-- The status word of a pair (R367). -/
def State.pairWord (s : State) (i : Nat) : Nat :=
  let a := s.lport (2 * i)
  let b := s.lport (2 * i + 1)
  let whole (p : LPort) : Bool := p.carries && decide (p.width = 24)
  let st := if (s.links.k.getD (i / 2) 1) ≤ 1 then 4
    else if (s.lpair i).down then 2 else if whole a && whole b then 0 else if a.carries || b.carries then 1
    else if a.retraining || b.retraining || !s.links.configured then 3 else 2
  st + b2n a.carries * 16 + b2n b.carries * 32 + b2n (decide (SMap.get 0 s.links.detour (i / 2) ≠ 0)) * 64 + 11 * 65536

/-- STATE of a DMA channel (R367). -/
def DmaChan.stateCode (c : DmaChan) : Nat := if !c.valid then 3 else if c.full then 2 else if c.queue.isEmpty then 0 else 1
/-- The status word of a DMA channel (R367). -/
def DmaChan.word (c : DmaChan) : Nat := c.stateCode + c.owner * 16 + 12 * 65536

/-- The DMA channel that a unit index of kind 12 names: die number * 32 + channel (R366). -/
def chanOfUnit (i : Nat) : Nat := (i / 32 - 16) * 32 + i % 32
/-- The logical number of a core in the unit form (R366). -/
def coreOfUnit (i : Nat) : Nat := coreNo (i % 64) (i / 256 % 64)

/-- Whether a descriptor names a unit that exists (R366). -/
def unitExists (kind i : Nat) : Bool :=
  match kind with
  | 0 => decide (i % 64 < 48) && decide (i / 256 < 48) && decide (i / 64 % 4 = 0)
  | 1 => decide (i < 16)
  | 2 => decide (16 ≤ i) && decide (i < 20)
  | 3 => decide (20 ≤ i) && decide (i < 24)
  | 4 => decide (i = 24)
  | 5 => decide (i < 48)
  | 6 => decide (i < 16)
  | 7 => decide (i = 0)
  | 8 => decide (i < 4)
  | 9 => decide (i < 8)
  | 10 => decide (i < 48)
  | 11 => decide (i < 8)
  | 12 => decide (16 ≤ i / 32) && decide (i / 32 < 24) && (decide (i / 32 < 20) || decide (i % 32 < 16))
  | _ => false

/-- Whether a loaded slot owns a partition with a group of memory die `m` (R293, R305, R339). -/
def State.dieOwned (s : State) (m : Nat) : Bool :=
  (List.range 8).any (fun k => let p := s.mem.part k; p.valid && s.ownerLoaded p && decide (0 < p.onDie m))
/-- PIN (R278, R305): a memory port under a loaded slot's partition, and a link port while slot 0's step is in progress. -/
def State.pinned (s : State) (kind i : Nat) : Bool :=
  if kind = 5 then s.dieOwned (i / 12)
  else if kind = 6 then decide ((s.slot 0).st = .running) || decide ((s.slot 0).st = .replaying)
  else false

/-- The status word of a unit (R343, R367). -/
def State.unitWord (s : State) (kind i : Nat) : Nat :=
  if kind = 8 then (s.slot i).word
  else if kind = 9 then s.partWord i
  else if kind = 10 then (s.mem.port i).word
  else if kind = 11 then s.pairWord i
  else if kind = 12 then (s.chan (chanOfUnit i)).word
  else if kind = 0 then (s.domain (domKey 0 (coreOfUnit i))).word 0
  else (s.domain (domKey kind i)).word kind + b2n (s.pinned kind i) * 512

/-- The key of firmware's view of a unit. -/
def viewKey (kind i : Nat) : Nat := kind * 2 ^ 24 + i
/-- What firmware compares of a word: not a slot's state, nor a partition's OWNER_LOADED or a port's PIN, which only firmware changes (log 16). -/
def viewPart (kind w : Nat) : Nat := if kind = 8 then 0 else if kind = 9 then w - w / 256 % 2 * 256
  else if kind = 5 ∨ kind = 6 then w - w / 512 % 2 * 512 else w
/-- Yucon firmware reads a unit's word (R369): a word that differs from its view replaces the view, counts RECONCILE and posts
RECONCILE. The first reading of a unit sets the view (log 16). -/
def State.observe (s : State) (kind i : Nat) : State :=
  let w := s.unitWord kind i
  match s.mail.view.lookup (viewKey kind i) with
  | none => s.modMail (fun m => { m with view := m.view ++ [(viewKey kind i, w)] })
  | some v =>
    if viewPart kind v = viewPart kind w then s
    else
      let s := s.modMail (fun m => { m with view := m.view.map (fun e => if e.1 = viewKey kind i then (e.1, w) else e) })
      (s.count { id := Ctr.reconcile }).post 0x0701 .reconcile none (unitRef kind i) (payload [(1, 0), (4, v), (4, w)])
/-- Firmware has made or learned of a change of a unit: its view follows (R369, log 16). -/
def State.syncView (s : State) (kind i : Nat) : State :=
  let w := s.unitWord kind i
  s.modMail (fun m => { m with view := m.view.map (fun e => if e.1 = viewKey kind i then (e.1, w) else e) })
/-- Complete a command whose action changed its unit (R365, R369). -/
def State.finish (s : State) (c : Cmd) (status : Nat) (detail : Nat := 0) (result : Nat := 0) : State :=
  (s.complete c status detail result).syncView c.unitKind c.unitIndex

/-- The expected-state check of a command (R368): the status word of its unit, and whether it meets EXPECT. -/
def State.expect (s : State) (c : Cmd) : Nat × Bool :=
  if c.unitKind = 0xFF then (0, true)
  else
    let w := s.unitWord c.unitKind c.unitIndex
    (w, decide (w &&& c.fieldAt 0x10 4 = c.fieldAt 0x0C 4 &&& c.fieldAt 0x10 4))

/-- Replace the first command equal to `a`. -/
def swapCmd (a b : Cmd) : List Cmd → List Cmd
  | [] => []
  | x :: t => if x = a then b :: t else x :: swapCmd a b t
/-- A command with OBSERVED set to its unit's word (R364, R368). -/
def State.noting (s : State) (c : Cmd) : Cmd := { c with observed := (s.expect c).1 }
/-- The state in which a command's unit has been observed (R368, R369). -/
def State.noted (s : State) (c : Cmd) : State :=
  (if c.unitKind = 0xFF then s else s.observe c.unitKind c.unitIndex).modMail (fun m => { m with cmds := swapCmd c (s.noting c) m.cmds })
/-- Begin a command's action (R368): its unit is observed; a mismatch completes it STATE_MISMATCH, else `act` runs with OBSERVED
set to the word before the action. -/
def State.checked (s : State) (c : Cmd) (act : State → Cmd → State) : State :=
  if (s.expect c).2 then act (s.noted c) (s.noting c) else (s.noted c).complete (s.noting c) 1

/-- Mark a command's action as begun; it completes later (R370, Long). -/
def State.startLong (s : State) (c : Cmd) : State := s.modMail (fun m => { m with cmds := swapCmd c { c with active := true } m.cmds })

/-- Whether an opcode's command is of the boundary class (R370, R372). -/
def boundaryOp (op : Nat) : Bool := [0x0102, 0x0120, 0x0121, 0x0130, 0x0132].contains op
/-- The next command of a ring to act (R370), if its opcode is `opcode`: commands act in ring order, and only those of the boundary
class let others of their ring pass. -/
def State.nextCmd (s : State) (r opcode : Nat) : Option Cmd :=
  let mine := s.mail.cmds.filter (fun c => decide (c.ring = r) && !c.active)
  (mine.find? (fun c => boundaryOp c.opcode == boundaryOp opcode)).bind (fun c => if c.opcode = opcode then some c else none)
/-- The oldest begun command with an opcode that meets a condition. -/
def State.activeCmd (s : State) (opcode : Nat) (p : Cmd → Bool) : Option Cmd :=
  s.mail.cmds.find? (fun c => c.active && decide (c.opcode = opcode) && p c)

end Sys2Proof.Machine
end

