-- ==== Sys2Proof/Machine/Arbiters.lean ====
section
/-! DEFINITION. Arbiters (chapter 14): rounds, parking, FREEZE and MODE. -/

namespace Sys2Proof.Machine

/-- The number of arbiter instances of a die (R335). -/
def arbCount (die : Nat) : Nat := if die < 16 then 780 else if die < 20 then 13 else if die < 24 then 7 else 0
/-- Replace an arbiter instance. -/
def State.setArb (s : State) (die inst : Nat) (a : Arb) : State :=
  { s with arbs := SMap.set (s.arbBase die) s.arbs (arbKey die inst) a }
/-- The key of an instance's counter (R336). -/
def ckArb (id die inst : Nat) : CKey := { id := id, die := some die, unit := some inst }

/-- The base priority of a class (R328): LC 8, COLL 4, BULK 0. -/
def basePrio (cls : Nat) : Nat := if cls = 0 then 8 else if cls = 1 then 4 else 0
/-- The priority of a requester. -/
def Arb.p (a : Arb) (r : Nat) : Nat := SMap.get 0 a.prio r

/-- A requester's place in index order after the last one granted (R329). -/
def Arb.turn (a : Arb) (r : Nat) : Nat := if a.last ≤ r then r else r + 65536
/-- Whether request `x` wins over request `y` (R329): the higher P; below 15 the class order, then index order; at 15 index
order alone. -/
def Arb.beats (a : Arb) (x y : Nat × Nat) : Bool :=
  if a.p x.1 ≠ a.p y.1 then decide (a.p y.1 < a.p x.1)
  else if a.p x.1 < 15 ∧ x.2 ≠ y.2 then decide (x.2 < y.2)
  else decide (a.turn x.1 < a.turn y.1)
/-- The winner of a round. -/
def Arb.winner (a : Arb) : List (Nat × Nat) → Option (Nat × Nat)
  | [] => none
  | x :: t => match a.winner t with
    | none => some x
    | some y => if a.beats y x then some y else some x

/-- Insert a request by its requester's index. -/
def insReq (x : Nat × Nat) : List (Nat × Nat) → List (Nat × Nat)
  | [] => [x]
  | y :: t => if x.1 < y.1 then x :: y :: t else y :: insReq x t
/-- Requests arrive in one cycle, in index order (R328, R331): at an empty requester P is set to the base of its class, but in PARKED mode P does
not change. -/
def Arb.arrive (a : Arb) (xs : List (Nat × Nat)) : Arb :=
  (xs.foldl (fun l x => insReq x l) []).foldl (fun (a : Arb) x =>
    if a.active.any (fun y => decide (y.1 = x.1)) then a
    else { a with active := a.active ++ [x], prio := if a.normal then SMap.set 0 a.prio x.1 (basePrio x.2) else a.prio }) a
/-- Requests end without a grant: P stays (R328). -/
def Arb.withdraw (a : Arb) (rs : List Nat) : Arb :=
  { a with active := a.active.filter (fun x => !rs.contains x.1) }

/-- The least slots of a class in a window (R299). -/
def minSlots (cls : Nat) : Nat := if cls = 2 then 26 else 64
/-- BULK's cap by the port's thermal state (R299). -/
def bulkCap (thermal : Nat) : Nat := if thermal = 0 then 256 else if thermal = 1 then 128 else 51
/-- The class to which a memory port's window gives the next slot (R299): a class below its minimum first, then LC, COLL,
BULK, and BULK never beyond its cap. -/
def Arb.slotClass (a : Arb) (thermal : Nat) (ready : List (Nat × Nat)) : Option Nat :=
  let has (c : Nat) : Bool := ready.any (fun x => decide (x.2 = c)) && (decide (c ≠ 2) || decide (SMap.get 0 a.used 2 < bulkCap thermal))
  match [0, 1, 2].find? (fun c => has c && decide (SMap.get 0 a.used c < minSlots c)) with
  | some c => some c
  | none => [0, 1, 2].find? has

/-- A granted request leaves its requester, whose P returns to base (R328). -/
def Arb.grant (a : Arb) (x : Nat × Nat) : Arb :=
  { a with
    active := a.active.erase x, prio := SMap.set 0 a.prio x.1 (basePrio x.2), waits := SMap.set 0 a.waits x.1 0
    last := x.1 + 1, busy := some x.1, used := SMap.modify 0 a.used x.2 (fun n => n + 1) }
/-- A request that took part and lost ages (R328). -/
def Arb.lose (a : Arb) (x : Nat × Nat) : Arb :=
  { a with prio := SMap.set 0 a.prio x.1 (min 15 (a.p x.1 + 1)), waits := SMap.modify 0 a.waits x.1 (fun n => n + 1) }

/-- Park what cannot be granted, while the queue of 8 has room (R331); with the number parked. -/
def Arb.park (a : Arb) : Arb × Nat :=
  let n := min a.active.length (8 - a.queue.length)
  ({ a with active := a.active.drop n, queue := a.queue ++ a.active.take n }, n)

/-- Grant the head of the pending queue, if the resource downstream can take it (R331). -/
def Arb.fromQueue (a : Arb) (can : Nat → Bool) : Option (Arb × (Nat × Nat)) :=
  match a.queue with
  | [] => none
  | x :: t => if can x.1 then
      some ({ a with queue := t, last := x.1 + 1, busy := some x.1, drainQueue := a.drainQueue && !t.isEmpty }, x)
    else none

/-- Count a grant. -/
def State.arbGrant (s : State) (die inst : Nat) (a : Arb) : State :=
  (s.setArb die inst a).count (ckArb Ctr.arbGrants die inst)

/-- A round in NORMAL mode (R329, R334). -/
def State.roundNormal (s : State) (die inst : Nat) (a : Arb) (can : Nat → Bool) : State :=
  if a.drainQueue then
    match a.fromQueue can with
    | some (a', _) => s.arbGrant die inst a'
    | none => s.setArb die inst { a with busy := none }
  else
    let ready := a.active.filter (fun x => can x.1)
    let port := 16 ≤ die ∧ die < 20 ∧ inst < 12
    let part := if port then
        (match a.slotClass (s.mem.port ((die - 16) * 12 + inst)).thermal ready with
         | some c => ready.filter (fun x => decide (x.2 = c))
         | none => [])
      else ready
    match a.winner part with
    | none => s.setArb die inst { a with busy := none }
    | some w =>
      let lost := part.erase w
      let sat := (lost.filter (fun x => decide (a.p x.1 = 15))).length
      let a1 := (lost.foldl Arb.lose a).grant w
      let worst := (lost.map (fun x => SMap.get 0 a1.waits x.1)).foldl max 0
      ((s.arbGrant die inst a1).count (ckArb Ctr.arbSatRounds die inst) sat).peak (ckArb Ctr.arbMaxWait die inst) worst

/-- A round in PARKED mode (R331): the queue's head, else the oldest request; what is left parks, and requests beyond a full
queue wait. -/
def State.roundParked (s : State) (die inst : Nat) (a : Arb) (can : Nat → Bool) : State :=
  let go (a : Arb) (granted : Bool) : State :=
    let (a2, n) := a.park
    let s := (s.setArb die inst a2).count (ckArb Ctr.arbParked die inst) n
    let s := s.count (ckArb Ctr.arbParkFull die inst) a2.active.length
    if granted then s.count (ckArb Ctr.arbGrants die inst) else s
  match a.queue with
  | _ :: _ => match a.fromQueue can with
    | some (a', _) => go a' true
    | none => go { a with busy := none } false
  | [] => match a.active with
    | x :: t => if can x.1 then go { a with active := t, last := x.1 + 1, busy := some x.1 } true else go { a with busy := none } false
    | [] => s.setArb die inst { a with busy := none }

/-- ARB_ROUND (R329 to R332): requests arrive and end, then the arbiter decides, unless FREEZE is in force. -/
def execArbRound (r : RoundArgs) (s : State) : Host.Outcome State Fault Refusal :=
  let die := r.die.val
  let inst := r.inst.toNat
  if arbCount die ≤ inst then .next s
  else
    let a := ((s.arb die inst).withdraw r.ends).arrive (r.arrive.map (fun x => (x.1, x.2.val)))
    let a := if r.window then { a with used := [] } else a
    let can (i : Nat) : Bool := r.ready.contains i
    if a.freeze then
      let (a1, n) := if a.normal then (a, 0) else a.park
      let s := ((s.setArb die inst { a1 with busy := none }).count (ckArb Ctr.arbFrozenCycles die inst)).count
        (ckArb Ctr.arbParked die inst) n
      .next (if a.normal then s else s.count (ckArb Ctr.arbParkFull die inst) a1.active.length)
    else if a.normal then .next (s.roundNormal die inst a can)
    else .next (s.roundParked die inst a can)

/-- Whether a write of ARB_CTRL asks for another MODE than the arbiter has. -/
def Arb.modeAsked (a : Arb) (parked : Option Bool) : Bool :=
  match parked with
  | none => false
  | some p => p == a.normal
/-- A write of FREEZE and MODE to one arbiter (R332, R334): MODE changes only while FREEZE is 1 and stays 1. -/
def Arb.ctrl (a : Arb) (freeze : Bool) (parked : Option Bool) : Arb :=
  if a.modeAsked parked && a.freeze && freeze then
    if a.normal then { a with normal := false, drainQueue := false }
    else { a with
      normal := true, drainQueue := !a.queue.isEmpty
      prio := (a.active ++ a.queue).foldl (fun m x => SMap.set 0 m x.1 (basePrio x.2)) a.prio }
  else { a with freeze := freeze }
/-- Whether a write's MODE change is refused (R334). -/
def Arb.refuses (a : Arb) (freeze : Bool) (parked : Option Bool) : Bool := a.modeAsked parked && !(a.freeze && freeze)

/-- A write of ARB_CTRL (R335): to one instance, or with ALL to every instance of the die. INST is selected. -/
def State.arbWrite (s : State) (die inst : Nat) (all freeze : Bool) (parked : Option Bool) : State :=
  let s := { s with arbInst := SMap.set 0 s.arbInst die inst }
  let parked := if s.boot.testDies.contains die && decide (parked = some false) then none else parked
  if all then
    let bad := (List.range (arbCount die)).filter (fun i => (s.arb die i).refuses freeze parked)
    let s := bad.foldl (fun s i => s.count (ckArb Ctr.arbModeRefused die i)) s
    let one (e : Nat × Arb) : Nat × Arb :=
      if e.1 / 4096 = die ∧ e.1 % 4096 ≠ 4095 then (e.1, e.2.ctrl freeze parked) else e
    { s with arbs := SMap.set {} (s.arbs.map one) (arbKey die 4095) ((s.arbBase die).ctrl freeze parked) }
  else if arbCount die ≤ inst then s
  else
    let a := s.arb die inst
    let s := s.setArb die inst (a.ctrl freeze parked)
    if a.refuses freeze parked then s.count (ckArb Ctr.arbModeRefused die inst) else s

/-- ARB_CTRL of a die as it reads (R335). -/
def State.arbCtrlWord (s : State) (die : Nat) : Nat :=
  let inst := SMap.get 0 s.arbInst die
  let a := s.arb die inst
  b2n a.freeze + b2n (!a.normal) * 2 + inst * 256
/-- ARB_STAT of a die (R333, R335). DRAINED reads 1 at an arbiter that is as reset left it, the table's reset value (DEDUCED, log 99). -/
def State.arbStatWord (s : State) (die : Nat) : Nat :=
  let inst := SMap.get 0 s.arbInst die
  let a := s.arb die inst
  b2n (decide (a = {}) || (a.freeze && a.busy.isNone)) + b2n a.freeze * 2 + b2n (!a.normal) * 4 + a.queue.length * 16 + inst * 256
/-- A write of the whole ARB_CTRL register (R335). -/
def State.arbCtrlWrite (s : State) (die v : Nat) : State :=
  s.arbWrite die (fld v 19 8) (bitOf v 2) (bitOf v 0) (some (bitOf v 1))

/-- ARB_FREEZE (R332). -/
def execArbFreeze (die : Fin 25) (inst : BitVec 12) (all : Bool) (s : State) : Host.Outcome State Fault Refusal :=
  .next (s.arbWrite die.val inst.toNat all true none)
/-- ARB_UNFREEZE (R332). -/
def execArbUnfreeze (die : Fin 25) (inst : BitVec 12) (all : Bool) (s : State) : Host.Outcome State Fault Refusal :=
  .next (s.arbWrite die.val inst.toNat all false none)
/-- ARB_MODE_CHANGE (R334): a write of MODE, with the FREEZE bit of the same write. -/
def execArbModeChange (die : Fin 25) (inst : BitVec 12) (all freeze parked : Bool) (s : State) :
    Host.Outcome State Fault Refusal :=
  .next (s.arbWrite die.val inst.toNat all freeze (some parked))

/-- Switch every arbiter of a die (R333): FREEZE, MODE, and FREEZE cleared. -/
def State.arbAll (s : State) (die : Nat) (parked : Bool) : State :=
  ((s.arbWrite die 0 true true none).arbWrite die 0 true true (some parked)).arbWrite die 0 true false none

end Sys2Proof.Machine
end

