-- ==== Sys2Proof/Machine/CollMath.lean ====
section
/-! DEFINITION. Contributions (R227 to R233): their sections, their decode, when one is malformed, and the error memory. -/

namespace Sys2Proof
namespace Coll

/-- BF16 of an FP32 value, to nearest-even (R50). -/
def toBf16 (v : Word) : Nat := (Fp.narrow Fp.bf16 false v).1

/-- k of a TOP section (R223). -/
def topK (kLog2 tiles : Nat) : Nat := tiles * 4096 / 2 ^ kLog2
/-- Bytes of a TOP section (R228). -/
def topBytes (kLog2 tiles : Nat) : Nat := 32 + 4 * topK kLog2 tiles
/-- Whether a mode has a TOP section. -/
def hasTop (mode : Nat) : Bool := mode == 1 || mode == 3
/-- Whether a mode has a SIGN section. -/
def hasSign (mode : Nat) : Bool := mode == 2 || mode == 3
/-- BODY_BYTES of a bucket (R228). -/
def bodyBytes (mode kLog2 tiles : Nat) : Nat :=
  if mode = 0 then 2 * (tiles * 4096)
  else (if hasTop mode then topBytes kLog2 tiles else 0) + (if hasSign mode then tiles * 4096 / 64 + tiles * 4096 / 8 else 0)

/-- The segment counts of a TOP section (R229). -/
def topCounts (rd : Nat → Byte) : List Nat := (List.range 16).map (fun s => rdLE rd (2 * s) 2)
/-- The TOP words of a body: (element, BF16 value), in stored order (R229). -/
def topList (rd : Nat → Byte) : List (Nat × Half) :=
  let segs := ((topCounts rd).zipIdx.map (fun (n, s) => List.replicate n s)).flatten
  segs.zipIdx.map (fun (s, w) =>
    let v := rdLE rd (32 + 4 * w) 4
    (s * 65536 + v % 65536, BitVec.ofNat 16 (v / 65536)))

/-- decode of R231: the FP32 value of every element. -/
def decode (rd : Nat → Byte) (mode kLog2 tiles : Nat) : List Word :=
  let n := tiles * 4096
  if mode = 0 then (List.range n).map (fun e => Fp.ofBf16 (BitVec.ofNat 16 (rdLE rd (2 * e) 2)))
  else
    let top := if hasTop mode then topList rd else []
    let base := if hasTop mode then topBytes kLog2 tiles else 0
    (List.range n).map (fun e =>
      match top.lookup e with
      | some v => Fp.ofBf16 v
      | none =>
        if hasSign mode then
          let m := BitVec.ofNat 32 (rdLE rd (base + e / 256 * 4) 4)
          if bitOf (rd (base + n / 64 + e / 8)).toNat (e % 8) then Fp.fneg m else m
        else 0#32)

/-- Whether a body's TOP section breaks R229 or R232. -/
def topBad (rd : Nat → Byte) (kLog2 tiles : Nat) : Bool :=
  let cs := topCounts rd
  let es := (topList rd).map (fun x => x.1)
  decide (cs.sum ≠ topK kLog2 tiles) || cs.zipIdx.any (fun (c, s) => decide (tiles * 4096 ≤ s * 65536) && decide (c ≠ 0)) ||
  es.any (fun e => decide (tiles * 4096 ≤ e)) || (es.zip (es.drop 1)).any (fun (a, b) => decide (b ≤ a))

/-- The k elements of largest magnitude, a tie going to the lower index (R229), by index. -/
def selectTop (x : List Word) (k : Nat) : List Nat :=
  let key (e : Nat) : Nat := (x.getD e 0#32).toNat % 2 ^ 31
  let better (a b : Nat) : Bool := decide (key b < key a) || (decide (key a = key b) && decide (a < b))
  (List.range x.length).filter (fun e => decide (((List.range x.length).filter (fun f => better f e)).length < k))

/-- The mean of a SIGN group (R230): the exact quotient of the tree sum by the count, rounded once. -/
def groupMean (x : List Word) (top : List Nat) (g : Nat) : Word :=
  let pos := (List.range 256).map (fun i => 256 * g + i)
  let vals := pos.map (fun e => if top.contains e then 0#32 else x.getD e 0#32 &&& 0x7FFFFFFF#32)
  let n := (pos.filter (fun e => !top.contains e)).length
  let s := (Prod.tree Fp.addRne 8 vals).headD 0#32
  if n = 0 then 0#32
  else if Fp.isNonFinite s then s
  else BitVec.ofNat 32 (Frac.round Fp.fp32 (Frac.div (Frac.ofF32 s) (Frac.ofInt n)))

/-- The body of a contribution (R228 to R230). -/
def encode (x : List Word) (mode kLog2 tiles : Nat) : List Byte :=
  let n := tiles * 4096
  let bf (v : Word) : Nat := toBf16 v
  if mode = 0 then (x.map (fun v => leBytes 2 (bf v))).flatten
  else
    let top := if hasTop mode then selectTop x (topK kLog2 tiles) else []
    let seg (s : Nat) : Nat := (top.filter (fun e => decide (e / 65536 = s))).length
    let tops := if hasTop mode then
        ((List.range 16).map (fun s => leBytes 2 (seg s))).flatten ++
          (top.map (fun e => leBytes 4 (e % 65536 + bf (x.getD e 0#32) * 65536))).flatten else []
    let neg (e : Nat) : Bool := !top.contains e && (x.getD e 0#32).getLsbD 31 && decide ((x.getD e 0#32).toNat % 2 ^ 31 ≠ 0)
    let signs := if hasSign mode then
        ((List.range (n / 256)).map (fun g => leBytes 4 (groupMean x top g).toNat)).flatten ++
          (List.range (n / 8)).map (fun j => BitVec.ofNat 8
            ((List.range 8).foldl (fun a i => a + b2n (neg (8 * j + i)) * 2 ^ i) 0)) else []
    tops ++ signs

/-- A BF16 word of error memory (R233): one beyond the largest finite value becomes that value with its sign, and has saturated. -/
def saturate (b : Nat) : Half × Bool :=
  if b % 2 ^ 15 = 0x7F80 then (BitVec.ofNat 16 (0x7F7F + b / 2 ^ 15 * 2 ^ 15), true) else (BitVec.ofNat 16 b, false)
/-- The new error memory of an element and whether it saturated (R233). -/
def errorWord (x d : Word) : Half × Bool := saturate (toBf16 (Fp.subRne x d))

/-- A sum of decodes, element by element (R238). -/
def addInto : (e : Nat) → List Word → SMap Word → SMap Word
  | _, [], m => m
  | e, v :: vs, [] => SMap.cons 0#32 e (Fp.addRne 0#32 v) (addInto (e + 1) vs [])
  | e, v :: vs, (k, w) :: t =>
    if k = e then SMap.cons 0#32 e (Fp.addRne w v) (addInto (e + 1) vs t)
    else SMap.cons 0#32 e (Fp.addRne 0#32 v) (addInto (e + 1) vs ((k, w) :: t))

end Coll
end Sys2Proof
end

