-- ==== Sys2Proof/Machine/Ops.lean ====
section
/-! DEFINITION. The named operations that every core op shares: when an op issues (R173, R192), what it pays (R350 to R354), how
the program position advances (R178, R181), faults (R174, R183), and the messages a core sends (R184). -/

namespace Sys2Proof.Machine

/-- Whether a core's clocks run: its own domain and its die's are ACTIVE (R337). -/
def State.coreActive (s : State) (no : Nat) : Bool :=
  decide ((s.domain (domKey 0 no)).rung = 0) && decide ((s.domain (domKey 1 (dieOf no))).rung = 0)

/-- Clear the piggy bank (R129, R392). -/
def clearBank (c : Core) : Core :=
  { c with lmem := c.lmem.clearRange 0x400000 0x100000, bankNf := [], bankOf := [], bankClearing := false }

/-- The counter key of a context of a core (R198). -/
def ckCtx (id : Nat) (p : Site) : CKey := { id := id, core := some (Site.no p), ctx := some p.guest }
/-- The counter key of a context under a layer and product (R84, R130). -/
def ckLayer (id : Nat) (p : Site) (layer product : Nat) : CKey :=
  { id := id, core := some (Site.no p), ctx := some p.guest, layer := some layer, product := some product }
/-- Count several identifiers under keys made by `f`. -/
def State.countAll (s : State) (f : Nat → CKey) (cs : List (Nat × Nat)) : State :=
  cs.foldl (fun s c => s.count (f c.1) c.2) s

/-- e(f) in units of 1/10,000 (R350): linear between the table's entries. -/
def eFactor (mhz : Nat) : Nat :=
  let seg (f0 e0 e1 : Nat) : Nat := e0 + (e1 - e0) * (mhz - f0) / 200
  if mhz ≤ 400 then 4600 else if mhz ≤ 600 then seg 400 4600 5000 else if mhz ≤ 800 then seg 600 5000 5500
  else if mhz ≤ 1000 then seg 800 5500 6200 else if mhz ≤ 1200 then seg 1000 6200 7400
  else if mhz ≤ 1400 then seg 1200 7400 8600 else if mhz ≤ 1600 then seg 1400 8600 10000
  else if mhz ≤ 1800 then seg 1600 10000 11800 else 11800

/-- A charge in 0.01 nJ at a clock, rounded up (R350). -/
def chargeAt (cost mhz : Nat) : Nat := (cost * eFactor mhz + 9999) / 10000

/-- Bits [hi:lo] fields of an op word, as (lo, value). -/
def putFields (fs : List (Nat × Nat)) : Nat := fs.foldl (fun w f => w + f.2 * 2 ^ f.1) 0

/-- The op word of an op (R173): opcode, flags F2..F0, the common fields and the operands; set reserved bits are overlaid. -/
def opWord (opcode flags : Nat) (h : OpHead) (fs : List (Nat × Nat)) : Nat :=
  (opcode * 2 ^ 120 + b2n h.st * 2 ^ 119 + h.tok.toNat * 2 ^ 115 + flags * 2 ^ 112 + h.wmask.toNat * 2 ^ 96 + putFields fs)
    ||| h.rsv.toNat

/-- An LSA, TIX and LWA as their field values (R172). -/
def lsaBits (a : Lsa) : Nat := a.s.toNat * 2 ^ 14 + a.off.toNat
/-- A TIX field. -/
def tixBits (a : Tix) : Nat := a.s.toNat * 2 ^ 12 + a.off.toNat
/-- An LWA field. -/
def lwaBits (a : Lwa) : Nat := a.s.toNat * 2 ^ 20 + a.off.toNat
/-- An operand spec field (R177). -/
def specBits : Spec → Nat
  | .none p => p.toNat
  | .oc line st => 1 * 2 ^ 15 + st.toNat * 2 ^ 10 + line.toNat
  | .tq r0 rs => 2 * 2 ^ 15 + rs.toNat * 2 ^ 6 + r0.toNat
  | .ta n rs => 3 * 2 ^ 15 + rs.toNat * 2 ^ 4 + n.toNat
  | .ls s off => 4 * 2 ^ 15 + s.toNat * 2 ^ 11 + off.toNat
  | .imm i rs => 5 * 2 ^ 15 + rs.toNat * 2 ^ 6 + i.toNat
  | .sreg n rs => 6 * 2 ^ 15 + rs.toNat * 2 ^ 4 + n.toNat
  | .reserved p => 7 * 2 ^ 15 + p.toNat

/-- A routine fault (R183): the context stops, ROUTINE_FAULT is posted and counted, and the slot halts. -/
def State.routineFault (s : State) (p : Site) (code off word : Nat) : State :=
  let c := s.ctx p
  let s := s.setCtx p { c with status := .faulted code }
  let s := s.count (ckCtx Ctr.routineFaults p)
  let s := if code = 0x04 then s.count (ckCtx Ctr.ocFault p) else s
  let s := s.post 0x0202 .fault (some c.slot) (unitRef 0 (coreRef (Site.no p)))
    (payload [(2, coreRef (Site.no p)), (1, b2n p.guest), (1, code), (2, c.hdr.routine), (2, off), (16, word)])
  s.haltSlot c.slot

/-- The loop ends that the position has reached, innermost first (R178). -/
def loopEnds (c : Ctx) : List LoopFrame → Ctx
  | [] => { c with loops := [] }
  | f :: rest =>
    if c.pos = f.last then
      let c1 := c.setSreg f.reg (c.sreg f.reg + f.step.signExtend 32)
      if 1 < f.left then { c1 with pos := f.first, loops := { f with left := f.left - 1 } :: rest }
      else loopEnds c1 rest
    else { c with loops := f :: rest }

/-- Move a context to op `pos`, ending loops that this reaches (R178). -/
def Ctx.goto (c : Ctx) (pos : Nat) : Ctx := loopEnds { c with pos := pos } c.loops

/-- Move a context on to op `pos`: past the routine's last op it ends with an opcode fault there (R181). -/
def State.goto (s : State) (p : Site) (pos : Nat) : State :=
  let c := (s.ctx p).goto pos
  let s := s.setCtx p c
  if c.hdr.nOps ≤ c.pos then s.routineFault p 0x01 c.pos 0 else s

/-- Whether an op in flight occupies its unit: not while it only awaits a DMA notice or a tile credit (R175). -/
def InFlight.occupies (f : InFlight) : Bool :=
  match f.finish with
  | .dma _ => false
  | .tileCredit _ _ => false
  | _ => true

/-- Whether an op in flight is a TAP op that has not met its VEC op (R143). -/
def InFlight.isTap (f : InFlight) : Bool :=
  match f.finish with
  | .tapWait _ _ _ _ => true
  | _ => false
/-- Whether an op in flight is a VEC op that waits for a FULL tile-queue entry (R123). -/
def InFlight.isDefVec (f : InFlight) : Bool :=
  match f.finish with
  | .deferred d => (match d.op with
    | .vec _ _ => true
    | _ => false)
  | _ => false
/-- The TAP ops that bind to a VEC op issued now (R143): those that no VEC op has followed yet. -/
def openTaps : List InFlight → List InFlight
  | [] => []
  | f :: rest => (if f.isTap && !rest.any InFlight.isDefVec then [f] else []) ++ openTaps rest
/-- The TAP ops bound to the oldest VEC op that waits for a FULL entry (R143): those before it. -/
def firstTaps (l : List InFlight) : List InFlight := (l.takeWhile (fun f => !f.isDefVec)).filter InFlight.isTap
/-- A TAP op that has met its VEC op waits no longer. -/
def InFlight.met (f : InFlight) : InFlight := if f.isTap then { f with finish := .plain } else f
/-- The TAP ops of `openTaps` have met their VEC op. -/
def metOpen : List InFlight → List InFlight
  | [] => []
  | f :: rest => (if rest.any InFlight.isDefVec then f else f.met) :: metOpen rest
/-- The TAP ops of `firstTaps` have met their VEC op. -/
def metFirst : List InFlight → List InFlight
  | [] => []
  | f :: rest => if f.isDefVec then f :: rest else f.met :: metFirst rest

/-- The ops that a unit of a core holds (R173); for the reduction unit those of one context. -/
def unitLoad (c : Core) (guest : Bool) (u : OpUnit) : Nat :=
  let n (t : Ctx) : Nat := (t.inflight.filter (fun f => decide (f.unit = u) && f.occupies)).length
  if u = .reduction then n (c.ctx guest) else n c.main + n c.guest

/-- Whether an op's ranges and registers are free of the context's ops in flight (R173). -/
def hazardFree (t : Ctx) (pl : Plan) : Bool :=
  t.inflight.all (fun f =>
    !(f.writes.any (fun w => (pl.reads ++ pl.readsNow ++ pl.writes).any (rngHit w))) &&
    !(f.reads.any (fun r => pl.writes.any (rngHit r))) &&
    !(f.regs.any (fun r => r != 0 && (pl.regsR ++ pl.regsW).contains r)))

/-- Whether the context's table of 16 in-flight ranges has room (R173). -/
def tableRoom (t : Ctx) (pl : Plan) : Bool :=
  decide ((t.inflight.map (fun f => f.reads.length + f.writes.length)).sum + pl.reads.length + pl.writes.length ≤ 16)

/-- Whether cores may issue a slot's ops (R24, R183): a slot that waits for a step runs its routines up to their WAIT STEP. -/
def SlotState.dispatches : SlotState → Bool
  | .ready => true
  | .running => true
  | .replaying => true
  | _ => false
/-- Whether the context's ops are dispatched at all: it runs a routine that no WAIT holds, its slot is dispatched and not quiesced (R389), and
its core's clocks run. -/
def State.runs (s : State) (p : Site) : Bool :=
  let t := s.ctx p
  decide (t.status = .running) && (s.slot t.slot).st.dispatches && !(s.slot t.slot).quiesced && s.coreActive (Site.no p)

/-- The charge of the units that an op pays at issue (R350). -/
def State.charge (s : State) (p : Site) (pl : Plan) : Nat :=
  pl.units * chargeAt pl.cost (s.gov (dieOf (Site.no p))).clock

/-- Whether the energy of an op is there: a main COMM op never waits (R353), any other op needs its purse (R354). -/
def State.energyOk (s : State) (p : Site) (pl : Plan) : Bool :=
  (pl.comm && !p.guest) || decide (s.charge p pl ≤ (s.ctx p).purse)

/-- Charge a main COMM op to the floor account, then to the bucket, and past -C only to the counter (R353). -/
def State.payFloor (s : State) (no : Nat) (ch : Nat) : State :=
  let d := dieOf no
  let g := s.gov d
  let fromF : Int := min (max g.f 0) ch
  let rest : Int := ch - fromF
  let fromB : Int := min rest (max 0 (g.b + g.cap))
  let excess : Nat := (rest - fromB).toNat
  let s := s.setGov d { g with f := g.f - fromF, b := g.b - fromB, ledger := g.ledger + ch, overdraft := (g.overdraft + excess) % 100000 }
  s.count { id := Ctr.floorOverdraftUj, die := some d } ((g.overdraft + excess) / 100000)

/-- Pay an op's charge (R350, R353, R354). -/
def State.pay (s : State) (p : Site) (pl : Plan) : State :=
  let ch := s.charge p pl
  if pl.comm && !p.guest then s.payFloor (Site.no p) ch
  else
    let c := s.ctx p
    let d := dieOf (Site.no p)
    (s.setCtx p { c with purse := c.purse - ch, needCharge := 0 }).setGov d
      { s.gov d with ledger := (s.gov d).ledger + ch }

/-- The low, surplus and high marks (R349). -/
def Gov.mark (g : Gov) (pct : Nat) : Int := g.cap * pct / 100
/-- Whether a die's governor grants guests surplus (R192, R354): GUEST_OFF is 0, B is at or above the surplus mark, and no main request and no
deferred SHADOW unit waits. -/
def Gov.surplus (g : Gov) : Bool :=
  !g.cfg.guestOff && decide (g.mark g.cfg.surplusPct ≤ g.b) && g.reqs.all (fun r => r.guest) && g.deferred.isEmpty

/-- The record of an op in flight (R173). -/
def Plan.inFlight (pl : Plan) (u : OpUnit) (off : Nat) (h : OpHead) : InFlight :=
  { unit := u, off := off, tok := if h.st then some h.tok.toNat else none
    reads := pl.reads, writes := pl.writes, regs := pl.regsW
    finish := pl.finish, units := pl.later, unitCost := pl.cost, doneCtr := pl.doneCtr, word := pl.word }

/-- Whether the op's unit has no room (R173): 2 ops of the core, and for the reduction unit 4 of the context. -/
def unitFull (c : Core) (guest : Bool) (pl : Plan) : Bool :=
  match pl.unit.or pl.needs with
  | some u => decide ((if u = .reduction then 4 else 2) ≤ unitLoad c guest u)
  | none => false

/-- A channel of a context. -/
def Ctx.chan (t : Ctx) (ch : Nat) : Chan := SMap.get {} t.chans ch
/-- An endpoint of a context. -/
def Ctx.endp (t : Ctx) (ep : Nat) : Endp := SMap.get {} t.eps ep
/-- Ops in flight that will free a slot of a channel. -/
def pendingFree (t : Ctx) (ch : Nat) : Nat := (t.inflight.filter (fun f => decide (f.finish = .freeSlot ch))).length

/-- Whether a layer's gathered tensor is not there yet for a product (R23, R249, R251): a FORWARD product waits for every gather of the
layer, a data-gradient product for the column coding. -/
def Slot.gathering (x : Slot) (layer axis : Nat) : Bool :=
  x.greqs.any (fun g => decide (g.layer = layer) && ((decide (axis = 0) && (!g.regather || decide (g.coding = 0))) || (decide (axis = 1) && decide (g.coding = 1)))) ||
    x.gone.any (fun e => decide (e.1 = layer) && decide (e.2.2 = axis))
/-- Whether what an op waits for is there (R23, R188, R189, R310). -/
def State.waitMet (s : State) (t : Ctx) : WaitFor → Bool
  | .message ch => !(t.chan ch).waiting.isEmpty
  | .held ch => ((t.chan ch).held[pendingFree t ch]?).isSome
  | .credit ep => decide ((t.endp ep).credits ≠ 0)
  | .dma ch => decide ((SMap.get {} s.dma ch).queue.length < 64)
  | .gather layer axis => !(s.slot 0).gathering layer axis

/-- Whether the next op of a context can issue, as far as is known: it has not been found unable to, or everything that it lacked is there
now (R192). -/
def State.nextReady (s : State) (p : Site) : Bool :=
  let c := s.core (Site.no p)
  let t := c.ctx p.guest
  s.runs p && (match t.next with
    | none => true
    | some x => (x.plan.ownMask || t.tokensReady x.head.wmask) && hazardFree t x.plan && tableRoom t x.plan &&
        !unitFull c p.guest x.plan && s.energyOk p x.plan &&
        (match x.plan.on with
         | some w => s.waitMet t w
         | none => true))
/-- Whether a context may issue (R192): it runs and holds the core, and a guest has surplus and a main context whose next op cannot issue. -/
def State.dispatched (s : State) (p : Site) : Bool :=
  s.runs p && (p.guest == (s.core (Site.no p)).guestIssuing) &&
    (!p.guest || ((s.gov (dieOf (Site.no p))).surplus && !s.nextReady { p with guest := false }))

/-- Every issue condition of R173 and R192 but the energy's. -/
def State.mayIssue (s : State) (p : Site) (h : OpHead) (pl : Plan) : Bool :=
  let c := s.core (Site.no p)
  let t := c.ctx p.guest
  s.dispatched p && (pl.ownMask || t.tokensReady h.wmask) && hazardFree t pl && tableRoom t pl && !unitFull c p.guest pl && !pl.hold

/-- The context after the issue of an op: its WMASK tokens taken (R173), and its ST token raised if it completes at issue
(R174). -/
def issueTokens (t : Ctx) (h : OpHead) (pl : Plan) : Ctx :=
  let took := if pl.ownMask then t else t.takeTokens h.wmask
  if h.st && pl.unit.isNone then took.setToken h.tok.toNat (took.token h.tok.toNat + 1) else took

/-- The fault that an op ends with, if any (R174, R175): a reserved bit set, its own fault, or a token that would pass 15. -/
def issueFault (t : Ctx) (h : OpHead) (pl : Plan) : Option Nat :=
  if h.rsv ≠ 0#128 then some 0x01
  else faultOf [pl.fault, need (!(h.st && pl.unit.isNone && decide (15 < (issueTokens t h pl).token h.tok.toNat))) 0x07]

/-- Put the op in flight, where it has a unit (R173). -/
def launch (t : Ctx) (h : OpHead) (pl : Plan) : Ctx :=
  match pl.unit with
  | some u => { t with inflight := t.inflight ++ [pl.inFlight u t.pos h], next := none }
  | none => { t with next := none }

/-- Whether a piggy-bank slot holds a non-finite value (R129). -/
def Core.bankBad (c : Core) (slot : Nat) : Bool :=
  (List.range 4096).any (fun i => Fp.isNonFinite (BitVec.ofNat 32 (c.lmem.readLE (0x400000 + slot * 16384 + 4 * i) 4)))
/-- BANK_NONFINITE (R129, R130): the slots of bytes `a` to `a + n` that are read while they hold a non-finite value, each once until the
clear, under the layer and product of the slot's last drain; they set NF_STEP (R226). -/
def State.bankSeen (s : State) (no a n : Nat) : State :=
  if a < 0x400000 ∨ n = 0 then s
  else
    let c := s.core no
    let first := (a - 0x400000) / 16384
    let hit := ((List.range ((a + n - 1 - 0x400000) / 16384 + 1 - first)).map (fun i => first + i)).filter (fun k =>
      decide (k < 64) && !c.bankNf.contains k && c.bankBad k)
    if hit.isEmpty then s
    else hit.foldl (fun (s : State) k =>
      let lm := SMap.get (0xFFFF, 3) c.bankOf k
      s.count { id := Ctr.bankNonfinite, core := some no, ctx := some false, layer := some lm.1, product := some lm.2 })
        ((s.setCore no { c with bankNf := c.bankNf ++ hit }).modSlot 0 (fun x => { x with nf := true }))
/-- The piggy-bank slots that an op's ranges read (R130). -/
def State.bankReads (s : State) (no : Nat) (l : List Rng) : State :=
  l.foldl (fun (s : State) r => if r.sp = .ls then s.bankSeen no (r.lo * 256) (r.n * 256) else s) s

/-- The state in which an issued op takes its effect: tokens and energy taken, the op in flight, OPS_ISSUED counted. -/
def State.issued (s : State) (p : Site) (h : OpHead) (pl : Plan) : State :=
  let t := s.ctx p
  let s := (((s.setCtx p (launch (issueTokens t h pl) h pl)).pay p pl).bankReads (Site.no p) pl.reads).count (ckCtx Ctr.opsIssued p)
  if p.guest then s.count { id := Ctr.guestIssueCycles, core := some (Site.no p) } else s

/-- A cycle in which a context's next op does not issue: ISSUE_STALL, what the op waits for (R173, R189, R354), and MAIN_IDLE_CYCLES for a
main context with nothing in flight (R219). -/
def State.stall (s : State) (p : Site) (why : Option Nat) : State :=
  let s := s.count (ckCtx Ctr.issueStall p)
  let s := if !p.guest && (s.ctx p).inflight.isEmpty then s.count { id := Ctr.mainIdleCycles, core := some (Site.no p) } else s
  match why with
  | some id => s.count (ckCtx id p)
  | none => s
/-- An op that cannot issue is the context's next op, and is kept as such (R22, R192). -/
def State.keepNext (s : State) (p : Site) (h : OpHead) (pl : Plan) : State := s.setCtx p { s.ctx p with next := some { head := h, plan := pl } }

/-- Take an op up for issue (R173, R183): it stalls, or faults, or issues; on issue its tokens and energy are taken, it goes
in flight or completes, `eff` is applied and the position advances (`ctl`: `eff` moves the position itself). -/
def State.issue (s : State) (p : Site) (h : OpHead) (pl : Plan) (eff : State → State) : State :=
  let t := s.ctx p
  match t.status with
  | .idle => s
  | .trapped _ => s
  | .faulted _ => s
  | .waitTok _ _ _ _ => s.stall p none
  | .waitStep _ _ => s.stall p none
  | .running =>
    if s.mayIssue p h pl then
      match issueFault t h pl with
      | some code =>
        let w := if pl.fault = some code then pl.at'.getD (t.pos, pl.word) else (t.pos, pl.word)
        s.routineFault p code w.1 w.2
      | none =>
        if pl.wait.isSome then (s.keepNext p h pl).stall p pl.wait
        else if s.energyOk p pl then
          (if pl.ctl then eff (s.issued p h pl) else (eff (s.issued p h pl)).goto p (t.pos + 1))
        else
          ((s.setCtx p { t with needCharge := s.charge p pl }).keepNext p h pl).stall p
            (if p.guest then some Ctr.guestDeniedCycles else some Ctr.tokenWaitCycles)
    else (s.keepNext p h pl).stall p none

/-- Change the context of a site by `f`. -/
def State.modCtx (s : State) (p : Site) (f : Ctx → Ctx) : State := s.setCtx p (f (s.ctx p))
/-- Change the core of a site by `f`. -/
def State.modCore (s : State) (no : Nat) (f : Core → Core) : State := s.setCore no (f (s.core no))

/-- The first 14 bytes of a message header (R184), little-endian: the fields below HCHECK. -/
def msgHeader (m : Msg) : Nat :=
  m.destDev.toNat + (m.destX.toNat + m.destY.toNat * 64) * 2 ^ 14 + m.channel.toNat * 2 ^ 26 + m.tc.toNat * 2 ^ 34 +
  m.slot.toNat * 2 ^ 36 + m.seq.toNat * 2 ^ 38 + m.payload.length % 8192 * 2 ^ 54 + m.srcDev.toNat * 2 ^ 67 +
  (m.srcX.toNat + m.srcY.toNat * 64) * 2 ^ 81 + m.kind.toNat * 2 ^ 93 + b2n m.rsd * 2 ^ 97 + b2n m.endf * 2 ^ 98 +
  b2n m.nf * 2 ^ 99 + m.arg.toNat * 2 ^ 100
/-- HCHECK of a message (R184). -/
def headerCheck (m : Msg) : BitVec 16 := crc16 (leBytes 14 (msgHeader m))
/-- The whole 128-bit header. -/
def msgHeader128 (m : Msg) : Nat := msgHeader m + m.hcheck.toNat * 2 ^ 112

/-- Inject a message: its HCHECK is formed and it is on its way (R184, R186). -/
def State.inject (s : State) (m : Msg) : State := { s with wire := s.wire ++ [{ m with hcheck := headerCheck m }] }
/-- Take a delivered message off its way. -/
def State.arrived (s : State) (m : Msg) : State := { s with wire := s.wire.erase m }
/-- Whether two messages are of one class, from one context to one destination channel (R186, R271). -/
def sameFlow (a b : Msg) : Bool :=
  decide (a.tc = b.tc) && decide (a.srcDev = b.srcDev) && decide (a.srcX = b.srcX) && decide (a.srcY = b.srcY) && decide (a.slot = b.slot) &&
    decide (a.destDev = b.destDev) && decide (a.destX = b.destX) && decide (a.destY = b.destY) && decide (a.channel = b.channel)
/-- Whether a message is the next of its flow to arrive (R186, R271): none that was sent before it is still on its way. -/
def State.inOrder (s : State) (m : Msg) : Bool := !(s.wire.takeWhile (fun x => decide (x ≠ m))).any (sameFlow m)

/-- A message from a context's core with empty header extras (R184). -/
def fromCore (s : State) (p : Site) (dev x y ch tc kind : Nat) (pl : List Word) : Msg :=
  { destDev := BitVec.ofNat 14 dev, destX := BitVec.ofNat 6 x, destY := BitVec.ofNat 6 y, channel := BitVec.ofNat 8 ch
    tc := BitVec.ofNat 2 tc, slot := BitVec.ofNat 2 (s.ctx p).slot, seq := 0#16, srcDev := s.modId
    srcX := BitVec.ofNat 6 p.x.val, srcY := BitVec.ofNat 6 p.y.val, kind := BitVec.ofNat 4 kind, rsd := false
    endf := false, nf := false, arg := 0#12, hcheck := 0#16, payload := pl }

/-- Whether an endpoint names the executing core itself (R191). -/
def toSelf (s : State) (p : Site) (e : Endp) : Bool :=
  decide (e.dev = s.modId.toNat) && decide (e.x = p.x.val) && decide (e.y = p.y.val)

end Sys2Proof.Machine
end

