-- ==== Sys2Proof/Machine/Routine.lean ====
section
/-! DEFINITION. Routines of a core: headers and tables (R195), starting one (R181, R187, R189, R196), tokens (R174, R191) and
the release of a WAIT (R180). -/

namespace Sys2Proof.Machine

/-- A table word of a routine header (R195). -/
def parseTable (v : Nat) : TableRef := { line := fld v 13 0, count := fld v 22 16 }

/-- The header of a routine image whose header is at line `l` (R195). -/
def parseHdr (rd : Nat → Byte) (l : Nat) : Hdr :=
  let w (o : Nat) : Nat := rdLE rd (l * 256 + o) 4
  { line := l, routine := fld (w 0) 15 0, nOps := fld (w 4) 13 0, ocBase := fld (w 8) 9 0, ocLines := fld (w 8) 20 10
    desc := parseTable (w 0x0C), const := parseTable (w 0x10), qrec := parseTable (w 0x14), ep := parseTable (w 0x18)
    ch := parseTable (w 0x1C), mode := parseTable (w 0x20), grant := parseTable (w 0x24)
    recipeLib := fld (w 0x28) 7 0, updateLib := fld (w 0x28) 15 8
    bxLine := fld (w 0x2C) 13 0, bxGrant := fld (w 0x2C) 21 16, bxValid := bitOf (w 0x2C) 31 }

/-- The byte offset of a context's routine directory (R172, R195). -/
def dirBase (guest : Bool) : Nat := if guest then 10240 * 256 else 0
/-- The directory word of routine `i`. -/
def dirEntry (c : Core) (guest : Bool) (i : Nat) : Nat := c.lmem.readLE (dirBase guest + 4 * i) 4
/-- Whether a header names this context and slot (R181, R196). -/
def hdrNames (rd : Nat → Byte) (l : Nat) (guest : Bool) (slot : Nat) : Bool :=
  let w := rdLE rd (l * 256) 4
  (bitOf w 16 == guest) && decide (fld w 18 17 = slot)
/-- Whether routine `i` can start in the context (R181): index 0-255, entry VALID, and its header names context and slot. -/
def canStart (c : Core) (guest : Bool) (i : Nat) : Bool :=
  decide (i < 256) && bitOf (dirEntry c guest i) 31 &&
  hdrNames c.lmem.read (fld (dirEntry c guest i) 13 0) guest (c.ctx guest).slot

/-- A channel table entry (R187) as a binding. -/
def parseChan (rd : Nat → Byte) (a : Nat) : Nat × Chan :=
  let w (o : Nat) : Nat := rdLE rd (a + o) 4
  (fld (w 0) 7 0, { bound := true, join := fld (w 0) 9 8 == 1, desc := fld (w 0) 15 10, line := fld (w 4) 13 0
                    slots := fld (w 4) 23 16, words := fld (w 8) 12 0 })
/-- An endpoint table entry (R189). -/
def parseEndp (rd : Nat → Byte) (a : Nat) : Endp :=
  let w (o : Nat) : Nat := rdLE rd (a + o) 4
  { valid := true, dev := fld (w 0) 13 0, x := fld (w 0) 19 14, y := fld (w 0) 25 20, tc := fld (w 0) 27 26
    join := bitOf (w 0) 28, ch := fld (w 4) 7 0, credits := fld (w 4) 15 8 }

/-- A binding that stays where the channel was bound alike before, messages held and all (R187). -/
def keepChan (old new : Chan) : Chan :=
  if old.bound && old.join == new.join && old.line == new.line && old.slots == new.slots && old.words == new.words &&
     old.desc == new.desc then old else new
/-- The bindings of a routine's channel table (R187): a channel that the table omits is unbound. -/
def bindChans (c : Core) (t : Ctx) (h : Hdr) : SMap Chan :=
  (List.range h.ch.count).foldl (fun m i =>
    let (k, n) := parseChan c.lmem.read (h.ch.line * 256 + 16 * i)
    SMap.set {} m k (keepChan (SMap.get {} t.chans k) n)) []
/-- The endpoints of a routine (R189): an endpoint to a destination and channel that the context already used keeps its
credits and its send log; another starts with CREDITS (log 26). -/
def bindEps (c : Core) (t : Ctx) (h : Hdr) : SMap Endp :=
  (List.range h.ep.count).foldl (fun m i =>
    let n := parseEndp c.lmem.read (h.ep.line * 256 + 16 * i)
    let same (e : Nat × Endp) : Bool :=
      decide (e.2.dev = n.dev) && decide (e.2.x = n.x) && decide (e.2.y = n.y) && decide (e.2.ch = n.ch)
    SMap.set {} m i (match t.eps.find? same with
      | some e => { n with credits := e.2.credits, log := e.2.log }
      | none => n)) []
/-- The layer numbers of the mode slots (R195). -/
def modeLayersOf (c : Core) (h : Hdr) : List Nat :=
  (List.range (min h.mode.count 16)).map (fun i => c.lmem.readLE (h.mode.line * 256 + 2 * i) 2)
/-- The mode slots loaded from the slot's layer mode entries (R97, R180). -/
def loadModes (sl : Slot) (layers : List Nat) : SMap Word :=
  layers.zipIdx.foldl (fun m (l, i) => SMap.set 0x200#32 m i (SMap.get 0x200#32 sl.modes l)) []

/-- The guest entry clear (R140): operand-cache lines 896-1,023 and tile registers TA12-TA15 become +0.0. -/
def guestClear (c : Core) : Core :=
  { c with oc := c.oc.clearRange (896 * 256) (128 * 256), ta := c.ta.clearRange (12 * 4096) (4 * 4096) }

/-- Start routine `i` in a context (R181, R196): position 0, no loops, no held window, its tables bound; registers and tokens
stay. A guest routine of another slot than the last one first clears the guest's lines and tile registers (R140). -/
def State.startRoutine (s : State) (p : Site) (i : Nat) : State :=
  let c := s.core (Site.no p)
  let t := c.ctx p.guest
  let h := parseHdr c.lmem.read (fld (dirEntry c p.guest i) 13 0)
  let layers := modeLayersOf c h
  let t := { t with
    status := .running, hdr := h, pos := 0, loops := [], win := none, winOpen := false, next := none, lastMode := none, sleepHint := 0
    chans := bindChans c t h, eps := bindEps c t h, modeLayers := layers, modes := loadModes (s.slot t.slot) layers }
  let c := c.setCtx p.guest t
  let c := if p.guest && decide (c.guestLast ≠ t.slot) then { guestClear c with guestLast := t.slot } else c
  s.setCore (Site.no p) c

/-- End a WAIT with the context `t1` that its release leaves (R180): its ST token rises and issue goes on. Where the token would pass 15 the
WAIT ends with a token fault under its own op word and changes nothing (R174, R183). -/
def State.endWait (s : State) (p : Site) (tok : Option Nat) (t1 : Ctx) : State :=
  let t := s.ctx p
  match tok with
  | none => (s.setCtx p t1).goto p (t.pos + 1)
  | some k =>
    if 15 ≤ t1.token k then s.routineFault p 0x07 t.pos t.waitWord
    else (s.setCtx p (t1.setToken k (t1.token k + 1))).goto p (t.pos + 1)
/-- Release a WAIT whose tokens are all there (R180): they are taken, 0 goes to S[D], its ST token rises, issue goes on. -/
def State.release (s : State) (p : Site) : State :=
  let t := s.ctx p
  match t.status with
  | .waitTok mask _ d tok =>
    if t.tokensReady mask then s.endWait p tok { (t.takeTokens mask).setSreg d 0#32 with status := .running } else s
  | _ => s

/-- Add to a token (R174, R191): past 15 the op or message ends with a token fault, which stops the context at `off`. A WAIT
that this satisfies is released. -/
def State.addToken (s : State) (p : Site) (k n off word : Nat) : State :=
  let t := s.ctx p
  if 15 < t.token k + n then s.routineFault p 0x07 off word
  else (s.setCtx p (t.setToken k (t.token k + n))).release p

end Sys2Proof.Machine
end

