-- ==== Sys2Proof/Machine/JobImage.lean ====
section
/-! DEFINITION. Job images (R373 to R377): the header and section table, every check of a load, and loading of routines (R196). A
refusal is (STATUS, DETAIL) of R365 and R374. -/

namespace Sys2Proof.Machine

/-- A little-endian field of a byte string. -/
def leAt (b : List Byte) (o n : Nat) : Nat := leNat ((b.drop o).take n)

/-- An entry of the section table (R375). -/
structure Sec where
  ty : Nat
  rank : Nat
  off : Nat
  len : Nat
  crc : Nat
  rsv : Bool
  deriving DecidableEq, Repr

/-- An image's section table. -/
def imgSecs (b : List Byte) : List Sec :=
  (List.range (leAt b 0x10 4)).map (fun i =>
    let o := 0x40 + 32 * i
    { ty := leAt b o 2, rank := leAt b (o + 2) 2, off := leAt b (o + 8) 5, len := leAt b (o + 0x10) 5, crc := leAt b (o + 0x18) 4
      rsv := decide (leAt b (o + 4) 4 ≠ 0) || decide (leAt b (o + 0xD) 3 ≠ 0) || decide (leAt b (o + 0x15) 3 ≠ 0) ||
        decide (leAt b (o + 0x1C) 4 ≠ 0) })
/-- The bytes of a section. -/
def Sec.bytes (b : List Byte) (x : Sec) : List Byte := (b.drop x.off).take x.len

/-- Bytes with `n` of them from `o` on set to 0. -/
def zeroAt (b : List Byte) (o n : Nat) : List Byte := b.take o ++ List.replicate n 0#8 ++ b.drop (o + n)
/-- LOST_TIMEOUT_S (R375). -/
def imgTimeout (b : List Byte) : Nat := if leAt b 0x18 4 = 0 then 60 else leAt b 0x18 4
/-- P of an image. -/
def imgP (b : List Byte) : Nat := leAt b 0x1C 2 + 1

/-- The sections of a type. -/
def secsOf (b : List Byte) (ty : Nat) : List Sec := (imgSecs b).filter (fun x => decide (x.ty = ty))
/-- The bytes of the sections of a type that a rank takes (R377), in table order. -/
def secFor (b : List Byte) (ty rank : Nat) : List Byte :=
  (((secsOf b ty).filter (fun x => decide (x.rank = rank) || decide (x.rank = 0xFFFF))).map (Sec.bytes b)).flatten
/-- Rank `r`'s record of `n` bytes in a section type that comes in two ways (R376). -/
def rankRec (b : List Byte) (ty n r : Nat) : List Byte :=
  match (secsOf b ty).find? (fun x => decide (x.rank = r)) with
  | some x => (x.bytes b).take n
  | none => match (secsOf b ty).find? (fun x => decide (x.rank = 0xFFFF)) with
    | some x => ((x.bytes b).drop (n * r)).take n
    | none => []
/-- Cut a byte string into entries of `n` bytes. -/
def entriesOf (b : List Byte) (n : Nat) : List (List Byte) := (List.range (b.length / n)).map (fun i => (b.drop (n * i)).take n)

/-- MODULE_MAP (R376): module, rank, member index. -/
def moduleMap (b : List Byte) : List (Nat × Nat × Nat) :=
  (entriesOf (secFor b 1 0xFFFF) 8).map (fun e => let v := leNat e; (fld v 13 0, fld v 31 16, fld v 45 32))

/-- A stage record (R203). -/
def parseStage (e : List Byte) : StageRec :=
  { rank := fld (leAt e 0 4) 13 0, p := fld (leAt e 0 4) 30 16, v := fld (leAt e 4 4) 3 0, thinAlways := bitOf (leAt e 4 4) 4
    chestLines := fld (leAt e 8 4) 12 0, prefetch := leAt e 0xC 4, offBase := leAt e 0x10 8, offTiles := leAt e 0x18 4
    gateCore := (List.range 8).map (fun u => fld (leAt e (0x20 + 4 * u) 4) 11 0)
    gateCh := (List.range 8).map (fun u => fld (leAt e (0x20 + 4 * u) 4) 19 12)
    blocks := (List.range 8).map (fun u => fld (leAt e (0x20 + 4 * u) 4) 24 20)
    entry := (List.range 8).map (fun u => leAt e (0x40 + 4 * u) 4) }
/-- Whether a stage record passes R203, in a partition of `size` bytes numbered `part`. -/
def stageOk (e : List Byte) (part size : Nat) : Bool :=
  let g := parseStage e
  let w (o : Nat) : Nat := leAt e o 4
  decide (1 ≤ g.p) && decide (g.p ≤ 16384) && decide (g.rank < g.p) && decide (fld (w 0) 15 14 = 0) && decide (fld (w 0) 31 31 = 0) &&
  decide (1 ≤ g.v) && decide (g.v ≤ 8) && decide (w 4 / 32 = 0) && decide (g.chestLines ≤ 4096) && decide (w 8 / 8192 = 0) &&
  decide (g.prefetch ≤ 36 * g.chestLines) && decide (g.offBase % 16384 = 0) && decide (w 0x1C = 0) &&
  decide (leAt e 0x60 32 = 0) && isDev g.offBase && decide (devPart g.offBase = part) &&
  decide (devOff g.offBase + 16384 * g.offTiles ≤ size) &&
  (List.range 8).all (fun u =>
    if u < g.v then
      decide (g.gateCore.getD u 0 % 64 < 48) && decide (g.gateCore.getD u 0 / 64 < 48) && decide (g.gateCh.getD u 0 ≤ 0xBF) &&
      decide (w (0x20 + 4 * u) / 2 ^ 25 = 0) && decide (1 ≤ g.entry.getD u 0) && decide (g.entry.getD u 0 ≤ 2 ^ 22)
    else decide (w (0x20 + 4 * u) = 0) && decide (w (0x40 + 4 * u) = 0))

/-- The THIN tiles of all chunks of a stage record (R209, R215). -/
def StageRec.thinTiles (g : StageRec) : Nat :=
  ((List.range g.v).map (fun u => (g.blocks.getD u 0 + 2) / 2 * g.entry.getD u 0)).sum
/-- The capacity of the SRAM tier in tiles: 2,304 x CHEST_LINES lines of 256 bytes, 64 to a tile (R208). -/
def StageRec.sramTiles (g : StageRec) : Nat := 36 * g.chestLines
/-- The chest capacity in tiles (R208). -/
def StageRec.capacity (g : StageRec) : Nat := g.sramTiles + g.offTiles

/-- The collective record (R224). -/
def parseColl (e : List Byte) : CollRec :=
  { credits := fld (leAt e 0 4) 3 0, nodeN := fld (leAt e 0 4) 8 4, slotBytes := leAt e 4 4
    base := (List.range 4).map (fun i => leAt e (8 + 8 * i) 8), emA := leAt e 0x28 8, emB := leAt e 0x30 8
    master := fld (leAt e 0x38 4) 13 0 }
/-- A bucket-table entry (R223). -/
def parseBucket (e : List Byte) : BucketDef :=
  let w := leAt e 8 4
  { layer := leAt e 0 2, shard := leAt e 2 2, firstTile := leAt e 4 4, tiles := fld w 8 0, mode := fld w 10 9, kLog2 := fld w 14 11
    agent := fld w 16 15, emLine := leAt e 0xC 4, acc := leAt e 0x10 8 }
/-- Whether a collective record passes R224. -/
def collOk (e : List Byte) (bs : List BucketDef) : Bool :=
  let c := parseColl e
  decide (e.length = 64) && decide (1 ≤ c.credits) && decide (leAt e 0 4 / 512 = 0) && decide (leAt e 0x38 4 / 2 ^ 14 = 0) &&
  decide (leAt e 0x3C 4 = 0) && decide (c.slotBytes % 256 = 0) && c.base.all (fun a => decide (a % 256 = 0)) &&
  bs.all (fun b => decide (40 + Coll.bodyBytes b.mode b.kLog2 b.tiles ≤ c.slotBytes))
/-- Insert a bucket by LAYER and FIRST_TILE. -/
def insBucket (d : BucketDef) : List BucketDef → List BucketDef
  | [] => [d]
  | a :: t => if d.layer < a.layer ∨ (d.layer = a.layer ∧ d.firstTile < a.firstTile) then d :: a :: t else a :: insBucket d t
/-- Whether sorted buckets cover every tile of each tensor without overlap (R223): each begins where the one before it ends, and the first of a
LAYER at tile 0; `at'` is where the last one ended. -/
def tilesCovered (at' : Option (Nat × Nat)) : List BucketDef → Bool
  | [] => true
  | d :: t =>
    decide (d.firstTile = (match at' with
      | some (l, e) => if l = d.layer then e else 0
      | none => 0)) && tilesCovered (some (d.layer, d.firstTile + d.tiles)) t
/-- Whether bucket-table entries of a group of `size` members pass R223, as far as the image shows it (log 42): ranges, reserved bits, an owner in
the group, no overlap, no tile in no bucket. -/
def bucketsOk (es : List (List Byte)) (size : Nat) : Bool :=
  es.all (fun e =>
    let b := parseBucket e
    decide (leAt e 8 4 / 2 ^ 17 = 0) && decide (leAt e 0x18 8 = 0) && decide (1 ≤ b.tiles) && decide (b.tiles ≤ 256) &&
    decide (b.acc % 256 = 0) && decide (b.shard < size) &&
    (if b.mode = 1 ∨ b.mode = 3 then decide (6 ≤ b.kLog2) && decide (b.kLog2 ≤ 10) else decide (b.kLog2 = 0))) &&
  tilesCovered none ((es.map parseBucket).foldl (fun l d => insBucket d l) [])
/-- Whether the buckets of each shard are one run of whole tile rows in multiples of 4 (R152), as far as the image, which names no tensor's width,
shows it (log 42): the run begins and ends at a multiple of 4 tiles. -/
def shardsOk (bs : List BucketDef) : Bool :=
  bs.all (fun b =>
    let mine := bs.filter (fun d => decide (d.layer = b.layer) && decide (d.shard = b.shard))
    let first : Nat := mine.foldl (fun n d => min n d.firstTile) b.firstTile
    let last : Nat := mine.foldl (fun n d => max n (d.firstTile + d.tiles)) 0
    decide (first % 4 = 0) && decide (last % 4 = 0) && decide ((mine.map (fun d => d.tiles)).sum = last - first))

/-- MEMBERS and ROLE of an EPOCH section or record part (R240): members, and (group, member index) by module. -/
def parseMembers (b : List Byte) : List Nat := (List.range 16384).filter (fun i => bitOf (leAt b (i / 8) 1) (i % 8))
/-- ROLE entries that are not 0. -/
def parseRoles (b : List Byte) : SMap (Nat × Nat) :=
  (List.range 16384).foldl (fun m i =>
    let v := leAt b (0x800 + 4 * i) 4
    SMap.set (0, 0) m i (fld v 15 0, fld v 29 16)) []
/-- The successor list of an EPOCH section (R242). -/
def parseSucc (b : List Byte) : List Nat :=
  (List.range (leAt b 0x10800 4)).map (fun i => leAt b (0x10804 + 2 * i) 2)
/-- The job-load epoch's agreement with MODULE_MAP (R242). -/
def epochSecOk (b : List Byte) (mm : List (Nat × Nat × Nat)) : Bool :=
  let ms := parseMembers b
  let rs := parseRoles b
  let sc := parseSucc b
  let want := mm.filter (fun e => decide (e.2.1 ≠ 0xFFFF))
  decide (ms = want.map (fun e => e.1)) && want.all (fun e => decide (SMap.get (0, 0) rs e.1 = (e.2.1, e.2.2))) &&
  sc.all (fun i => ms.contains i) && decide (sc.eraseDups.length = sc.length)

/-- DMA_GRANTS of a module (R376) as channel numbers die * 32 + channel. -/
def grantsOf (b : List Byte) (dev : Nat) : List Nat :=
  ((entriesOf ((secsOf b 9).flatMap (Sec.bytes b)) 4).filter (fun e => decide (fld (leNat e) 13 0 = dev))).map (fun e =>
    fld (leNat e) 16 14 * 32 + fld (leNat e) 21 17)
/-- Whether a channel is in a grantable range (R307). -/
def grantable (c : Nat) : Bool := if c / 32 < 4 then decide (c % 32 < 28) else decide (c % 32 < 12)
/-- PARTITION_LAYOUT entries (R376): item, LAYER, SHARD, value. -/
def layoutOf (b : List Byte) (rank : Nat) : List (Nat × Nat × Nat × Nat) :=
  (entriesOf (secFor b 10 rank) 16).map (fun e => (leAt e 0 2, leAt e 2 2, leAt e 4 2, leAt e 8 8))
/-- The value of a layout item. -/
def layoutGet (l : List (Nat × Nat × Nat × Nat)) (item layer shard : Nat) : Option Nat :=
  (l.find? (fun e => decide (e.1 = item) && decide (e.2.1 = layer) && decide (e.2.2.1 = shard))).map (fun e => e.2.2.2)
/-- Whether the completion queues and consumer words lie in the slot's partition (R309). -/
def cqOk (l : List (Nat × Nat × Nat × Nat)) (part size : Nat) : Bool :=
  l.all (fun e =>
    if e.1 = 15 then isDev e.2.2.2 && decide (devPart e.2.2.2 = part) && decide (e.2.2.2 % 256 = 0) && decide (4 ≤ e.2.2.1) &&
      decide (e.2.2.1 ≤ 15) && decide (devOff e.2.2.2 + 32 * 2 ^ e.2.2.1 ≤ size)
    else if e.1 = 16 then isDev e.2.2.2 && decide (devPart e.2.2.2 = part) && decide (devOff e.2.2.2 + 4 ≤ size)
    else true)

/-- Cores of a GUEST_BINDING section on a module (R376). -/
def bindingOf (b : List Byte) (dev : Nat) : List Nat :=
  ((entriesOf (secFor b 15 0xFFFF) 4).filter (fun e => decide (fld (leNat e) 13 0 = dev))).map (fun e =>
    coreNo (fld (leNat e) 19 14) (fld (leNat e) 25 20))

/-- A core's part of a CORE_ROUTINES section: core, context, and its directory and images. -/
structure CoreLoad where
  no : Nat
  guest : Bool
  bytes : List Byte
  exists' : Bool := true
  deriving DecidableEq, Repr
/-- The cores of a CORE_ROUTINES section (R376). -/
def parseCores : (fuel : Nat) → List Byte → List CoreLoad
  | 0, _ => []
  | k + 1, b =>
    if b.length < 16 then []
    else
      let w := leAt b 0 4
      let n := leAt b 4 4
      { no := coreNo (fld w 5 0) (fld w 13 8), guest := bitOf w 16, bytes := (b.drop 16).take n
        exists' := decide (fld w 5 0 < 48) && decide (fld w 13 8 < 48) } ::
        parseCores k (b.drop (16 + n))
/-- The cores that a rank loads. -/
def coresOf (b : List Byte) (rank : Nat) : List CoreLoad :=
  ((secsOf b 8).filter (fun x => decide (x.rank = rank) || decide (x.rank = 0xFFFF))).flatMap (fun x =>
    parseCores (x.len / 16 + 1) (x.bytes b))

/-- A reader of a core's lines before they are written: the load's bytes lie from the context's directory on. -/
def CoreLoad.rd (c : CoreLoad) : Nat → Byte := fun a => rdList c.bytes (a - dirBase c.guest)
/-- The header lines that the directory names. -/
def CoreLoad.headers (c : CoreLoad) : List (Nat × Nat) :=
  ((List.range 256).map (fun i => (i, rdLE c.rd (dirBase c.guest + 4 * i) 4))).filterMap (fun e =>
    if bitOf e.2 31 then some (e.1, fld e.2 13 0) else none)

/-- Whether a table lies in the context's range. -/
def tableOk (guest : Bool) (t : TableRef) (width limit : Nat) : Bool :=
  decide (t.count ≤ limit) && (decide (t.count = 0) || linesOk 0 guest false t.line ((t.count * width + 255) / 256))

/-- The joiner slots that the routine with its header at line `l` binds (R80). -/
def joinSlots (rd : Nat → Byte) (l : Nat) : Nat :=
  let h := parseHdr rd l
  (((List.range h.ch.count).map (fun i => (parseChan rd (h.ch.line * 256 + 16 * i)).2)).filter (fun x => x.join)).foldl (fun n x => n + x.slots) 0
/-- The most joiner slots that any routine of a core's context binds, by the directory in its local store. -/
def Core.joinNeed (c : Core) (guest : Bool) : Nat :=
  ((List.range 256).map (fun i => let e := dirEntry c guest i; if bitOf e 31 then joinSlots c.lmem.read (fld e 13 0) else 0)).foldl max 0
/-- Whether the JOIN channels of both contexts of a core together fit the joiner's 8 slots (R80, R196), for a load of one of them: the other
context counts where a loaded slot binds it. -/
def State.joinsFit (s : State) (c : CoreLoad) : Bool :=
  let other := [0, 1, 2, 3].any (fun k => (s.slot k).st.loaded && (s.slot k).bound.contains (c.no, !c.guest))
  decide ((c.headers.map (fun e => joinSlots c.rd e.2)).foldl max 0 + (if other then (s.core c.no).joinNeed (!c.guest) else 0) ≤ 8)
/-- The rules of R196 for one routine, but for its library: the header's own fields, tables, channels, grants, and bank extension. -/
def routineOk (c : CoreLoad) (slot : Nat) (grants : List Nat) (l : Nat) : Bool :=
  let h := parseHdr c.rd l
  let w (o : Nat) : Nat := rdLE c.rd (l * 256 + o) 4
  let chans := (List.range h.ch.count).map (fun i => parseChan c.rd (h.ch.line * 256 + 16 * i))
  hdrNames c.rd l c.guest slot && decide (w 0 / 2 ^ 19 = 0) && decide (h.routine < 256) && decide (1 ≤ h.nOps) &&
  decide (w 4 / 2 ^ 14 = 0) && decide (1 ≤ h.ocLines) && decide (h.ocBase + h.ocLines ≤ 1024) && decide (w 8 / 2 ^ 21 = 0) &&
  (if c.guest then decide (896 ≤ h.ocBase) else decide (h.ocBase + h.ocLines ≤ 896)) &&
  [0x0C, 0x10, 0x14, 0x18, 0x1C, 0x20, 0x24].all (fun o => decide (fld (w o) 15 14 = 0) && decide (fld (w o) 31 23 = 0)) &&
  tableOk c.guest h.desc 64 64 && tableOk c.guest h.const 4 64 && tableOk c.guest h.qrec 32 64 && tableOk c.guest h.ep 16 64 &&
  tableOk c.guest h.ch 16 (if c.guest then 48 else 192) && tableOk c.guest h.mode 2 16 && tableOk c.guest h.grant 4 64 &&
  chans.all (fun x => (if c.guest then decide (0xC0 ≤ x.1) && decide (x.1 ≤ 0xEF) else decide (x.1 ≤ 0xBF)) &&
    decide ((chans.filter (fun y => decide (y.1 = x.1))).length = 1)) &&
  (List.range h.grant.count).all (fun i =>
    let v := rdLE c.rd (h.grant.line * 256 + 4 * i) 4
    decide (v / 256 = 0) && grants.contains (fld v 2 0 * 32 + fld v 7 3)) &&
  (!h.bxValid || (!c.guest && linesOk 0 false true h.bxLine 64 && decide (h.bxGrant < h.grant.count) &&
    decide (fld (rdLE c.rd (h.grant.line * 256 + 4 * h.bxGrant) 4) 2 0 < 4)))
/-- The libraries that an image holds (R376): (kind, version). -/
def librariesOf (b : List Byte) : List (Nat × Nat) :=
  (secsOf b 14).flatMap (fun x => (entriesOf (x.bytes b) 16).map (fun e => (leAt e 0 1, leAt e 1 1)))
/-- The bytes of a library in an image (R142, R376): from its directory entry's offset on. -/
def libraryBytes (b : List Byte) (kind version : Nat) : List Byte :=
  ((secsOf b 14).flatMap (fun x =>
    ((entriesOf (x.bytes b) 16).filter (fun e => decide (leAt e 0 1 = kind) && decide (leAt e 1 1 = version))).map (fun e =>
      (x.bytes b).drop (leAt e 8 8)))).headD []
/-- Whether the libraries that the routine's header names are in the image (R196). -/
def libraryOk (c : CoreLoad) (libs : List (Nat × Nat)) (l : Nat) : Bool :=
  let h := parseHdr c.rd l
  libs.contains (0, h.recipeLib) && libs.contains (1, h.updateLib)

/-- STATUS LOAD_REFUSED with a DETAIL, unless the condition holds. -/
def needLoad (ok : Bool) (d : Nat) : Option (Nat × Nat) := if ok then none else some (0x11, d)
/-- STATUS MAP_REFUSED with a DETAIL. -/
def needMap (ok : Bool) (d : Nat) : Option (Nat × Nat) := if ok then none else some (0x10, d)
/-- The first refusal of a list. -/
def firstRefusal : List (Option (Nat × Nat)) → Option (Nat × Nat)
  | [] => none
  | some f :: _ => some f
  | none :: t => firstRefusal t

/-- The header and table checks of R375. -/
def imageForm (b : List Byte) (n : Nat) (guest : Bool) : Option (Nat × Nat) :=
  let ss := imgSecs b
  firstRefusal [
    needLoad (decide (leAt b 0 4 = 0x4F584A42) && decide (leAt b 4 2 = 1) && (bitOf (leAt b 6 2) 0 == guest) &&
      decide (leAt b 6 2 / 2 = 0) && decide (leAt b 8 5 = n) && decide (leAt b 0xD 3 = 0) && decide (1 ≤ leAt b 0x10 4) &&
      decide (leAt b 0x10 4 ≤ 4096) && decide (leAt b 0x18 4 ≤ 3600) && (!guest || decide (leAt b 0x18 4 = 0)) &&
      (if guest then decide (leAt b 0x1C 2 = 0) else decide (leAt b 0x1C 2 < 16384)) && decide (leAt b 0x1E 2 = 0) &&
      decide (leAt b 0x20 32 = 0)) 2,
    needLoad (ss.all (fun x => !x.rsv && decide (x.off % 256 = 0) && decide (0x40 + 32 * ss.length ≤ x.off) &&
      decide (x.off + x.len ≤ n) && decide (1 ≤ x.ty) && decide (x.ty ≤ 15)) &&
      ss.zipIdx.all (fun (x, i) => ss.zipIdx.all (fun (y, j) =>
        decide (j ≤ i) || decide (x.off + x.len ≤ y.off) || decide (y.off + y.len ≤ x.off)))) 2,
    needLoad (decide (leAt b 0x14 4 = (crc32c (zeroAt b 0x14 4)).toNat) &&
      ss.all (fun x => decide (x.crc = (crc32c (x.bytes b)).toNat))) 1]

/-- The section types of an image kind (R376). -/
def kindSecs (guest : Bool) : List Nat := if guest then [8, 9, 10, 11, 14, 15] else [1, 2, 3, 4, 5, 6, 7, 8, 9, 10, 11, 12, 13, 14]
/-- The map sections among them, all of which are required. -/
def mapSecs (guest : Bool) : List Nat := if guest then [8, 9, 10, 15] else [1, 2, 3, 4, 5, 6, 7, 8, 9, 10]
/-- The presence checks of R376; a map image holds map sections only. -/
def imageSecs (b : List Byte) (guest mapOnly : Bool) : Option (Nat × Nat) :=
  let ss := imgSecs b
  let cover (ty r : Nat) : Nat := ((secsOf b ty).filter (fun x => decide (x.rank = r) || decide (x.rank = 0xFFFF))).length
  firstRefusal [
    needLoad (ss.all (fun x => (if mapOnly then mapSecs guest else kindSecs guest).contains x.ty)) 5,
    needLoad ((mapSecs guest).all (fun t => !(secsOf b t).isEmpty)) 5,
    needLoad (guest || [2, 3].all (fun t => (List.range (imgP b)).all (fun r => decide (cover t r ≤ 1)))) 2,
    needLoad (guest || [2, 3].all (fun t => (List.range (imgP b)).all (fun r => decide (cover t r = 1)))) 5]

/-- The rank of a module in an image; 0xFFFF for a spare (R377). -/
def rankOf (b : List Byte) (dev : Nat) : Option Nat := ((moduleMap b).find? (fun e => decide (e.1 = dev))).map (fun e => e.2.1)
/-- Whether the modules of one rank meet R222: whole nodes of one size. Coordinates follow from the module identifiers (R9). -/
def nodesOk (mm : List (Nat × Nat × Nat)) (n : Nat) : Bool :=
  mm.all (fun e =>
    decide (e.2.1 = 0xFFFF) ||
    (let group := (mm.filter (fun x => decide (x.2.1 = e.2.1))).map (fun x => x.1)
     let key (d : Nat) : Nat × Nat := if n = 16 then (d % 2 ^ 8, fld d 10 8 / 2) else (d % 2 ^ 11, fld d 13 11 / max 1 n)
     decide (group.length = 1) || decide ((group.filter (fun d => decide (key d = key e.1))).length = n)))

/-- The map checks of a training image on one module (R374), in the order of their DETAILs: what belongs to the job is checked for every rank on
every module, a spare's too; the channels and the layout are the module's own. -/
def trainingMap (s : State) (b : List Byte) (rank part : Nat) : Option (Nat × Nat) :=
  let size := (s.mem.part part).size
  let ranks := List.range (imgP b)
  let stages := ranks.map (rankRec b 2 128)
  let mm := moduleMap b
  let bks (r : Nat) : List (List Byte) := entriesOf (secFor b 5 r) 32
  let coll (r : Nat) : List Byte := secFor b 4 r
  let group (r : Nat) : Nat := (mm.filter (fun e => decide (e.2.1 = r))).length
  let used := (List.range 192).filter (fun c => let x := s.chan (c / 32 * 32 + c % 32); x.valid && decide (x.owner < 4) && decide (x.owner ≠ 0))
  let gr := grantsOf b s.modId.toNat
  firstRefusal [
    needMap (stages.zipIdx.all (fun (e, r) => stageOk e part size && decide ((parseStage e).rank = r) && decide ((parseStage e).p = imgP b))) 1,
    needMap (ranks.all (fun r => decide (leNat (rankRec b 3 8 r) ≤ size))) 2,
    needMap (stages.all (fun e => decide ((parseStage e).thinTiles ≤ (parseStage e).capacity))) 3,
    needMap (ranks.all (fun r => shardsOk ((bks r).map parseBucket))) 4,
    needMap (ranks.all (fun r => [2, 4, 8, 16].contains (parseColl (coll r)).nodeN &&
      nodesOk (mm.filter (fun e => decide (e.2.1 = r))) (parseColl (coll r)).nodeN)) 5,
    needMap (ranks.all (fun r => bucketsOk (bks r) (group r))) 6,
    needMap (gr.all grantable && gr.all (fun c => !used.contains c) && decide (gr.eraseDups.length = gr.length)) 7,
    needMap (ranks.all (fun r => collOk (coll r) ((bks r).map parseBucket))) 8,
    needMap (epochSecOk (secFor b 7 rank) mm) 10,
    needMap (cqOk (layoutOf b rank) part size) 11]

/-- The map checks of a guest image (R374). -/
def guestMap (s : State) (b : List Byte) (slot part : Nat) : Option (Nat × Nat) :=
  let size := (s.mem.part part).size
  let gr := grantsOf b s.modId.toNat
  let cs := bindingOf b s.modId.toNat
  let others := [1, 2, 3].filter (fun k => decide (k ≠ slot))
  firstRefusal [
    needMap (gr.all grantable && gr.all (fun c => !((s.chan c).valid && decide ((s.chan c).owner ≠ slot))) &&
      decide (gr.eraseDups.length = gr.length)) 7,
    needMap (cs.all (fun no => others.all (fun k => !(s.slot k).bound.contains (no, true)))) 9,
    needMap (cqOk (layoutOf b 0xFFFF) part size) 11]

/-- Whether the records outside the map pass R97, R98 and R162 (R376). -/
def recordsOk (b : List Byte) : Bool :=
  let pol := secFor b 12 0xFFFF
  (entriesOf (secFor b 11 0xFFFF) 4).all (fun e => decide (fld (leNat e) 11 10 ≠ 3) && decide (leNat e / 65536 = 0)) &&
  ((secsOf b 12).isEmpty || (decide (pol.length = 16) && decide (0x3A800000 ≤ leAt pol 0 4) && decide (leAt pol 0 4 ≤ 0x3F800000) &&
    decide (1 ≤ leAt pol 4 2) && decide (leAt pol 4 2 ≤ 1024) && decide (1 ≤ leAt pol 6 2) && decide (leAt pol 6 2 ≤ leAt pol 8 2) &&
    decide (leAt pol 0xA 6 = 0))) &&
  (secFor b 13 0xFFFF).all (fun x => decide (x.toNat < 8))

/-- Every check of a job image on this module (R373 to R377). `mapOnly` is a JOB_MAP image. -/
def imageRefusal (s : State) (b : List Byte) (n slot part : Nat) (mapOnly : Bool) : Option (Nat × Nat) :=
  let guest := decide (slot ≠ 0)
  let rank := if guest then some 0xFFFF else rankOf b s.modId.toNat
  let cores := coresOf b (rank.getD 0xFFFF)
  firstRefusal [
    imageForm b n guest, imageSecs b guest mapOnly,
    needLoad (if guest then !(bindingOf b s.modId.toNat).isEmpty else rank.isSome) 6,
    if guest then guestMap s b slot part else if rank.isSome then trainingMap s b (rank.getD 0) part else none,
    needLoad (rank == some 0xFFFF && !guest || cores.all (fun c => c.exists' && c.headers.all (fun e =>
      routineOk c slot (grantsOf b s.modId.toNat) e.2) && s.joinsFit c)) 3,
    needLoad (rank == some 0xFFFF && !guest || cores.all (fun c => c.headers.all (fun e =>
      libraryOk c (librariesOf b ++ (if mapOnly then librariesOf (s.slot slot).base else [])) e.2))) 4,
    needLoad (mapOnly || recordsOk b) 8]

/-- Load one core's context from its part of the image (R196): its lines written, registers and tokens 0, nothing in flight, and
routine 0 begun where it can start. Where the core is newly bound to a guest slot, the guest window is zeros first (R194). -/
def State.loadCore (s : State) (slot : Nat) (c : CoreLoad) : State :=
  let p : Nat := c.no
  let s := s.modCore p (fun x =>
    let x := if c.guest && decide (x.guestBound ≠ slot) then
        { x with lmem := x.lmem.clearRange (10240 * 256) (2048 * 256), guestBound := slot } else x
    let x := { x with lmem := x.lmem.writeList (dirBase c.guest) c.bytes }
    let t : Ctx := { slot := slot, purse := (x.ctx c.guest).purse }
    let x := x.setCtx c.guest t
    { x with joiner := x.joiner.filter (fun j => j.guest != c.guest), tq := x.tq.filter (fun e => e.guest != c.guest) })
  if canStart (s.core p) c.guest 0 then
    s.startRoutine { x := Fin.ofNat 48 (p % 48), y := Fin.ofNat 48 (p / 48), guest := c.guest } 0
  else s

/-- Load every core of a slot's image for a rank (R373, R390). -/
def State.loadRoutines (s : State) (k rank : Nat) : State :=
  (coresOf (s.slot k).image rank).foldl (fun s c => s.loadCore k c) s

end Sys2Proof.Machine
end

