-- ==== Sys2Proof/Machine/Chest.lean ====
section
/-! DEFINITION. The toy-chest controller (R205 to R214): addresses, places, grants, spills, recalls and releases. -/

namespace Sys2Proof.Machine

/-- A chest address (R206): MB, U, B, OFFSET. -/
structure ChestAddr where
  mb : Nat
  u : Nat
  b : Nat
  off : Nat
  deriving DecidableEq, Repr

/-- Fields of a chest address. -/
def chestAddr (a : Nat) : ChestAddr := { mb := fld a 55 44, u := fld a 43 41, b := fld a 40 36, off := fld a 35 0 }
/-- The stage record of slot 0. -/
def State.stage (s : State) : StageRec := (s.slot 0).stage

/-- Where `n` bytes from byte `a` of the SRAM tier lie, as (core, local offset, length) (R208): the chest lines of core after core are one
run, which tiles fill from its beginning. -/
def StageRec.sramPieces (g : StageRec) : (fuel a n : Nat) → List (Nat × Nat × Nat)
  | 0, _, _ => []
  | k + 1, a, n =>
    if n = 0 then []
    else
      let per := max 1 (g.chestLines * 256)
      let m := min n (per - a % per)
      (a / per, (10112 - g.chestLines) * 256 + a % per, m) :: g.sramPieces k (a + m) (n - m)
/-- The device address of off-load tile `p`. -/
def StageRec.dramPlace (g : StageRec) (p : Nat) : Nat := g.offBase + p * 16384

/-- The recall key of an entry (R211): the index of the backward chunk op that reads it, and its position. -/
def StageRec.key (g : StageRec) (mb u b : Nat) : Nat :=
  let p := max 1 g.p
  (mb / p * (p * g.v) + (g.v - 1 - u) * p + mb % p) * 32 + (31 - b)

/-- The stored tile of an entry, if any. -/
def Chest.find (c : Chest) (a : ChestAddr) (t : Nat) : Option CTile :=
  c.tiles.find? (fun x => decide (x.mb = a.mb) && decide (x.u = a.u) && decide (x.b = a.b) && decide (x.t = t))
/-- The tiles of an access. -/
def tilesOf (off n : Nat) : List Nat := (List.range ((off + n + 16383) / 16384 - off / 16384)).map (fun i => off / 16384 + i)

/-- Whether a chest access is allowed (R207): inside one entry, a write only under its grant, a read only of stored tiles. -/
def State.chestOk (s : State) (guest wr : Bool) (addr n : Nat) : Bool :=
  let a := chestAddr addr
  let g := s.stage
  !guest && decide (a.u < g.v) && decide (a.b ≤ g.blocks.getD a.u 0) && decide (a.off + n ≤ g.entry.getD a.u 0 * 16384) &&
  (if wr then s.chest.grants.any (fun x => decide (x.mb = a.mb) && decide (x.u = a.u) && !(x.thin && decide (a.b % 2 = 1)))
   else (tilesOf a.off n).all (fun t => (s.chest.find a t).isSome))

/-- Change the chest. -/
def State.modChest (s : State) (f : Chest → Chest) : State := { s with chest := f s.chest }

/-- The lowest free tile of a tier. -/
def Chest.freeTile (c : Chest) (sram : Bool) (cap : Nat) : Option Nat :=
  let used := (c.tiles.filter (fun x => x.sram == sram)).map (fun x => x.place)
  (List.range (min cap (used.length + 1))).find? (fun p => !used.contains p)
/-- The SRAM tile with the largest key. -/
def Chest.top (c : Chest) : Option CTile :=
  (c.tiles.filter (fun x => x.sram)).foldl (fun b x => match b with
    | none => some x
    | some y => if y.key < x.key then some x else b) none
/-- The off-load tile with the smallest key (R212). -/
def Chest.low (c : Chest) : Option CTile :=
  (c.tiles.filter (fun x => !x.sram)).foldl (fun b x => match b with
    | none => some x
    | some y => if x.key < y.key then some x else b) none

/-- The bytes of an SRAM tile. -/
def State.sramRead (s : State) (p n o : Nat) : List Byte :=
  ((s.stage.sramPieces 66 (p * 16384 + o) n).map (fun (c, a, m) => rdBytes (s.core c).lmem.read a m)).flatten
/-- Write bytes into an SRAM tile. -/
def State.sramWrite (s : State) (p o : Nat) (bs : List Byte) : State :=
  ((s.stage.sramPieces 66 (p * 16384 + o) bs.length).foldl (fun (r : State × List Byte) (c, a, m) =>
    (r.1.modCore c (fun x => { x with lmem := x.lmem.writeList a (r.2.take m) }), r.2.drop m)) (s, bs)).1
/-- A request of the toy-chest controller to the off-load region, in the slot-0 partition (R208, R298). -/
def chestReq (a n tc : Nat) : MemReq := { who := .slot 0#2, addr := BitVec.ofNat 64 a, len := n, tc := BitVec.ofNat 2 tc }

/-- The counter key of the chest. -/
def ckChest (id : Nat) : CKey := { id := id, slot := some 0 }

/-- Replace a tile. -/
def State.moveTile (s : State) (x : CTile) (sram : Bool) (place : Nat) (recalled : Bool) : State :=
  s.modChest (fun c => { c with tiles := c.tiles.map (fun y =>
    if y = x then { x with sram := sram, place := place, recalled := recalled } else y) })

/-- Give an arriving tile its place (R211): a free SRAM tile; else the SRAM tile with the largest key, when that exceeds the new
key, is spilled by a BULK write; else the off-load region. `none` where the spill waits for the partition's BULK regulator (R300). -/
def State.placeTile (s : State) (a : ChestAddr) (t : Nat) : Option State :=
  match s.chest.find a t with
  | some _ => some s
  | none =>
    let g := s.stage
    let key := g.key a.mb a.u a.b
    let add (s : State) (sram : Bool) (p : Nat) : State := (s.modChest (fun c => { c with
      tiles := c.tiles ++ [{ mb := a.mb, u := a.u, b := a.b, t := t, key := key, sram := sram, place := p }] })).count
        (ckChest Ctr.chestTilesStashed)
    match s.chest.freeTile true g.sramTiles with
    | some p => some (add s true p)
    | none =>
      let d := (s.chest.freeTile false g.offTiles).getD 0
      match s.chest.top with
      | some x =>
        if key < x.key then
          match s.memWrite (chestReq (g.dramPlace d) 16384 2) (s.sramRead x.place 16384 0) with
          | (s, .ok _) => some (add ((s.moveTile x false d false).count (ckChest Ctr.chestSpillTiles)) true x.place)
          | _ => none
        else some (add s false d)
      | none => some (add s false d)

/-- Tiles reserved by grants (R209). -/
def Chest.reserved (c : Chest) : Nat := (c.grants.map (fun g => g.tiles)).sum

/-- The tiles of a FULL or THIN grant of chunk `u` (R209). -/
def StageRec.grantTiles (g : StageRec) (u : Nat) (thin : Bool) : Nat :=
  let n := g.blocks.getD u 0 + 1
  (if thin then (n + 1) / 2 else n) * g.entry.getD u 0

/-- The grant decision of R209 for chunk `u`: THIN or FULL, or the grant waits. -/
def State.grantKind (s : State) (u : Nat) : Option Bool :=
  let g := s.stage
  let c := s.chest
  let nx (v : Nat) : Nat := SMap.get 0 c.next v
  let oldest := ((List.range g.v).map nx).foldl min (nx u)
  let free : Int := (g.sramTiles + g.offTiles : Nat) - (c.reserved : Int)
  let reserve : Int := if nx u = oldest then 0
    else ((((List.range g.v).filter (fun v => decide (nx v = oldest))).map (fun v => g.grantTiles v true)).sum : Nat)
  if !g.thinAlways && decide (reserve ≤ free - g.grantTiles u false) then some false
  else if reserve ≤ free - g.grantTiles u true then some true else none

/-- The chunks whose next grant is wanted: a micro-batch of the step is left and the chunk's credit is free (R209). -/
def State.grantable (s : State) : List Nat :=
  let m := ((s.slot 0).run.map (fun r => r.m)).getD 0
  (List.range s.stage.v).filter (fun u => decide (SMap.get 0 s.chest.next u < m) && !s.chest.out.contains u)

/-- The chunk that is granted next: the lowest micro-batch, then the lowest chunk, among those that fit (R209). -/
def State.grantNext (s : State) : Option Nat :=
  (s.grantable.filter (fun u => (s.grantKind u).isSome)).foldl (fun b u => match b with
    | none => some u
    | some v => if SMap.get 0 s.chest.next u < SMap.get 0 s.chest.next v then some u else b) none

/-- CHEST_GRANT (R209): the grant word goes to the chunk's gate as an LC message from the controller. -/
def execChestGrant (s : State) : Host.Outcome State Fault Refusal :=
  match s.grantNext with
  | none => .next s
  | some u =>
    let g := s.stage
    let thin := (s.grantKind u).getD true
    let mb := SMap.get 0 s.chest.next u
    let gc := g.gateCore.getD u 0
    let word := mb + u * 4096 + b2n thin * 32768
    let s := s.modChest (fun c => { c with
      next := SMap.set 0 c.next u (mb + 1), out := c.out ++ [u]
      grants := c.grants ++ [{ mb := mb, u := u, thin := thin, tiles := g.grantTiles u thin }] })
    let s := if thin ∧ 1 ≤ g.blocks.getD u 0 then s.count (ckChest Ctr.chestThinGrants) else s
    .next ((s.peak (ckChest Ctr.chestPeakTiles) s.chest.reserved).inject
      { destDev := s.modId, destX := BitVec.ofNat 6 gc, destY := BitVec.ofNat 6 (gc / 64)
        channel := BitVec.ofNat 8 (g.gateCh.getD u 0), tc := 0#2, slot := 0#2, seq := 0#16, srcDev := s.modId, srcX := 0x3F#6
        srcY := 0x3F#6, kind := 0#4, rsd := false, endf := false, nf := false, arg := 0#12, hcheck := 0#16
        payload := [BitVec.ofNat 32 word] })

/-- Whether a grant waits (R209): a chunk's next micro-batch finds no row of the table. -/
def State.grantWaits (s : State) : Bool := s.grantable.any (fun u => (s.grantKind u).isNone)

/-- CHEST_RECALL (R212): the off-load tile with the smallest key moves into a free SRAM tile by an LC read, while fewer than PREFETCH_TILES
recalled tiles wait for their DLOADs. -/
def execChestRecall (s : State) : Host.Outcome State Fault Refusal :=
  let g := s.stage
  match s.chest.low, s.chest.freeTile true g.sramTiles with
  | some x, some p =>
    if (s.chest.tiles.filter (fun t => t.recalled)).length < g.prefetch then
      match s.memRead (chestReq (g.dramPlace x.place) 16384 0) with
      | (s, .ok bytes) => .next (((s.sramWrite p 0 bytes).moveTile x true p true).count (ckChest Ctr.chestRecallTiles))
      | (s, _) => .next s
    else .next s
  | _, _ => .next s

/-- Release the tiles that an access covered (R213): they leave both tiers and the reservation of their grant. -/
def State.releaseTiles (s : State) (addr n : Nat) : State :=
  let a := chestAddr addr
  let ts := (tilesOf a.off n).filter (fun t => (s.chest.find a t).isSome)
  s.modChest (fun c => { c with
    tiles := c.tiles.filter (fun x => !(decide (x.mb = a.mb) && decide (x.u = a.u) && decide (x.b = a.b) && ts.contains x.t))
    grants := (c.grants.map (fun g => if g.mb = a.mb ∧ g.u = a.u then { g with tiles := g.tiles - ts.length } else g)).filter
      (fun g => decide (g.tiles ≠ 0)) })

/-- Free every tile and grant (R214): at a boundary the tiles still stored are counted and reported, on an abandon not. -/
def State.emptyChest (s : State) (leak : Bool) : State :=
  let n := s.chest.tiles.length
  let s := { s with chest := {} }
  if leak && decide (0 < n) then
    (s.count (ckChest Ctr.chestLeak) n).post 0x0205 .info (some 0) (unitRef 8 0) (payload [(4, n)])
  else s

/-- A gate routine has freed a grant (R209): the chunk's credit returns. -/
def State.gateCredit (s : State) (x y ch : Nat) : State :=
  let g := s.stage
  match s.chest.out.find? (fun u => decide (g.gateCore.getD u 0 = x + y * 64) && decide (g.gateCh.getD u 0 = ch)) with
  | some u => s.modChest (fun c => { c with out := c.out.erase u })
  | none => s

end Sys2Proof.Machine
end

