-- ==== Sys2Proof/Machine/RotateMath.lean ====
section
/-! DEFINITION. The pinwheel's arithmetic (R85 to R88, R90) and the hash that shadow-play shares with it (R87, R103). -/

namespace Sys2Proof
namespace Rot

/-- The SplitMix64 finaliser (R87). -/
def mix64 (z : Long) : Long :=
  let z := (z ^^^ (z >>> 30)) * 0xBF58476D1CE4E5B9#64
  let z := (z ^^^ (z >>> 27)) * 0x94D049BB133111EB#64
  z ^^^ (z >>> 31)

/-- The sign word of contraction indices 64w to 64w + 63 (R87); axis 0 takes no step (R88). -/
def signWord (seed : Long) (step layer axis w : Nat) : Long :=
  let s := if axis = 0 then 0 else step % 2 ^ 32
  let base := mix64 (seed ^^^ BitVec.ofNat 64 (s * 2 ^ 24 + layer % 65536 * 256 + axis))
  mix64 (base + BitVec.ofNat 64 w * 0x9E3779B97F4A7C15#64)

/-- Whether the sign of contraction index k is flipped. -/
def signBitAt (seed : Long) (step layer axis k : Nat) : Bool :=
  ((signWord seed step layer axis (k / 64)) >>> (k % 64)).toNat % 2 = 1

/-- One butterfly stage of half-width h (R87). -/
def stage (h : Nat) (y : List Word) : List Word :=
  (List.range y.length).map (fun i =>
    if i / h % 2 = 0 then Fp.addRne (y.getD i 0#32) (y.getD (i + h) 0#32)
    else Fp.subRne (y.getD (i - h) 0#32) (y.getD i 0#32))

/-- The stages h, 2h, ... (R87). -/
def stages : (k h : Nat) → List Word → List Word
  | 0, _, y => y
  | k + 1, h, y => stages k (2 * h) (stage h y)

/-- log2 n of a ROT_N value. -/
def logN (rotN : Nat) : Nat := rotN + 4
/-- The window length n of a ROT_N value (R32). -/
def winLen (rotN : Nat) : Nat := 2 ^ logN rotN

/-- Whether a butterfly sum of two finite operands leaves the FP32 range in the stage of half-width h (R90). -/
def stageOvf (h : Nat) (y : List Word) : Bool :=
  ((List.range y.length).zip (stage h y)).any (fun (i, v) =>
    Fp.isNonFinite v && !Fp.isNonFinite (y.getD i 0#32) && !Fp.isNonFinite (y.getD (if i / h % 2 = 0 then i + h else i - h) 0#32))
/-- Whether one does in the stages h, 2h, ... -/
def stagesOvf : (k h : Nat) → List Word → Bool
  | 0, _, _ => false
  | k + 1, h, y => stageOvf h y || stagesOvf k (2 * h) (stage h y)

/-- The elements of a window with their signs set (R87). -/
def signed (x : List Word) (k0 : Nat) (seed : Long) (step layer axis : Nat) : List Word :=
  x.zipIdx.map (fun (v, j) => if signBitAt seed step layer axis (k0 + j) then Fp.fneg v else v)

/-- rotate_window (R87). -/
def window (x : List Word) (k0 rotN : Nat) (seed : Long) (step layer axis : Nat) : List Word :=
  stages (logN rotN) 1 (signed x k0 seed step layer axis)

/-- Whether a finite input of a window produced an infinity (R90). -/
def overflowed (x : List Word) (k0 rotN : Nat) (seed : Long) (step layer axis : Nat) : Bool :=
  stagesOvf (logN rotN) 1 (signed x k0 seed step layer axis)

/-- Rotate a line of g * 64 elements whose first contraction index is k0: all its windows, and how many overflowed. -/
def line (x : List Word) (k0 rotN : Nat) (seed : Long) (step layer axis : Nat) : List Word × Nat :=
  let n := winLen rotN
  let ws := (List.range (x.length / n)).map (fun i =>
    let w := (x.drop (i * n)).take n
    (window w (k0 + i * n) rotN seed step layer axis, overflowed w (k0 + i * n) rotN seed step layer axis))
  ((ws.map (fun p => p.1)).flatten, (ws.filter (fun p => p.2)).length)

end Rot
end Sys2Proof
end

