-- ==== Sys2Proof/Machine/UpdateMath.lean ====
section
/-! DEFINITION. The arithmetic of the update engine (chapter 7): update records, master values, moments, learned scales, residuals,
the update gain, the inverse rotation and the update-to-weight watch. -/

namespace Sys2Proof

/-- An update record (R154). -/
structure UpdRec where
  gscale : Word
  b1 : Word
  omb1 : Word
  b2 : Word
  omb2 : Word
  c1 : Word
  c2 : Word
  eps2 : Word
  nlr : Word
  ndecay : Word
  gclip : Word
  sigma : Word
  uwLo : Word
  uwHi : Word
  ksat : Nat
  klost : Nat
  scaleFreeze : Bool
  kFreeze : Bool
  deriving DecidableEq, Repr

namespace Upd

/-- Word `k` of a record. -/
def word (b : List Byte) (k : Nat) : Word := BitVec.ofNat 32 (leNat ((b.drop (4 * k)).take 4))
/-- Read an update record (R154). -/
def parse (b : List Byte) : UpdRec :=
  let w := word b
  let f := (w 14).toNat
  { gscale := w 0, b1 := w 1, omb1 := w 2, b2 := w 3, omb2 := w 4, c1 := w 5, c2 := w 6, eps2 := w 7, nlr := w 8, ndecay := w 9
    gclip := w 10, sigma := w 11, uwLo := w 12, uwHi := w 13, ksat := fld f 3 0, klost := fld f 7 4
    scaleFreeze := bitOf f 8, kFreeze := bitOf f 9 }

/-- Whether a field of a record, by its word number, is as R154 and R155 require. -/
def fieldOk (b : List Byte) (k : Nat) : Bool :=
  let w := word b
  let x := w k
  let one := 0x3F800000#32
  if k = 14 then decide (x.toNat < 1024)
  else if k = 15 then decide (x = 0#32)
  else
    !Fp.isNonFinite x &&
    (if k = 1 ∨ k = 3 then Fp.fle 0#32 x && Fp.flt x one
     else if k = 7 then Fp.flt 0#32 x
     else if k = 9 then Fp.fle 0xBF800000#32 x && Fp.fle x 0#32
     else if k = 11 then Fp.fle 0x3A800000#32 x && Fp.fle x one
     else if k = 12 then Fp.feq (w 13) 0#32 || Fp.isNonFinite (w 13) || Fp.fle x (w 13)
     else true)
/-- The byte offset of a record's first offending field (R155, R365). -/
def offender (b : List Byte) : Option Nat := ((List.range 16).find? (fun k => !fieldOk b k)).map (fun k => 4 * k)
/-- The first refusal of an update-record table (R155). -/
def tableRefusal (t : List Byte) : Option Nat :=
  ((List.range (t.length / 64)).filterMap (fun i => offender ((t.drop (64 * i)).take 64))).head?

/-- The residual's weight, res x 2^-(6+K) in units of the learned scale (R151), as an exact number. -/
def resFrac (res : Int) (k : Nat) : Frac := { num := res, den := 2 ^ (6 + k) }
/-- The master value of an element (R151): its decode plus its residual in units of the learned scale. -/
def master (p : Word) (scale : Frac) (res : Int) (k : Nat) : Word :=
  Fp.addRne p (BitVec.ofNat 32 (Frac.round Fp.fp32 (Frac.mul scale (resFrac res k))))

/-- The stochastic-rounding bits of an element (R157). -/
def srBits (seed : Long) (step layer sel e : Nat) : Nat :=
  let base := Rot.mix64 (seed ^^^ (BitVec.ofNat 64 (step * 2 ^ 24) ||| BitVec.ofNat 64 (layer * 2 ^ 8) ||| 0x40#64 ||| BitVec.ofNat 64 sel))
  let w := Rot.mix64 (base + BitVec.ofNat 64 (e / 4) * 0x9E3779B97F4A7C15#64)
  w.toNat / 2 ^ (16 * (e % 4)) % 65536
/-- Stochastic rounding to BF16 (R157). -/
def srBf16 (x : Word) (r : Nat) : Half := BitVec.ofNat 16 ((x.toNat + r) % 2 ^ 32 / 65536)
/-- The ordinal of block `b` of a shard in the whole tensor (R157). -/
def blockOrdinal (firstTrow cols b : Nat) : Nat := firstTrow * (cols / 64) * 128 + b

/-- gk of R156: mul_rne(GSCALE, 2^-log2 n), with n = 1 when ROT_N is 0. -/
def gk (r : UpdRec) (rotN : Nat) : Word :=
  Fp.mulRne r.gscale (BitVec.ofNat 32 ((127 - if rotN = 0 then 0 else Rot.logN rotN) * 2 ^ 23))

/-- The scaled and clipped gradient g of R156. -/
def grad (r : UpdRec) (rotN : Nat) (gs : Word) : Word :=
  let g := Fp.mulRne gs (gk r rotN)
  if Fp.isZero r.gclip then g else Fp.fmin (Fp.fmax g (Fp.fneg r.gclip)) r.gclip
/-- Whether `y` lies within 2 ulp of 1/sqrt(x) (R142), for a finite x above 0: the values two steps below and above enclose the root. -/
def nearRsqrt (x y : Word) : Bool :=
  let sq (w : Word) : Frac := Frac.mul (Frac.mul (Frac.ofF32 w) (Frac.ofF32 w)) (Frac.ofF32 x)
  !Fp.isNonFinite (y + 2#32) && Fp.flt 0#32 y && !Frac.lt (Frac.ofInt 1) (sq (y - 2#32)) && !Frac.lt (sq (y + 2#32)) (Frac.ofInt 1)
/-- The rsqrt recipe of a recipe library (R142): what the library's sequence gives, within what Asard guarantees of every recipe (a NaN
for a NaN) and of version 3's: the special inputs of its row and, for the others, 2 ulp (log 7). -/
def rsqrt (lib : List Byte) (version : BitVec 8) (x : Word) : Word :=
  let y := Config.rsqrt lib x
  if Fp.isNan x then Fp.qnan
  else if version ≠ 3#8 then y
  else if Fp.isZero x then x ||| 0x7F800000#32
  else if x.getLsbD 31 then Fp.qnan
  else if Fp.isNonFinite x then (if y.toNat ≤ 2 then y else 0#32)
  else if nearRsqrt x y then y
  else BitVec.ofNat 32 (Frac.round Fp.fp32 (Frac.div (Frac.ofInt 1) (Frac.ofF32 (Fp.sqrtF32 x))))
/-- One element's update (R156): the new master, m, v and d, or none when the element is frozen (R158); `rsq` is the recipe of its library. -/
def element (rsq : Word → Word) (r : UpdRec) (rotN : Nat) (a : Word) (m v : Half) (gs : Word) (rm rv : Nat) : Option (Word × Half × Half × Word) :=
  let g := grad r rotN gs
  let m1 := Fp.addRne (Fp.mulRne r.b1 (Fp.ofBf16 m)) (Fp.mulRne r.omb1 g)
  let v1 := Fp.addRne (Fp.mulRne r.b2 (Fp.ofBf16 v)) (Fp.mulRne r.omb2 (Fp.mulRne g g))
  let q := Fp.mulRne (Fp.mulRne m1 r.c1) (rsq (Fp.addRne (Fp.mulRne v1 r.c2) r.eps2))
  let d := Fp.addRne (Fp.mulRne r.nlr q) (Fp.mulRne r.ndecay a)
  let a1 := Fp.addRne a d
  let m2 := srBf16 m1 rm
  let v2 := srBf16 v1 rv
  if Fp.isNonFinite gs || Fp.isNonFinite a1 || Fp.isNonFinite (Fp.ofBf16 m2) || Fp.isNonFinite (Fp.ofBf16 v2) then none else some (a1, m2, v2, d)

/-- The learned scale's step (R159): `lam` holds the level of each coded element, none for the others; `j` is (E << 3) | M. -/
def stepScale (r : UpdRec) (k : Nat) (lam : List (Option Int)) (res : List Int) (g : List Word) (j : Nat) : Nat :=
  let dev (l : Int) (x : Int) : Word :=
    let t := Frac.add (Frac.ofInt l) (resFrac x k)
    if Frac.le (Frac.abs t) (Frac.ofInt 14) then BitVec.ofNat 32 (Frac.round Fp.fp32 (Frac.sub (Frac.ofInt l) t)) else Fp.ofInt l
  let row (f : Int → Int → Word → Word) : List Word := (List.range 32).map (fun i =>
    match lam.getD i none with
    | some l => f l (res.getD i 0) (g.getD i 0#32)
    | none => 0#32)
  let tree (xs : List Word) : Word := (Prod.tree Fp.addRne 5 xs).headD 0#32
  let num := tree (row (fun l x gi => Fp.mulRne gi (dev l x)))
  let den := tree (row (fun l _ gi => Fp.fabs (Fp.mulRne gi (Fp.ofInt l))))
  let lim := Fp.mulRne r.sigma den
  if r.scaleFreeze || !Fp.flt 0#32 den then j
  else if Fp.flt lim num then max 0x008 (j - 1)
  else if Fp.flt num (Fp.fneg lim) then min 0x7F7 (j + 1)
  else j

/-- The new residual of an element and whether it was clamped (R161). -/
def residual (a p : Word) (scale : Frac) (k : Nat) : Int × Bool :=
  if Fp.isNonFinite a || Fp.isNonFinite p then (0, false)
  else
    let q := Frac.rne (Frac.div (Frac.mul (Frac.sub (Frac.ofF32 a) (Frac.ofF32 p)) (Frac.ofInt (2 ^ (6 + k)))) scale)
    if q < -128 then (-128, true) else if 127 < q then (127, true) else (q, false)

/-- next_k of R162. -/
def nextK (k n lost sat : Nat) (r : UpdRec) : Nat :=
  if r.kFreeze then k
  else if n < sat * 2 ^ r.ksat ∧ 0 < k then k - 1
  else if n < lost * 2 ^ r.klost ∧ k < 7 then k + 1
  else k

/-- unrotate of R163: the butterflies, the axis 0 signs under step input 0, and the exact factor 1/n. -/
def unrotate (p : List Word) (k0 rotN : Nat) (seed : Long) (layer : Nat) : List Word :=
  (Rot.stages (Rot.logN rotN) 1 p).zipIdx.map (fun (y, j) =>
    let y := if Rot.signBitAt seed 0 layer 0 (k0 + j) then y ^^^ 0x80000000#32 else y
    Fp.mulRne y (BitVec.ofNat 32 (Frac.round Fp.fp32 { num := 1, den := Rot.winLen rotN })))

/-- The update-to-weight ratio (R168) of the two sums, as FP32; a NaN, or a quotient of two infinities, is a NaN (R49). -/
def uwRatio (dd aa : Word) : Word :=
  if Fp.isNan dd || Fp.isNan aa then Fp.qnan
  else if Fp.isNonFinite dd then (if Fp.isNonFinite aa then Fp.qnan else 0x7F800000#32)
  else if Fp.isNonFinite aa then 0#32
  else if Fp.isZero aa then (if Fp.isZero dd then 0#32 else 0x7F800000#32)
  else Fp.sqrtF32 (BitVec.ofNat 32 (Frac.round Fp.fp32 (Frac.div (Frac.ofF32 dd) (Frac.ofF32 aa))))
/-- Whether the watch posts UW_BAND (R168). -/
def outOfBand (r : UpdRec) (ratio : Word) : Bool := !Fp.isZero r.uwHi && !(Fp.fle r.uwLo ratio && Fp.fle ratio r.uwHi)

end Upd
end Sys2Proof
end

