-- ==== Sys2Proof/Machine/Journal.lean ====
section
/-! DEFINITION. The music-box journal (R405 to R408), counters as telemetry (R379, R380), and what rose in a step. -/

namespace Sys2Proof.Machine

/-- A device address. -/
def devAddr (part off : Nat) : Nat := part * 2 ^ 45 + off

/-- The partition of the journal: the first valid one of OWNER 5 (R405). -/
def State.journalPart (s : State) : Option Nat := (List.range 8).find? (fun k => (s.mem.part k).valid && decide ((s.mem.part k).owner = 5))
/-- Change the journal's ring state. -/
def State.modJournal (s : State) (f : Journal → Journal) : State := { s with journal := f s.journal }

/-- Write a record into the ring (R405): contiguous, from the ring's beginning when it would cross the end, over the oldest whole
records; head and tail go to the partition's first 256 bytes (log 44). -/
def State.writeJournal (s : State) (k step : Nat) (bytes : List Byte) : State :=
  match s.journalPart with
  | none => s
  | some part =>
    let size := (s.mem.part part).size
    let n := bytes.length
    if size < 256 + n then s
    else
      let head := max 256 s.journal.head
      let at' := if size < head + n then 256 else head
      let dead (e : Nat × Nat × Nat × Nat) : Bool := decide (e.2.2.1 < at' + n) && decide (at' < e.2.2.1 + e.2.2.2)
      let gone := (s.journal.recs.filter dead).length
      let recs := s.journal.recs.filter (fun e => !dead e) ++ [(step, k, at', n)]
      let tail := ((recs.head?).map (fun e => e.2.2.1)).getD at'
      let s := (s.modJournal (fun j => { j with head := at' + n, tail := tail, recs := recs })).devWrite (devAddr part at') bytes
      let s := s.devWrite (devAddr part 0) (leBytes 8 (at' + n) ++ leBytes 8 tail)
      ((s.count { id := Ctr.journalRecords, slot := some k }).count { id := Ctr.journalBytes, slot := some k } (n / 64)).count
        { id := Ctr.journalOverwritten, slot := some k } gone

/-- The decided record of a step that the journal still holds, and its bytes (R372): the newest one that is not an abandon. -/
def State.journalRecord (s : State) (k step : Nat) : Option (List Byte) :=
  match s.journalPart with
  | none => none
  | some part =>
    ((s.journal.recs.filter (fun e => decide (e.1 = step) && decide (e.2.1 = k))).map (fun e => s.devRead (devAddr part e.2.2.1) e.2.2.2)).reverse.find?
      (fun b => decide (fld (leAt b 4 4) 19 18 ≠ 2))

/-- The bytes of a journal record (R406), RECORD_CRC formed last. -/
def recordBytes (x : Slot) (k : Nat) (r : Run) (dec : Nat) (upd : List Byte) (tensors closes : List (List Byte)) : List Byte :=
  let cl := closes.flatten
  let body := upd ++ tensors.flatten ++ cl
  let body := body ++ List.replicate ((64 - body.length % 64) % 64) 0#8
  let nf := b2n (decide (dec = 1))
  let head (crc : Nat) : List Byte :=
    leBytes 4 r.step ++ leBytes 4 (x.epoch.epoch + k * 2 ^ 16 + dec * 2 ^ 18 + nf * 2 ^ 20 + b2n x.nf * 2 ^ 21 + b2n r.repair * 2 ^ 22) ++
    leBytes 8 x.seed.toNat ++ leBytes 8 r.batch ++ leBytes 4 (r.m - 1) ++ leBytes 4 x.epoch.perm ++ leBytes 4 tensors.length ++
    leBytes 4 closes.length ++ leBytes 4 (crc32c upd).toNat ++ leBytes 4 (64 + body.length) ++ leBytes 4 x.abandons ++
    leBytes 4 x.skipped ++ leBytes 4 (upd.length / 64) ++ leBytes 4 crc
  head (crc32c (head 0 ++ body)).toNat ++ body

/-- The update-record table of a journal record. -/
def recUpd (b : List Byte) : List Byte := (b.drop 64).take (64 * leAt b 0x38 4)
/-- The tensor entries of a journal record. -/
def recTensors (b : List Byte) : List (List Byte) :=
  (List.range (leAt b 0x20 4)).map (fun i => (b.drop (64 + 64 * leAt b 0x38 4 + 32 * i)).take 32)
/-- The close records of a journal record, from byte `o` on. -/
def closesFrom (b : List Byte) : (n o : Nat) → List (List Byte)
  | 0, _ => []
  | n + 1, o =>
    let len := 16 + (leAt b (o + 0xC) 4 % 2 ^ 15 * 2 + 3) / 4 * 4
    (b.drop o).take len :: closesFrom b n (o + len)
/-- The close records of a journal record. -/
def recCloses (b : List Byte) : List (List Byte) :=
  closesFrom b (leAt b 0x24 4) (64 + 64 * leAt b 0x38 4 + 32 * leAt b 0x20 4)
/-- The members of a bucket's last close that was not an AB close, in arrival position (R239). -/
def recOrder (b : List Byte) (bucket : Nat) : Option (List Nat) :=
  (((recCloses b).filter (fun c => decide (leAt c 0 4 % 2 ^ 20 = bucket) && !bitOf (leAt c 4 4) 31)).getLast?).map (fun c =>
    (List.range (leAt c 0xC 4 % 2 ^ 15)).map (fun i => leAt c (16 + 2 * i) 2))

/-- How much the counters that meet `p` rose since the last step boundary, with what was cleared from them meanwhile. -/
def State.rise (s : State) (p : CKey → Bool) : Nat :=
  let sum (l : List (CKey × Nat)) : Nat := ((l.filter (fun e => p e.1)).map (fun e => e.2)).sum
  sum s.counters + sum s.cleared - sum s.seen
/-- A counter of a main context under a layer. -/
def ofLayer (id layer : Nat) (k : CKey) : Bool := decide (k.id = id) && decide (k.layer = some layer) && decide (k.ctx ≠ some true)
/-- The same, for one product. -/
def ofProduct (id layer product : Nat) (k : CKey) : Bool := ofLayer id layer k && decide (k.product = some product)

/-- A tensor entry of a journal record (R406). -/
def State.tensorEntry (s : State) (d : ShardDone) : List Byte :=
  let r (id : Nat) : Nat := s.rise (ofLayer id d.layer)
  let fb := ([Ctr.fbOutlier, Ctr.fbSpread, Ctr.fbScaleRange, Ctr.fbPolicy, Ctr.fbEnergy].map r).sum
  leBytes 2 d.layer ++ leBytes 2 d.shard ++ leBytes 4 (d.k + d.kNext * 8) ++
    leBytes 4 (SMap.get 0x200#32 (s.slot 0).modes d.layer).toNat ++ leBytes 4 (r Ctr.scaleOverride) ++ leBytes 4 fb ++
    leBytes 4 (r Ctr.tileFb) ++ leBytes 4 d.frozen ++ leBytes 4 0

/-- The die that a counter belongs to (R379), numbered as R366: its own, its core's, or its port's or channel's. -/
def ctrDie (k : CKey) : Option Nat :=
  match k.die, k.core, k.unit with
  | some d, _, _ => some d
  | none, some c, _ => some (dieOf c)
  | none, none, some u =>
    if k.id / 256 = 0x0C then some (16 + u / 12) else if k.id / 256 = 0x0B then some (20 + u / 4)
    else if k.id / 256 = 0x0D then some (u / 32) else none
  | none, none, none => none
/-- The INDEX under which a counter is reported at a SCOPE (R379). -/
def scopeIndex (scope : Nat) (k : CKey) : Option Nat :=
  match scope with
  | 0 => some 0
  | 1 => ctrDie k
  | 2 => k.core.map coreRef
  | 3 => match k.layer, k.product with
    | some l, some p => some (l + p * 65536)
    | _, _ => none
  | 4 => if k.die.isNone && (decide (k.id / 256 = 0x0C) || decide (k.id / 256 = 0x0B)) then k.unit else none
  | 5 => if k.die.isSome && decide (k.id / 256 = 0x0C) then k.unit else none
  | 6 => if k.id / 256 = 0x0D then k.unit else none
  | 7 => if k.product.isNone then k.layer else none
  | _ => none
/-- CTX of a counter (R379). -/
def ctrCtx (k : CKey) : Nat := match k.ctx with | some false => 0 | some true => 1 | none => 2

/-- Insert a number into an ascending list without repeats. -/
def insNat (n : Nat) : List Nat → List Nat
  | [] => [n]
  | a :: t => if n < a then n :: a :: t else if n = a then a :: t else a :: insNat n t
/-- The telemetry entries of a scope, over the counters that meet `p`, by ascending INDEX, COUNTER and CTX (log 51). -/
def telemEntries (cs : List (CKey × Nat)) (scope : Nat) (p : CKey → Bool) : List (List Byte) :=
  let key (k : CKey) : Option Nat := (scopeIndex scope k).map (fun i => (i * 65536 + k.id) * 4 + ctrCtx k)
  let mine := cs.filter (fun e => p e.1)
  let keys := (mine.filterMap (fun e => key e.1)).foldl (fun l k => insNat k l) []
  keys.map (fun n =>
    let vs := (mine.filter (fun e => decide (key e.1 = some n))).map (fun e => e.2)
    let v := if Ctr.isPeak (n / 4 % 65536) then vs.foldl max 0 else min vs.sum (2 ^ 64 - 1)
    leBytes 4 (n / 4 % 65536 + scope * 2 ^ 16 + n % 4 * 2 ^ 20) ++ leBytes 4 (n / 2 ^ 18) ++ leBytes 8 v)

/-- The step telemetry block (R379): header, then the entries that fit. -/
def State.telemetry (s : State) (r : Run) (dec epoch : Nat) : List Byte :=
  let es := (([0, 1, 3].map (fun sc => telemEntries s.counters sc (fun _ => true))).flatten)
  let n := min es.length ((r.telemCap - 64) / 16)
  if r.telemCap < 64 then []
  else
    leBytes 4 r.step ++ leBytes 4 (dec + b2n (decide (n < es.length)) * 4) ++ leBytes 4 n ++ leBytes 4 epoch ++ leBytes 8 r.tRelease ++
      leBytes 8 s.timeUs ++ leBytes 32 0 ++ (es.take n).flatten

end Sys2Proof.Machine
end

