-- ==== Sys2Proof/Machine/UpdateShard.lean ====
section
/-! DEFINITION. The UPDATE of one shard, whole (R151, R156 to R165, R168): what it reads, what it writes to the version area and to the
column area, and what it counts. -/

namespace Sys2Proof

/-- What the UPDATE of a shard counted (R36, R46, R90, R158 to R162, R168): elements frozen, lost and clamped, scales stepped up and down,
scales lost, the entries of the new exception list, the two sums of the watch, the sequence numbers that a malformed row coding reports,
the quantiser counters of the row coding and of the column coding, whether one of them wrote a non-finite block, and the windows of each
pinwheel that overflowed. -/
structure UpdStats where
  frozen : Nat := 0
  lost : Nat := 0
  sat : Nat := 0
  up : Nat := 0
  down : Nat := 0
  excOvf : Nat := 0
  exc : Word := 0#32
  sumDelta : Word := 0#32
  sumOld : Word := 0#32
  malformed : List Nat := []
  rowCounts : List (Nat × Nat) := []
  colCounts : List (Nat × Nat) := []
  nonfin : Bool := false
  rowOvf : Nat := 0
  colOvf : Nat := 0
  deriving DecidableEq, Repr

/-- What an UPDATE reads: the update record, the recipe library, the step and its seed, the tensor's LAYER, the gains that the residuals
are read and written under, the elements, FIRST_TROW, EXC_CAP and the exception list of the shard, and its gradient in row-coding order. -/
structure UpdIn where
  rec' : UpdRec
  plan : UpdPlan
  lib : List Byte
  seed : Long
  step : Nat
  layer : Nat
  kOld : Nat
  k : Nat
  elems : Nat
  firstTrow : Nat
  excCap : Nat
  exc : List (Nat × Nat)
  grads : List Word
  deriving DecidableEq, Repr

/-- A block as the UPDATE reads it: its ordinal in the tensor, its block word and contents, its decode, its learned scale (E << 3) | M,
its master values, its residuals and its moments. -/
structure UpdBlk where
  ord : Nat
  bw : Nat
  blk : Blk
  p : List Word
  j : Nat
  a : List Word
  res : List Int
  m : List Half
  v : List Half
  deriving DecidableEq, Repr

/-- A block once its elements and its scale have moved (R156 to R159). -/
structure UpdStep where
  ord : Nat
  a : List Word
  aNew : List Word
  m : List Half
  v : List Half
  d : List (Option Word)
  j : Nat
  jNew : Nat
  deriving DecidableEq, Repr

/-- A block as it is stored again (R161): its coding, its residuals, how many of them were clamped, and the master that they store. -/
structure UpdStored where
  blk : QBlk
  p : List Word
  res : List Int
  sat : Nat
  a : List Word
  deriving DecidableEq, Repr

namespace Upd

/-- A tensor of `cols` columns from its tile order (R27) into its lines. -/
def toLines (rows cols : Nat) (xs : List Word) : List (List Word) :=
  let tc := cols / 64
  (List.range rows).map (fun r => ((List.range tc).map (fun c => (xs.drop (4096 * (r / 64 * tc + c) + 64 * (r % 64))).take 64)).flatten)
/-- The lines of a tensor of `cols` columns in tile order (R27). -/
def toTiles (cols : Nat) (ls : List (List Word)) : List Word :=
  let tc := cols / 64
  ((List.range (ls.length / 64)).map (fun tr => ((List.range tc).map (fun c =>
    (((ls.drop (64 * tr)).take 64).map (fun l => (l.drop (64 * c)).take 64)).flatten)).flatten)).flatten
/-- The columns of `cols` columns of lines, as lines. -/
def transpose (cols : Nat) (ls : List (List Word)) : List (List Word) :=
  ls.foldr (fun l acc => List.zipWith (fun x y => x :: y) l acc) (List.replicate cols [])
/-- Cut a list into pieces of `n`. -/
def pieces {α : Type} (n k : Nat) (xs : List α) : List (List α) := (List.range k).map (fun i => (xs.drop (n * i)).take n)

/-- 1.0. -/
def one : Word := 0x3F800000#32
/-- Whether a block word is that of a normal block (R38). -/
def isNormalWord (bw : Nat) : Bool := decide (fld bw 15 8 ≠ 0) && decide (fld bw 15 8 ≠ 255)
/-- The exact learned scale (R38) of j = (E << 3) | M. -/
def scaleOf (j : Nat) : Frac := Quant.scaleFrac (j / 8 : Nat) (j % 8)
/-- ceil_e8m3 of a block's largest magnitude divided by 14 (R66, R160); a block with a non-finite value has no largest magnitude that the
spec states (log 69). -/
def coverScale (p : List Word) : Nat :=
  if p.any Fp.isNonFinite then Config.lostScale p % 2048
  else
    let big := p.foldl (fun a x => Fp.fmax a (Fp.fabs x)) 0#32
    match Quant.ceilE8m3 (Frac.div (Frac.ofF32 big) (Frac.ofInt 14)) with
    | some (e, m) => e * 8 + m
    | none => 0x7F7
/-- The learned scale of a block (R160): its entry in the exception list, else the scale of its block word, else one that covers it. -/
def learned (exc : List (Nat × Nat)) (ord bw : Nat) (p : List Word) : Nat :=
  match exc.find? (fun e => decide (e.1 = ord)) with
  | some e => e.2 / 32 % 2048
  | none => if isNormalWord bw then bw / 32 % 2048 else coverScale p

/-- Rotate the lines of a tensor (R85 to R88), with the windows that overflowed (R90). -/
def rotateLines (rotN : Nat) (seed : Long) (step layer axis : Nat) (ls : List (List Word)) : List (List Word) × Nat :=
  if rotN = 0 then (ls, 0)
  else
    let os := ls.map (fun l => Rot.line l 0 rotN seed step layer axis)
    (os.map (fun o => o.1), (os.map (fun o => o.2)).sum)
/-- Undo the forward rotation of the lines of a row coding (R163). -/
def unrotateLines (rotN : Nat) (seed : Long) (layer : Nat) (ls : List (List Word)) : List (List Word) :=
  if rotN = 0 then ls
  else
    let n := Rot.winLen rotN
    ls.map (fun l => ((pieces n (l.length / n) l).zipIdx.map (fun (w, i) => unrotate w (i * n) rotN seed layer)).flatten)

/-- Signed bytes from a reader. -/
def readRes (rd : Nat → Byte) (a n : Nat) : List Int := (List.range n).map (fun i => (rd (a + i)).toInt)
/-- BF16 values from a reader. -/
def readHalf (rd : Nat → Byte) (a n : Nat) : List Half := (List.range n).map (fun i => BitVec.ofNat 16 (rdLE rd (a + 2 * i) 2))

/-- Where the directory, the exception list and the kite words of a version area of `n` elements begin, behind the parts whose size R150
fixes (codes, block words, residuals, m, v), and where those of a column coding do, each on a 256-byte line (log 15). -/
def dirAt (n : Nat) : Nat := n * 89 / 16
/-- Bytes rounded up to 256. -/
def up256 (n : Nat) : Nat := (n + 255) / 256 * 256
/-- The length that a kite directory of `n` elements takes. -/
def dirBytes (n : Nat) : Nat := up256 (n / 1024)
/-- The exception list's place. -/
def excAt (n : Nat) : Nat := dirAt n + dirBytes n
/-- The kite stream's place in a version area. -/
def kiteAt (n cap : Nat) : Nat := excAt n + up256 (8 * cap)
/-- The directory's place in a column coding. -/
def colDirAt (n : Nat) : Nat := n * 9 / 16
/-- The kite stream's place in a column coding. -/
def colKiteAt (n : Nat) : Nat := colDirAt n + dirBytes n
/-- The kite words of a B4 coding of `n` elements whose codes and block words begin at `c` and `w` (R41, R456). -/
def kiteTotal (rd : Nat → Byte) (c w n : Nat) : Nat :=
  ((List.range (n / 32)).map (fun o => Coding.kiteCount Coding.fmtB4 (rdLE rd (w + 2 * o) 2) (Coding.codesAt rd (c + 16 * o)))).sum
/-- A row coding's descriptor with its streams where a version area holds them (log 15). -/
def rowPlace (d : TDesc) (n cap words : Nat) : TDesc :=
  { d with codes := 0, blockw := n / 2, kite := kiteAt n cap, kiteDir := dirAt n, kiteWords := words }
/-- A column coding's descriptor with its streams where a column area holds them. -/
def colPlace (d : TDesc) (n : Nat) : TDesc := { d with codes := 0, blockw := n / 2, kite := colKiteAt n, kiteDir := colDirAt n }

/-- Whether the routine's tables let the UPDATE run (R33, R58, R151, R164): two B4 descriptors that a consumer takes, with G0 = 1.0, and
records that a QUANT takes. -/
def planOk (w : UpdPlan) : Bool :=
  let d := Coding.parseDesc w.rowDesc
  let c := Coding.parseDesc w.colDesc
  let ok (d : TDesc) : Bool := Coding.validDesc d && d.fmt == Coding.fmtB4 && d.g == Quant.foldedG d.rotN one
  ok d && ok c && !(Quant.parseRec w.rowRec).bad && !(Quant.parseRec w.colRec).bad

/-- The row coding's descriptor as the UPDATE reads it from an area. -/
def rowOf (i : UpdIn) (rd : Nat → Byte) : TDesc :=
  rowPlace (Coding.parseDesc i.plan.rowDesc) i.elems i.excCap (kiteTotal rd 0 (i.elems / 2) i.elems)
/-- The blocks of a shard as the UPDATE reads them from the current area (R150, R151), and what a malformed tile reports (R46). -/
def readBlocks (i : UpdIn) (rd : Nat → Byte) : List UpdBlk × List Nat :=
  let d := rowOf i rd
  let n := i.elems
  let tiles := (List.range (Coding.tileCount d)).map (fun t => (t, Coding.readTile rd d false t))
  let bs := (tiles.map (fun (t, r) => (Coding.blockWords rd d t).zip r.blks)).flatten
  let ords := blockOrdinal i.firstTrow d.cols 0
  (bs.zipIdx.map (fun ((bw, blk), b) =>
    let p := Coding.decode d.fmt one blk
    let j := learned i.exc (ords + b) bw p
    let res := readRes rd (n * 9 / 16 + 32 * b) 32
    { ord := ords + b, bw := bw, blk := blk, p := p, j := j, a := (p.zip res).map (fun (p, r) => master p (scaleOf j) r i.kOld), res := res
      m := readHalf rd (n * 25 / 16 + 64 * b) 32, v := readHalf rd (n * 57 / 16 + 64 * b) 32 }),
   (tiles.map (fun (t, r) => Coding.malformedSeqs d t r)).flatten)

/-- The levels of a block's coded elements, none for a kite (R159). -/
def levels (fmt : Nat) (b : Blk) : List (Option Int) :=
  (List.range 32).map (fun i => if b.kites.any (fun k => decide (k.1 = i)) then none else some (Coding.level fmt ((b.planes.headD []).getD i 0) 0))

/-- Move the elements and the scale of a block whose rotated gradient is `gs` (R156 to R159): a frozen element keeps its values. -/
def moveBlock (i : UpdIn) (b : UpdBlk) (gs : List Word) : UpdStep :=
  let d := Coding.parseDesc i.plan.rowDesc
  let a := b.a
  let outs := ((a.zip gs).zip (b.m.zip b.v)).zipIdx.map (fun (((a, g), (m, v)), e) =>
    (element (rsqrt i.lib i.plan.lib) i.rec' d.rotN a m v g (srBits i.seed i.step i.layer 0 (32 * b.ord + e)) (srBits i.seed i.step i.layer 1 (32 * b.ord + e)),
      (a, m, v)))
  let keep := outs.map (fun (o, old) => match o with
    | some (a1, m2, v2, x) => ((a1, m2, v2), some x)
    | none => (old, none))
  let steps := isNormalWord b.bw && decide (b.blk.kind = .normal) && decide (b.bw / 32 % 2048 = b.j)
  { ord := b.ord, a := a, aNew := keep.map (fun k => k.1.1), m := keep.map (fun k => k.1.2.1), v := keep.map (fun k => k.1.2.2)
    d := keep.map (fun k => k.2), j := b.j
    jNew := if steps then stepScale i.rec' i.kOld (levels d.fmt b.blk) b.res (gs.map (grad i.rec' d.rotN)) b.j else b.j }

/-- Code a moved block and form its residuals (R161): `keeps` is false where its learned scale is lost (R160), and its residuals are 0. -/
def storeBlock (k : Nat) (u : UpdStep) (q : QBlk) (keeps : Bool) : UpdStored :=
  let p := Coding.decode Coding.fmtB4 one (Coding.mkBlk Coding.fmtB4 0 q.bw q.planes q.kites)
  let rs := (u.aNew.zip p).map (fun (a, p) => if keeps then residual a p (scaleOf u.jNew) k else (0, false))
  { blk := q, p := p, res := rs.map (fun r => r.1), sat := (rs.filter (fun r => r.2)).length
    a := (p.zip rs).map (fun (p, r) => master p (scaleOf u.jNew) r.1 k) }

/-- Whether a block's written word carries its learned scale (R160, R161). -/
def carries (u : UpdStep) (q : QBlk) : Bool := isNormalWord q.bw && decide (q.bw / 32 % 2048 = u.jNew)

/-- The streams of a coding at its descriptor's addresses (R28, R31): codes of normal blocks, block words, kite words, directory. -/
def codingWrites (d : TDesc) (qs : List QBlk) : List (Nat × List Byte) :=
  let starts := qs.foldl (fun (l : List Nat × Nat) q => (l.1 ++ [l.2], l.2 + q.kites.length)) ([], 0)
  (qs.zipIdx.map (fun (q, o) => q.planes.map (fun pl => (d.codes + 16 * o, Quant.planeBytes pl)))).flatten ++
  [(d.blockw, (qs.map (fun q => leBytes 2 q.bw)).flatten), (d.kite, (qs.map (fun q => (q.kites.map (leBytes 4)).flatten)).flatten),
   (d.kiteDir, ((List.range (qs.length / 128)).map (fun t => leBytes 4 (starts.1.getD (128 * t) 0))).flatten)]

/-- Code the blocks of a tensor given in tile order (R59, R161, R164). -/
def codeBlocks (d : TDesc) (qr : QRec) (xs : List (List Word × Option Nat)) : List QBlk :=
  xs.zipIdx.map (fun (x, o) => Quant.block x.1 d.fmt qr one (decide (d.rotN ≠ 0)) d.planeLimit x.2 (Coding.blockSeq d o))

/-- What the QUANT of a coding counts (R36, R84), a tile for 128 blocks. -/
def codeCounts (qs : List QBlk) : List (Nat × Nat) := (Ctr.quantTiles, qs.length / 128) :: (qs.map (fun q => q.counts)).flatten
/-- Whether one of the blocks written is non-finite (R60, R226). -/
def anyNonfinite (qs : List QBlk) : Bool := qs.any (fun q => decide (q.bw = 0x0060))

/-- A SEQ chain of squares over each tile, the tiles combined in ascending order (R143, R168). -/
def squares (xs : List Word) : Word :=
  ((pieces 4096 (xs.length / 4096) xs).map (Red.chainOf .ssq false)).foldl Fp.addRne 0#32

/-- What forms a column coding: its writes, its counts, whether it wrote a non-finite block, and the windows that overflowed. -/
structure ColOut where
  writes : List (Nat × List Byte)
  counts : List (Nat × Nat)
  nonfin : Bool
  ovf : Nat
  deriving DecidableEq, Repr
/-- The column coding for step n + 1 from the decoded row coding (R164): unrotated, transposed, rotated on axis 1, coded. -/
def columnCoding (plan : UpdPlan) (seed : Long) (step n : Nat) (p : List Word) : ColOut :=
  let d := Coding.parseDesc plan.rowDesc
  let c := Coding.parseDesc plan.colDesc
  let w := unrotateLines d.rotN seed d.layer (toLines d.rows d.cols p)
  let rot := rotateLines c.rotN seed (step + 1) c.layer 1 (transpose d.cols w)
  let xs := toTiles d.rows rot.1
  let qs := codeBlocks c (Quant.parseRec plan.colRec) ((pieces 32 (xs.length / 32) xs).map (fun x => (x, none)))
  { writes := codingWrites (colPlace c n) qs, counts := codeCounts qs, nonfin := anyNonfinite qs, ovf := rot.2 }
/-- The wide copy of a shard's masters (R102, R165): unrotated, as FP32 in the row coding's tile layout. -/
def wideCopy (i : UpdIn) (a : List Word) : List Byte :=
  let d := Coding.parseDesc i.plan.rowDesc
  ((toTiles d.cols (unrotateLines d.rotN i.seed d.layer (toLines d.rows d.cols a))).map (fun w => leBytes 4 w.toNat)).flatten

/-- What the UPDATE of a shard leaves: writes to the new version area and to the column area, and its counts. -/
structure Out where
  area : List (Nat × List Byte)
  column : List (Nat × List Byte)
  stats : UpdStats
  deriving DecidableEq, Repr

/-- The UPDATE of a shard (R151 to R165); `wide` says that the layer needs its wide copy. -/
def shard (i : UpdIn) (wide : Bool) (rd : Nat → Byte) : Out :=
  let d := rowOf i rd
  let n := i.elems
  let bs := readBlocks i rd
  let rot := rotateLines d.rotN i.seed 0 d.layer 0 (toLines d.rows d.cols i.grads)
  let us := (bs.1.zip (pieces 32 bs.1.length (toTiles d.cols rot.1))).map (fun (b, g) => moveBlock i b g)
  let qs := codeBlocks d (Quant.parseRec i.plan.rowRec) (us.map (fun u => (u.aNew, some (u.jNew * 32))))
  let exc := (us.zip qs).filter (fun x => !carries x.1 x.2)
  let lostScales := (exc.drop i.excCap).map (fun x => x.1.ord)
  let ss := (us.zip qs).map (fun (u, q) => storeBlock i.k u q (!lostScales.contains u.ord))
  let old := (us.map (fun u => u.a)).flatten
  let new := (ss.map (fun x => x.a)).flatten
  let ds := (us.map (fun u => u.d)).flatten
  let half (f : UpdStep → List Half) : List Byte := (us.map (fun u => ((f u).map (fun h => leBytes 2 h.toNat)).flatten)).flatten
  let col := columnCoding i.plan i.seed i.step n (ss.map (fun x => x.p)).flatten
  { area := codingWrites d qs ++
      [(n * 9 / 16, (ss.map (fun x => x.res.map (fun r => BitVec.ofInt 8 r))).flatten), (n * 25 / 16, half (fun u => u.m)),
       (n * 57 / 16, half (fun u => u.v)),
       (excAt n, ((exc.take i.excCap).map (fun x => leBytes 4 x.1.ord ++ leBytes 4 (x.1.jNew * 32))).flatten)] ++
      (if wide then [(i.plan.wide, wideCopy i (us.map (fun u => u.aNew)).flatten)] else [])
    column := col.writes
    stats :=
      { frozen := (ds.filter (fun x => x.isNone)).length
        lost := ((ds.zip (old.zip new)).filter (fun x => x.1.any (fun w => !Fp.isZero w) && decide (x.2.1 = x.2.2))).length
        sat := (ss.map (fun x => x.sat)).sum
        up := (us.filter (fun u => decide (u.j < u.jNew))).length
        down := (us.filter (fun u => decide (u.jNew < u.j))).length
        excOvf := lostScales.length
        exc := BitVec.ofNat 32 (exc.take i.excCap).length
        sumDelta := squares ((new.zip old).map (fun (x, y) => Fp.subRne x y))
        sumOld := squares old
        malformed := bs.2, rowCounts := codeCounts qs, colCounts := col.counts, nonfin := anyNonfinite qs || col.nonfin
        rowOvf := rot.2, colOvf := col.ovf } }
/-- What a SKIP leaves (R88, R164, R166): the column coding for the next step, from the current row coding. -/
def skipped (i : UpdIn) (rd : Nat → Byte) : Out :=
  let bs := readBlocks i rd
  let col := columnCoding i.plan i.seed i.step i.elems (bs.1.map (fun b => b.p)).flatten
  { area := [], column := col.writes
    stats := { malformed := bs.2, colCounts := col.counts, nonfin := col.nonfin, colOvf := col.ovf } }

end Upd
end Sys2Proof
end

