-- ==== Sys2Proof/Machine/Roles.lean ====
section
/-! DEFINITION. Roles, owned buckets and shards of slot 0, the messages between modules (R221, R223, R235, R240, R386), and the buddy
chain (R394). -/

namespace Sys2Proof.Machine

/-- The role of a module in the epoch in force: group and member index (R240). -/
def Slot.role (x : Slot) (dev : Nat) : Nat × Nat := SMap.get (0, 0) x.epoch.roles dev
/-- Whether a module is a member of the epoch in force. -/
def Slot.isMember (x : Slot) (dev : Nat) : Bool := x.hasEpoch && x.epoch.members.contains dev
/-- The members of a group, as modules. -/
def Slot.group (x : Slot) (g : Nat) : List Nat := x.epoch.members.filter (fun d => decide ((x.role d).1 = g))
/-- The module with a member index in a group. -/
def Slot.memberDev (x : Slot) (g i : Nat) : Option Nat := (x.group g).find? (fun d => decide ((x.role d).2 = i))
/-- This module's own role. -/
def State.role (s : State) : Nat × Nat := (s.slot 0).role s.modId.toNat

/-- The tail bucket's index (R244). -/
def tailBucket : Nat := 0xFFFFF
/-- The bucket-table entry of an index; the tail's has no elements and belongs to agent 0 (R244). -/
def Slot.bucketDef (x : Slot) (b : Nat) : Option BucketDef :=
  if b = tailBucket then some { layer := 0, shard := 0, firstTile := 0, tiles := 0, mode := 0, kLog2 := 0, agent := 0, emLine := 0, acc := 0 }
  else x.buckets[b]?
/-- Whether this module owns a bucket (R223, R244). -/
def State.ownsBucket (s : State) (b : Nat) : Bool :=
  ((s.slot 0).bucketDef b).any (fun d => decide (d.shard = s.role.2)) && (s.slot 0).isMember s.modId.toNat
/-- The buckets that this module owns, the tail last. -/
def State.ownedBuckets (s : State) : List Nat :=
  ((List.range (s.slot 0).buckets.length) ++ [tailBucket]).filter s.ownsBucket
/-- A bucket's state. -/
def Slot.bkt (x : Slot) (b : Nat) : Bucket := SMap.get {} x.bkts b
/-- Whether a bucket is open for the step in progress (R225, R246). -/
def Slot.bktOpen (x : Slot) (b : Nat) : Bool := decide ((x.bkt b).openStep = x.step.toNat) && !x.quiesced
/-- A bucket tag (R224). -/
def tagOf (slot step bucket : Nat) : Nat := bucket % 2 ^ 20 + step % 256 * 2 ^ 20 + slot * 2 ^ 28

/-- The counter key of a slot. -/
def ckSlot (id k : Nat) : CKey := { id := id, slot := some k }

/-- A message of the collectives or of firmware, from this module to the agents of another (R235, R386). -/
def devMsg (s : State) (dev ch tc kind slot arg : Nat) (pl : List Word) : Msg :=
  { destDev := BitVec.ofNat 14 dev, destX := 0x3F#6, destY := 0x3F#6, channel := BitVec.ofNat 8 ch, tc := BitVec.ofNat 2 tc
    slot := BitVec.ofNat 2 slot, seq := 0#16, srcDev := s.modId, srcX := 0x3F#6, srcY := 0x3F#6, kind := BitVec.ofNat 4 kind
    rsd := false, endf := false, nf := false, arg := BitVec.ofNat 12 arg, hcheck := 0#16, payload := pl }
/-- A COLL_CTRL message (R235). -/
def collCtrl (s : State) (dev op extra : Nat) (pl : List Word) : Msg := devMsg s dev 0xF0 0 5 0 (op + extra * 16) pl
/-- A FW_CTRL message (R386). -/
def fwCtrl (s : State) (dev op : Nat) (pl : List Word) : Msg := devMsg s dev 0xF8 0 7 0 (op * 4) pl
/-- The words of a byte string, the last one padded with zeros. -/
def bytesToWords (bs : List Byte) : List Word :=
  (List.range ((bs.length + 3) / 4)).map (fun k => BitVec.ofNat 32 (leNat ((bs.drop (4 * k)).take 4)))
/-- The bytes of a payload. -/
def payloadBytes (m : Msg) : List Byte := (m.payload.map (fun w => leBytes 4 w.toNat)).flatten

/-- The words of a byte string. -/
def wordsOf (bs : List Byte) : List Word := (List.range (bs.length / 4)).map (fun k => BitVec.ofNat 32 (leNat ((bs.drop (4 * k)).take 4)))

/-- The 16 KiB messages of a byte string, trailer with the last (R315). -/
def messagesOf (mk : (seq : Nat) → (last : Bool) → List Word → Msg) (bs : List Byte) : List Msg :=
  let n := max 1 ((bs.length + 16383) / 16384)
  (List.range n).map (fun i =>
    let part := wordsOf ((bs.drop (16384 * i)).take 16384)
    if i + 1 = n then mk i true (part ++ [crc32c bs, 0#32]) else mk i false part)

/-- Insert an owned shard by ascending LAYER. -/
def insShard (e : Nat × Nat × Nat) : List (Nat × Nat × Nat) → List (Nat × Nat × Nat)
  | [] => [e]
  | a :: t => if e.1 < a.1 then e :: a :: t else a :: insShard e t
/-- The shards that this module owns (R221), as (LAYER, SHARD, header address), by ascending LAYER. -/
def State.owned (s : State) : List (Nat × Nat × Nat) :=
  if (s.slot 0).isMember s.modId.toNat then
    (((s.slot 0).layout.filter (fun e => decide (e.1 = 2) && decide (e.2.2.1 = s.role.2))).map (fun e => (e.2.1, e.2.2.1, e.2.2.2))).foldl
      (fun l e => insShard e l) []
  else []
/-- The version area in force of a shard header (R153): 0 A, 1 B. -/
def State.curArea (s : State) (hdr : Nat) : Nat := s.devLE hdr 4 % 2
/-- The VERSION of an area. -/
def State.areaVersion (s : State) (hdr area : Nat) : Nat := s.devLE (hdr + 4 + 4 * area) 4
/-- The address of a layout item, 0 where the layout has none. -/
def Slot.item (x : Slot) (item layer shard : Nat) : Nat := (layoutGet x.layout item layer shard).getD 0
/-- A reader of device memory that counts from an address. -/
def State.devFrom (s : State) (base : Nat) : Nat → Byte := fun a => (s.devRead (base + a) 1).headD 0#8
/-- The kite words of the coding of `n` elements that begins at an address. -/
def State.kiteWords (s : State) (base n : Nat) : Nat := Upd.kiteTotal (s.devFrom base) 0 (n / 2) n
/-- The bytes of a version area of `n` elements (R150, R153, log 15): codes, block words, residuals, m, v, directory, exception list of
`cap` entries, kite words. -/
def State.areaBytes (s : State) (base n cap : Nat) : Nat := Upd.kiteAt n cap + 4 * s.kiteWords base n
/-- The bytes of a column coding of `n` elements (R150, log 15): codes, block words, directory, kite words. -/
def State.columnBytes (s : State) (base n : Nat) : Nat := Upd.colKiteAt n + 4 * s.kiteWords base n
/-- The row coding of a version area, its streams one after another as a column coding has them (R247). -/
def State.rowCoding (s : State) (base n cap : Nat) : List Byte :=
  s.devRead base (n * 9 / 16) ++ s.devRead (base + Upd.dirAt n) (Upd.dirBytes n) ++
    s.devRead (base + Upd.kiteAt n cap) (4 * s.kiteWords base n)
/-- What a version area holds (R150): codes of normal blocks only, and the entries of the exception list that are in force. -/
def State.areaContents (s : State) (base n cap exc : Nat) : List Byte :=
  ((List.range (n / 32)).map (fun o =>
    if Upd.isNormalWord (s.devLE (base + n / 2 + 2 * o) 2) then s.devRead (base + 16 * o) 16 else [])).flatten ++
  s.devRead (base + n / 2) (Upd.dirAt n - n / 2) ++ s.devRead (base + Upd.dirAt n) (n / 1024) ++ s.devRead (base + Upd.excAt n) (8 * exc) ++
    s.devRead (base + Upd.kiteAt n cap) (4 * s.kiteWords base n)
/-- The elements of a shard, the capacity of its exception list and the entries of an area's, from its header (R153). -/
def State.shardElems (s : State) (hdr : Nat) : Nat := s.devLE (hdr + 0x10) 8
/-- EXC_CAP of a shard header. -/
def State.excCap (s : State) (hdr : Nat) : Nat := s.devLE (hdr + 0x28) 4
/-- EXC_A or EXC_B of a shard header. -/
def State.excCount (s : State) (hdr area : Nat) : Nat := s.devLE (hdr + 0x20 + 4 * area) 4
/-- The weight tensors of a job by their LAYER, ascending: those that a bucket table of any rank names (R154, R223). -/
def tensorsOf (b : List Byte) : List Nat :=
  ((secsOf b 5).flatMap (fun x => (entriesOf (x.bytes b) 32).map (fun e => leAt e 0 2))).foldl (fun l n => insNat n l) []
/-- The place of a weight tensor in LAYER order (R154, R376). -/
def tensorIndex (b : List Byte) (layer : Nat) : Nat := ((tensorsOf b).filter (fun l => decide (l < layer))).length
/-- The key of a tensor shard. -/
def shardKey (layer shard : Nat) : Nat := layer + shard * 65536
/-- A bucket's error memory in the area `b` (R233): address and length. -/
def Slot.emRange (x : Slot) (area : Bool) (d : BucketDef) : Nat × Nat :=
  ((if area then x.coll.emB else x.coll.emA) + d.emLine * 256, d.tiles * 8192)

/-- Whether the error memory that a takeover brought for a bucket is older than a step (R401). -/
def Slot.emOld (x : Slot) (bucket step : Nat) : Bool := decide (0 < SMap.get 0 x.emVer bucket ∧ SMap.get 0 x.emVer bucket ≤ step)
/-- The node position of a module and its node, for node size `n` (R222). -/
def nodePos (n d : Nat) : Nat := if n = 16 then d / 256 % 2 * 8 + d / 2048 % 8 else d / 2048 % 8 % max 1 n
/-- The node of a module: what its members have in common. -/
def nodeOf (n d : Nat) : Nat := if n = 16 then d % 256 + d / 512 % 4 * 256 else d % 2048 + d / 2048 % 8 / max 1 n * 2048

/-- The gather key (R322). -/
def gatherKey (layer shard coding : Nat) : Nat := layer * 2 ^ 17 + shard * 2 + coding
/-- Address of the gather-table entry of a key. -/
def State.gatherEntry (s : State) (layer shard coding : Nat) : Option Nat :=
  let x := s.slot 0
  ((List.range x.gathers).map (fun i => x.gatherBase + 32 * i)).find? (fun a =>
    decide (s.devLE a 4 = layer + shard * 65536) && decide (s.devLE (a + 4) 4 % 2 = coding))

/-- A GATHER_REQ's payload (R248): 32 bytes in the layout of log 54. -/
def gatherReqWords (g : GatherReq) : List Word :=
  [BitVec.ofNat 32 (g.layer + g.shard * 65536), BitVec.ofNat 32 (g.coding + b2n g.refetch * 2), BitVec.ofNat 32 g.version, 0#32, 0#32, 0#32,
   0#32, 0#32]
/-- The module that a receiver asks for a shard (R247, R248): the owner, or the level-1 receiver of its own node. -/
def State.gatherFrom (s : State) (shard : Nat) (refetch : Bool) : Option Nat :=
  let x := s.slot 0
  let n := x.coll.nodeN
  let me := s.modId.toNat
  (x.memberDev s.role.1 shard).map (fun o =>
    if refetch || decide (nodeOf n o = nodeOf n me) || decide (nodePos n o = nodePos n me) then o
    else ((x.group s.role.1).find? (fun d => decide (nodeOf n d = nodeOf n me) && decide (nodePos n d = nodePos n o))).getD o)
/-- Ask for a shard: the request is noted and sent, and the copy that it replaces is no longer missed. -/
def State.askGather (s : State) (g : GatherReq) : State :=
  match s.gatherFrom g.shard g.refetch with
  | none => s
  | some d =>
    let g := { g with dev := d }
    (s.modSlot 0 (fun x => { x with greqs := x.greqs ++ [g], gone := x.gone.filter (fun e => decide (e ≠ (g.layer, g.shard, g.coding))) })).inject (collCtrl s d 2 0 (gatherReqWords g))
/-- A product needs gathered copies that were discarded after FORWARD (R251): each is asked for again, by its recorded VERSION. -/
def State.regather (s : State) (layer axis : Nat) : State :=
  ((s.slot 0).gone.filter (fun e => decide (e.1 = layer) && decide (e.2.2 = axis))).foldl (fun (s : State) e =>
    let v := ((s.gatherEntry e.1 e.2.1 e.2.2).map (fun a => s.devLE (a + 0x18) 4)).getD 0
    s.askGather { layer := e.1, shard := e.2.1, coding := e.2.2, version := v, refetch := false, dev := 0, regather := true }) s

/-- Follow the chain's changes (R394): who stands in a module's place now. -/
def standFor (l : List (Nat × Nat)) : (fuel : Nat) → Nat → Nat
  | 0, d => d
  | n + 1, d => match l.find? (fun e => decide (e.1 = d)) with
    | some e => standFor l n e.2
    | none => d
/-- The place that a module stands in. -/
def placeFor (l : List (Nat × Nat)) : (fuel : Nat) → Nat → Nat
  | 0, d => d
  | n + 1, d => match l.find? (fun e => decide (e.2 = d)) with
    | some e => placeFor l n e.1
    | none => d
/-- A module's neighbour along T3, `up` or down, in the chain of R394. -/
def State.chainNext (s : State) (dev : Nat) (up : Bool) : Nat :=
  let st := (s.slot 0).stand
  let p := placeFor st st.length dev
  let k := max 1 (s.links.k.getD 3 1)
  let t := p / 2048 % 8
  let t' := if up then (t + 1) % k else (t + k - 1) % k
  standFor st st.length (p % 2048 + t' * 2048)
/-- The buddy of a module. -/
def State.buddyOf (s : State) (dev : Nat) : Nat := s.chainNext dev true
/-- The module whose buddy a module is. -/
def State.predOf (s : State) (dev : Nat) : Nat := s.chainNext dev false

end Sys2Proof.Machine
end

