-- ==== Sys2Proof/Machine/StepEnd.lean ====
section
/-! DEFINITION. How a decided step ends: its journal record, its mirror, its command, and a diagnostic replay's comparison (R25, R378,
R381, R395, R405). -/

namespace Sys2Proof.Machine

/-- The error memory of a bucket in the current area (R233). -/
def State.errorMemory (s : State) (d : BucketDef) : List Byte :=
  let x := s.slot 0
  if d.mode = 0 then [] else let e := x.emRange x.emCur d; s.devRead e.1 e.2
/-- The body of a mirror unit of step `step` (R395). -/
def State.unitBody (s : State) (u : MUnit) (step : Nat) : List Byte :=
  let x := s.slot 0
  if u.kind = 2 then (s.journalRecord 0 step).getD []
  else if u.kind = 1 then ((x.buckets[u.key]?).map s.errorMemory).getD []
  else match s.owned.find? (fun o => decide (o.1 + o.2.1 * 65536 = u.key)) with
    | some (l, sh, hdr) =>
      let n := s.shardElems hdr
      let area := x.item (3 + s.curArea hdr) l sh
      let col := x.item (5 + (step + 1) % 2) l sh
      s.devRead hdr 48 ++ s.devRead area (s.areaBytes area n (s.excCap hdr)) ++ s.devRead col (s.columnBytes col n) ++
        ((x.buckets.filter (fun d => decide (d.layer = l) && decide (d.shard = sh))).map s.errorMemory).flatten
    | none => []
/-- A mirror unit with its header (R395). -/
def State.unitBytes (s : State) (u : MUnit) (step : Nat) : List Byte :=
  let body := s.unitBody u step
  leBytes 4 u.kind ++ leBytes 4 u.key ++ leBytes 4 step ++ leBytes 4 (crc32c body).toNat ++ leBytes 8 body.length ++ leBytes 8 0 ++ body

/-- The units of a step's mirror (R395): the journal copy, then, unless the step was skipped, tensors and error memory. -/
def State.mirrorUnits (s : State) (step dec : Nat) : List MUnit :=
  let x := s.slot 0
  let others := (x.buckets.zipIdx.filter (fun (d, _) => decide (d.mode ≠ 0) && decide (d.shard ≠ s.role.2))).map (fun (_, i) =>
    ({ kind := 1, key := i } : MUnit))
  { kind := 2, key := step } ::
    (if dec = 0 then (s.owned.map (fun o => ({ kind := 0, key := o.1 + o.2.1 * 65536 } : MUnit))) ++ others else [])

/-- Complete the RUN_STEP of a step that is decided and last committed (R25, R378). -/
def State.commitStep (s : State) (d : DoneRun) : State :=
  let s := s.modSlot 0 (fun x => { x with committed := d.step, prev := none })
  let s := s.peak (ckSlot Ctr.mirrorLagUs 0) (s.timeUs - d.tCommit)
  if d.repair then
    (s.count (ckSlot Ctr.repairs 0)).absorbed 0x07 (unitRef 8 0) 1 (s.timeUs - d.tCommit) d.step
  else match s.activeCmd 0x0110 (fun c => decide (c.fieldAt 0x18 4 = d.step)) with
    | some c => s.finish c 0 0 (d.decision + min d.abandons 255 * 256 + d.telemBytes * 2 ^ 32)
    | none => s

/-- A step that ran here ends: its SEALs are done with, and a replay gives the mode entries back (R100, R245). -/
def Slot.ended (x : Slot) : Slot :=
  { x with st := .ready, run := none, seals := [], sealSent := false, tailSent := false, sealTime := none, closes := [], updDone := []
           modes := x.keptModes.getD x.modes, keptModes := none }
/-- A diagnostic replay ends (R381): ROLLBACK clears and the slot is READY; `dec` is the replay's decision, if it has one. -/
def State.endReplay (s : State) (dec : Option Nat) (status detail result : Nat) : State :=
  let s := s.modSlot 0 (fun x => { x.ended with
    rollback := none, decision := none, boundary := dec.map (fun d => (decide (d = 1), true))
    bkts := SMap.mapVals {} (fun _ k => { k with openStep := x.decided + 1 }) x.bkts })
  match s.activeCmd 0x0151 (fun _ => true) with
  | some c => s.finish c status detail result
  | none => s
/-- Whether a shard's two areas differ by CRC-32C (R381). -/
def State.areasDiffer (s : State) (o : Nat × Nat × Nat) : Bool :=
  let x := s.slot 0
  let hdr := o.2.2
  let crc (a : Nat) : BitVec 32 := crc32c (s.areaContents (x.item (3 + a) o.1 o.2.1) (s.shardElems hdr) (s.excCap hdr) (s.excCount hdr a))
  decide (crc 0 ≠ crc 1)
/-- Compare the replayed shards with the committed ones (R381); a replay of a skipped step has none. -/
def State.finishReplay (s : State) (dec : Nat) : State :=
  let own := if dec = 0 then s.owned else []
  let bad := own.filter s.areasDiffer
  let s := bad.foldl (fun (s : State) o => s.post 0x0701 .reconcile (some 0) (unitRef 8 0) (payload [(1, 3), (2, o.1), (2, o.2.1)]) false true) s
  let n := bad.length
  s.endReplay (some dec) (if n = 0 then 0 else 0x17) (min n 0xFFFF) (own.length + n * 2 ^ 32)

/-- Whether every owned shard's UPDATE has been committed; a repair leaves out shards already at the step (R401). -/
def State.shardsDone (s : State) (r : Run) : Bool :=
  let x := s.slot 0
  s.owned.all (fun o => x.updDone.any (fun d => decide (d.layer = o.1) && decide (d.shard = o.2.1)) ||
    (r.repair && decide (s.areaVersion o.2.2 (s.curArea o.2.2) = r.step)))

/-- The telemetry entries of a shard's update-to-weight sums and ratio (R168), as FP32 values of tensor scope. DESIGN CHOICE (log 81): their
identifiers follow the counters of R170. -/
def ShardDone.watchEntries (d : ShardDone) : List (List Byte) :=
  match d.sums with
  | none => []
  | some (dd, aa, q) => [dd, aa, q].zipIdx.map (fun (v, i) =>
      leBytes 4 (Ctr.skippedSteps + 1 + i + 7 * 2 ^ 16 + 2 * 2 ^ 20) ++ leBytes 4 d.layer ++ leBytes 8 v.toNat)
/-- Report the sums of a committed step in its telemetry block (R168, R379), behind the entries written at its decision, as far as TELEM_CAP
goes; the bytes of the block. -/
def State.reportSums (s : State) (r : Run) (ds : List ShardDone) : State × Nat :=
  if r.telemBytes < 64 then (s, r.telemBytes)
  else
    let es := ds.flatMap ShardDone.watchEntries
    let n := min es.length ((r.telemCap - r.telemBytes) / 16)
    let s := s.devWrite (r.telem + r.telemBytes) (es.take n).flatten
    let s := s.devWrite (r.telem + 8) (leBytes 4 ((r.telemBytes - 64) / 16 + n))
    (if n < es.length then s.devWrite (r.telem + 4) (leBytes 4 (s.devLE (r.telem + 4) 4 % 4 + 4)) else s, r.telemBytes + 16 * n)

/-- A decided step ends once its shards have committed, or their column codings stand after a SKIP, and the step before it is last committed
(R25, R166, R405): its record is written, its mirror begins, and the slot is READY. -/
def State.closeStep (s : State) : State :=
  let x := s.slot 0
  match x.run, x.decision with
  | some r, some d =>
    if d = 2 || x.prev.isSome || (r.owner && !(r.diag && d = 1) && !s.shardsDone r) then s
    else if r.diag then s.finishReplay d
    else if !r.owner then
      s.modSlot 0 (fun x => { x.ended with decision := none, rollback := none, boundary := some (decide (d = 1), true) })
    else
      let s := s.writeJournal 0 r.step (recordBytes x 0 r d r.upd (x.updDone.map s.tensorEntry) x.closes)
      let (s, telemBytes) := s.reportSums r x.updDone
      let alone := decide (s.buddyOf s.modId.toNat = s.modId.toNat)
      let done : DoneRun :=
        { step := r.step, decision := d, abandons := x.abandons, telemBytes := telemBytes, tCommit := s.timeUs, repair := r.repair }
      let s := s.modSlot 0 (fun x => { x.ended with
        abandons := 0, boundary := some (decide (d = 1), r.replay)
        prev := if alone then none else some done, mirror := if alone then [] else s.mirrorUnits r.step d })
      if alone then s.commitStep done else s
  | _, _ => s

end Sys2Proof.Machine
end

