-- ==== Sys2Proof/Machine/Collective.lean ====
section
/-! DEFINITION. Epochs, seals and the decision of a step (R225, R226, R240 to R246, R388 to R390), and the messages of the
collectives (R235, R318). Slot 0 is the slot that trains. -/

namespace Sys2Proof.Machine

/-- Return landing credits to a contributor (R236). -/
def State.returnCredit (s : State) (dev n : Nat) : State := if n = 0 then s else s.inject (collCtrl s dev 0 n [])
/-- The remote-write notice of an END message (R318): its die channel is not in the message, so the index is free (log 36). -/
def State.writeNotice (s : State) (m : Msg) (cause : Nat) : State :=
  let idx := (Config.freeWord s.free).toNat % 64
  { s.inject { devMsg s m.srcDev.toNat 0xFD 0 2 m.slot.toNat (m.arg.toNat % 4)
      [BitVec.ofNat 32 ((if cause = 0 then 0 else 1) + cause * 256 + idx * 65536)] with } with free := s.free + 1 }

/-- The notice of an END message that a die's SEND carried to a core (R315, R318): neither the memory die nor its channel is in the message, so both are
free (log 36). -/
def State.coreWritten (s : State) (m : Msg) : State :=
  if m.endf && decide (m.srcX = 0x3F#6) && decide (m.srcY = 0x3F#6) then
    ({ s with free := s.free + 1 } : State).writeNotice { m with arg := BitVec.ofNat 12 (Config.freeWord s.free).toNat } 0
  else s

/-- The close record of a bucket (R239). -/
def closeRecord (x : Slot) (b : Nat) (k : Bucket) (ab : Bool) : List Byte :=
  let ms := (k.arrived.map (leBytes 2)).flatten
  leBytes 4 (tagOf 0 x.step.toNat b) ++ leBytes 4 (x.epoch.epoch + b2n k.nf * 2 ^ 30 + b2n (k.ab || ab) * 2 ^ 31) ++
    leBytes 4 x.step.toNat ++ leBytes 4 k.arrived.length ++ ms ++ List.replicate ((4 - ms.length % 4) % 4) 0#8
/-- Close a bucket (R243, R246): its sums are written, its record is appended, and its open step advances unless the close is an
abandon; landed contributions give their credits back. -/
def State.closeBucket (s : State) (b : Nat) (ab : Bool) : State :=
  let x := s.slot 0
  let k := x.bkt b
  let d := x.bucketDef b
  let s := match d with
    | some d => if ab ∨ d.tiles = 0 then s else
        s.devWrite d.acc (((List.range (d.tiles * 4096)).map (fun e => leBytes 4 (SMap.get 0#32 k.acc e).toNat)).flatten)
    | none => s
  let mine (l : Landing) : Bool := decide (l.tag % 2 ^ 20 = b)
  let s := (x.landing.filter mine).foldl (fun (s : State) l => s.returnCredit l.dev 1) s
  let s := s.modSlot 0 (fun x => { x with
    closes := x.closes ++ [closeRecord x b k ab], landing := x.landing.filter (fun l => !mine l)
    bkts := SMap.set {} x.bkts b { openStep := if ab then k.openStep else x.step.toNat + 1, notes := k.notes } })
  let s := (s.count (ckSlot Ctr.bucketClose 0)).count (ckSlot Ctr.collContrib 0) k.arrived.length
  let s := if k.nf then s.count (ckSlot Ctr.bucketCloseNf 0) else s
  if k.ab || ab then s.count (ckSlot Ctr.bucketCloseAb 0) else s

/-- Whether a close record of the step has bit `i` of its second word: 30 NF, 31 AB (R239, R245). -/
def Slot.closedWith (x : Slot) (i : Nat) : Bool := x.closes.any (fun r => bitOf (leAt r 4 4) i)
/-- Whether a bucket has closed in the step. -/
def Slot.closedNow (x : Slot) (b : Nat) : Bool := x.closes.any (fun r => decide (leAt r 0 4 % 2 ^ 20 = b))

/-- Quiesce slot 0 (R389): its cores stop issuing, windows and ops in flight are discarded, its DMA channels abort. -/
def State.quiesce (s : State) : State :=
  if (s.slot 0).quiesced then s
  else
    let s := s.modSlot 0 (fun x => { x with quiesced := true })
    let s := { s with cores := SMap.mapVals {} (fun _ c => { c with
      main := { c.main with inflight := [], win := none, winOpen := false, next := none }, tq := c.tq.filter (fun e => e.guest || e.full) }) s.cores }
    s.abortSlotDma 0 0x12

/-- The SEAL payload (R245). -/
def sealPayload (step epoch : Nat) (nf ab : Bool) : List Word :=
  [BitVec.ofNat 32 step, BitVec.ofNat 32 (epoch % 65536 + b2n nf * 65536 + b2n ab * 131072), 0#32, 0#32]
/-- Broadcast a message (R272): the link dies copy it to every module and ignore its DEST_DEV (log 61). -/
def State.broadcast (s : State) (mk : Nat → Msg) : State := s.inject (mk s.modId.toNat)

/-- The decision of a step on holding SEALs from every member not declared lost (R245, R390): 2 ABANDON, 1 SKIP, 0 COMMIT. -/
def Slot.sealed (x : Slot) : Option Nat :=
  if x.epoch.members.all (fun d => x.lostSeen.contains d || x.seals.any (fun e => decide (e.1 = d))) then
    some (if x.seals.any (fun e => e.2.2) then 2 else if x.seals.any (fun e => e.2.1) then 1 else 0)
  else none

/-- The version of the row coding that a step consumes (R23, R248): the last committed one before it. -/
def Slot.versionFor (x : Slot) (step : Nat) : Nat := if x.lastVer < step then x.lastVer else x.prevVer
/-- ABANDON (R246, R250, R390, R405): partial areas, landed contributions and buffers are discarded, and the step will run again; its journal
record is a header. An exhausted slot stops beyond the model (R241). A diagnostic replay ends HALTED (R381). -/
def State.abandonStep (s : State) : State :=
  let x := s.slot 0
  if x.epoch.epoch = 0xFFFF then s.beyond 0 0x07 [unitRef 7 s.modId.toNat]
  else
    let s := (x.landing.foldl (fun (s : State) l => s.returnCredit l.dev 1) s).emptyChest false
    let s := s.modSlot 0 (fun x => { x with
      decision := some 2, abandons := x.abandons + 1, landing := [], updDone := []
      releases := x.releases.filter (fun e => decide (e.1 ≠ x.versionFor x.step.toNat)), closes := [], nf := false, ab := false
      bkts := SMap.mapVals {} (fun b k => { openStep := if x.closedNow b then x.step.toNat else k.openStep, notes := k.notes }) x.bkts })
    let s := (s.count (ckSlot Ctr.stepsAbandoned 0)).post 0x0704 .absorbed (some 0) (unitRef 8 0)
      (payload [(2, x.epoch.epoch), (1, x.abCause.getD 8)])
    match x.run with
    | none => s
    | some r => if r.diag then s.endReplay none 0x20 0 0 else s.writeJournal 0 r.step (recordBytes x 0 r 2 [] [] [])

/-- A repair's COMMIT at the spare (R401): the error memory that it formed of buckets that the mirror held at an older version becomes current; the
other buckets keep theirs. -/
def State.keepRepaired (s : State) (step : Nat) : State :=
  let x := s.slot 0
  (x.buckets.zipIdx.filter (fun (d, i) => decide (d.mode ≠ 0) && x.emOld i step)).foldl (fun (s : State) (d, _) =>
    s.devWrite (x.emRange x.emCur d).1 (s.devRead (x.emRange (!x.emCur) d).1 (x.emRange x.emCur d).2)) s
/-- The decision of a step (R166, R234, R245, R379): COMMIT flips EM_CUR, SKIP counts; the telemetry block is written. A diagnostic
replay and a survivor of a repair change nothing else (R381, R401). -/
def State.decideStep (s : State) (d : Nat) : State :=
  if d = 2 then s.quiesce.abandonStep
  else
    match (s.slot 0).run with
    | none => s
    | some r =>
      if r.diag || !r.owner then (s.modSlot 0 (fun x => { x with decision := some d })).closeStep
      else
        let bytes := if r.noTelem then [] else s.telemetry r d (s.slot 0).epoch.epoch
        let s := s.devWrite r.telem bytes
        let s := if r.repair && decide (d = 0) then s.keepRepaired r.step else s
        let s := s.modSlot 0 (fun x => { x with
          decision := some d, decided := r.step, emCur := if d = 0 && !r.repair then !x.emCur else x.emCur, skipped := x.skipped + d
          lastVer := if d = 0 then max x.lastVer r.step else x.lastVer
          prevVer := if d = 0 ∧ x.lastVer < r.step then x.lastVer else x.prevVer
          run := some { r with telemBytes := bytes.length } })
        (if d = 1 then s.count (ckSlot Ctr.skippedSteps 0) else s).closeStep

/-- Record a SEAL and take the decision when it is the last (R245). -/
def State.recordSeal (s : State) (dev : Nat) (nf ab : Bool) : State :=
  let s := s.modSlot 0 (fun x => if x.seals.any (fun e => decide (e.1 = dev)) then x else { x with
    seals := x.seals ++ [(dev, nf, ab)], heldTime := s.timeUs })
  match (s.slot 0).sealed with
  | some d => if (s.slot 0).decision.isNone then s.decideStep d else s
  | none => s
/-- Send this module's SEAL (R245), once a step. -/
def State.sendSeal (s : State) (nf ab : Bool) : State :=
  let x := s.slot 0
  if x.sealSent then s
  else
    let s := s.broadcast (fun d => collCtrl s d 1 0 (sealPayload x.step.toNat x.epoch.epoch nf ab))
    let s := s.modSlot 0 (fun x => { x with sealSent := true, sealTime := some s.timeUs })
    s.recordSeal s.modId.toNat nf ab

/-- Whether slot 0 has a step in progress that is not decided. -/
def Slot.inStep (x : Slot) : Bool := x.run.isSome && x.decision.isNone && (decide (x.st = .running) || decide (x.st = .replaying))

/-- A firmware epoch close (R246, R388): AB_STEP with its cause, quiesce, every open bucket closed with AB, and the SEAL. A second
cause joins the same abandon (R390). -/
def State.epochClose (s : State) (cause : Nat) : State :=
  if !(s.slot 0).inStep then s
  else
    let s := s.modSlot 0 (fun x => { x with ab := true, abCause := if x.abCause.isNone then some cause else x.abCause })
    let opens := s.ownedBuckets.filter (fun b => (s.slot 0).bktOpen b)
    let s := opens.foldl (fun (s : State) b => s.closeBucket b true) s
    s.quiesce.sendSeal ((s.slot 0).closedWith 30) true

/-- What a fault does that strikes slot `k`: slot 0's step is abandoned (R388); a guest slot halts (R185). -/
def State.strike (s : State) (k cause : Nat) : State := if k = 0 then s.epochClose cause else s.haltSlot k

end Sys2Proof.Machine
end

