-- ==== Sys2Proof/Machine/Power.lean ====
section
/-! DEFINITION. The power ladder (R337 to R343): automatic rungs, DRAIN, RETIRE and exits. -/

namespace Sys2Proof.Machine

/-- The key of a domain named by kind and index of R366. -/
def domOf (kind index : Nat) : Nat := domKey kind (if kind = 0 then coreOfUnit index else index)

/-- The exit time of a rung in ns (R338, R339, R340, R278, R305). -/
def exitNs (r : Nat) : Nat := if r = 0 then 0 else 10 ^ r

/-- Complete the power commands of a unit that await its domain (R342, R372), but one that waits for a deeper rung after an exit. -/
def State.finishPower (s : State) (kind index : Nat) (keep : Option Nat) (result : Cmd → Nat) : State :=
  (s.mail.cmds.filter (fun c => c.active && decide (c.opcode = 0x0040) && decide (c.unitKind = kind) && decide (c.unitIndex = index) &&
    decide (keep ≠ some (c.fieldAt 0x18 1 % 8)))).foldl (fun (s : State) c => s.finish c 0 0 (result c)) s

/-- A domain enters a rung and is stable there. -/
def State.enterRung (s : State) (k r : Nat) : State :=
  (s.modDomain k (fun d => { d with rung := r, target := r, phase := 0 })).count (ckDom (rungCtr r) k)

/-- Whether the PLL of a memory, link or compute die runs (R345, R347): at NAP or shallower, once the reference runs; the hub's is `boot.pll`. -/
def State.pllOn (s : State) (die : Nat) : Bool := s.boot.refclk && decide ((s.domain (dieKey die)).rung < 4)
/-- Whether a core holds no op in flight in any unit (R338). -/
def coreIdle (c : Core) : Bool := c.main.inflight.all (fun f => !f.occupies) && c.guest.inflight.all (fun f => !f.occupies)

/-- Whether a core holds no op of a step (R24, R180): held in WAIT STEP or out of ops, with nothing in flight. -/
def Ctx.drained (t : Ctx) : Bool :=
  t.inflight.isEmpty && (match t.status with
    | .running => false
    | .waitTok _ _ _ _ => false
    | _ => true)
/-- Whether a context's next op is a WAIT or a RECV that cannot complete, or it has none (R22). -/
def Ctx.waits (t : Ctx) : Bool :=
  match t.status with
  | .running => (match t.next.bind (fun x => x.plan.on) with
    | some (.message ch) => (t.chan ch).waiting.isEmpty
    | _ => false)
  | _ => true
/-- Whether a core may gate its clocks (R22): no op in flight, the main context waits, and no guest op can be dispatched. -/
def State.mayGate (s : State) (no : Nat) : Bool :=
  coreIdle (s.core no) && (s.core no).main.waits &&
    !((s.gov (dieOf no)).surplus && s.nextReady { x := Fin.ofNat 48 (no % 48), y := Fin.ofNat 48 (no / 48), guest := true })
/-- CORE_GATE (R22, R338): a core with no op in flight whose next op cannot complete gates its clocks. -/
def execCoreGate (x y : Fin 48) (s : State) : Host.Outcome State Fault Refusal :=
  let no := coreNo x.val y.val
  let d := s.domain (domKey 0 no)
  if d.rung = 0 ∧ d.phase = 0 ∧ s.mayGate no then .next (s.enterRung (domKey 0 no) 1) else .next s

/-- Whether a domain is a link port of a dimension of extent 1, which firmware holds at OFF once the extents are set (R258). -/
def State.heldOff (s : State) (k : Nat) : Bool :=
  decide (k / 65536 = 6) && s.links.configured && decide (s.links.k.getD (k % 65536 / 4) 1 = 1)
/-- FREEZE of the arbiters that a commanded shutdown of a domain stops (R341): a memory port's scheduler, every arbiter of a die, or of every die. -/
def State.freezeFor (s : State) (k : Nat) (on : Bool) : State :=
  let i := k % 65536
  match k / 65536 with
  | 0 => s
  | 5 => s.arbWrite (16 + i / 12) (i % 12) false on none
  | 6 => s
  | 7 => (List.range 25).foldl (fun (s : State) d => s.arbWrite d 0 true on none) s
  | _ => s.arbWrite i 0 true on none
/-- The die that holds a core's, a memory port's or a link port's domain (R337). -/
def dieOfDomain (k : Nat) : Option Nat :=
  let i := k % 65536
  match k / 65536 with
  | 0 => some (dieOf i)
  | 5 => some (16 + i / 12)
  | 6 => some (20 + i / 4)
  | _ => none
/-- The die that holds a domain leaves a deeper rung with it (R337). -/
def State.rouseDie (s : State) (k : Nat) : State := match dieOfDomain k with | some d => s.rouse (dieKey d) | none => s
/-- Whether the die that holds a domain is ACTIVE, so that the domain may be (R337). -/
def State.dieUp (s : State) (k : Nat) : Bool := match dieOfDomain k with | some d => s.awake (dieKey d) | none => true
/-- An enable arrives at a domain (R342). `remain` is what is left of a retire step in progress, in ns. A wake event does not act
on a commanded shutdown in progress. -/
def State.enable (s : State) (k remain : Nat) (wake : Bool) : State :=
  let d := s.domain k
  if s.heldOff k then s
  else if wake && d.commanded && (decide (d.phase = 1) || decide (d.phase = 2)) then s
  else if d.phase = 1 then
    let s := ((s.modDomain k (fun d => { d with target := d.rung, phase := 0, commanded := false, reached := 0, lat := 0 })).count
      (ckDom Ctr.drainCancelled k)).syncModule
    if d.commanded then s.freezeFor k false else s
  else if d.phase = 2 then
    if d.qd then s
    else (s.modDomain k (fun d => { d with qd := true, remain := remain })).count (ckDom Ctr.retireQueued k)
  else if d.phase = 3 ∨ d.rung = 0 then s.rouseDie k
  else (s.rouseDie k).exitStart k

/-- DOMAIN_ENABLE (R342). -/
def execDomainEnable (kind : Fin 8) (index : BitVec 24) (remain : Nat) (wake : Bool) (s : State) :
    Host.Outcome State Fault Refusal :=
  .next (if unitExists kind.val index.toNat then s.enable (domOf kind.val index.toNat) remain wake else s)

/-- A core is woken by a message or token (R22): from GATED at once, from DOZE and NAP by an exit, with its die (R337). -/
def State.wakeCore (s : State) (no : Nat) : State :=
  let k := domKey 0 no
  let d := s.domain k
  let s := s.rouseDie k
  if d.rung = 1 ∧ d.phase = 0 ∧ s.dieUp k then s.exitDone k else s.enable k 0 true
/-- The die of a core is woken by a message for it (R22, R339). -/
def State.wakeDie (s : State) (die : Nat) : State :=
  let d := s.domain (dieKey die)
  if d.rung = 1 ∧ d.phase = 0 then (s.exitDone (dieKey die)).syncModule else s.enable (dieKey die) 0 true

/-- CORE_WAKE (R22). -/
def execCoreWake (x y : Fin 48) (s : State) : Host.Outcome State Fault Refusal :=
  let no := coreNo x.val y.val
  .next ((s.wakeDie (dieOf no)).wakeCore no)

/-- An automatic entry begins with its retire step (R341), when the hint allows the rung (R182, R338). -/
def State.autoEntry (s : State) (no rung : Nat) : State :=
  let d := s.domain (domKey 0 no)
  if d.phase = 0 ∧ 1 ≤ d.rung ∧ d.rung < rung ∧ rung ≤ d.hint + 1 ∧ coreIdle (s.core no) then
    s.modDomain (domKey 0 no) (fun d => { d with target := rung, phase := 2 })
  else s

/-- CORE_DOZE_ENTRY (R338): after 1 us idle. -/
def execCoreDozeEntry (x y : Fin 48) (s : State) : Host.Outcome State Fault Refusal := .next (s.autoEntry (coreNo x.val y.val) 2)
/-- CORE_NAP_ENTRY (R338): after 10 us idle. -/
def execCoreNapEntry (x y : Fin 48) (s : State) : Host.Outcome State Fault Refusal := .next (s.autoEntry (coreNo x.val y.val) 3)

/-- The domains on a die (R337): its cores, its memory ports or its link ports. -/
def onDie (d : Nat) : List Nat :=
  if d < 16 then ((List.range 2304).filter (fun n => decide (dieOf n = d))).map (domKey 0)
  else if d < 20 then (List.range 12).map (fun i => domKey 5 ((d - 16) * 12 + i))
  else if d < 24 then (List.range 4).map (fun i => domKey 6 ((d - 20) * 4 + i))
  else []

/-- DIE_GATE (R339, R340): every domain of the die is at GATED or deeper, and nothing has moved for 256 cycles. -/
def execDieGate (die : Fin 25) (s : State) : Host.Outcome State Fault Refusal :=
  let d := s.domain (dieKey die.val)
  if d.rung = 0 ∧ d.phase = 0 ∧ (onDie die.val).all (fun k => decide (1 ≤ (s.domain k).rung)) then
    .next (s.enterRung (dieKey die.val) 1).syncModule
  else .next s

/-- A port enters GATED by itself (R278, R305). -/
def State.portGate (s : State) (k : Nat) : State :=
  let d := s.domain k
  if d.rung = 0 ∧ d.phase = 0 then s.enterRung k 1 else s
/-- Whether a link port has nothing to send (R278). -/
def State.portIdle (s : State) (p : Nat) : Bool :=
  let x := s.lpair (p / 2)
  (s.lport p).replay.isEmpty && (s.lport p).ctrl.isEmpty && x.waiting.isEmpty && x.out.isEmpty
/-- MEM_PORT_GATE (R305): idle for 64 controller cycles. -/
def execMemPortGate (port : Fin 48) (s : State) : Host.Outcome State Fault Refusal := .next (s.portGate (domKey 5 port.val))
/-- PORT_GATE (R278): nothing sent or received for 256 link-logic cycles. -/
def execPortGate (port : Fin 16) (s : State) : Host.Outcome State Fault Refusal :=
  .next (if s.portIdle port.val then s.portGate (domKey 6 port.val) else s)

/-- DRAIN_COMPLETE (R341): the domain has completed the work it holds and RETIRE begins. A core completes its ops in flight
first, a memory port the writes that its die's combining buffers hold, and a link port waits until its far end has agreed the rung (R278). -/
def execDrainComplete (kind : Fin 8) (index : BitVec 24) (s : State) : Host.Outcome State Fault Refusal :=
  let k := domOf kind.val index.toNat
  let d := s.domain k
  let lp := s.lport index.toNat
  let agreed := kind.val ≠ 6 || !lp.up || decide (d.target ≤ lp.rung)
  let served := kind.val ≠ 5 || (List.range 4).all (fun c => (s.mem.buf (index.toNat / 12 * 4 + c)).isEmpty)
  if d.phase = 1 ∧ unitExists kind.val index.toNat ∧ agreed ∧ served ∧ (kind.val ≠ 0 ∨ coreIdle (s.core (coreOfUnit index.toNat))) then
    .next (s.modDomain k (fun d => { d with phase := 2 }))
  else .next s

/-- A core reaches SLEEP (R338): every SRAM but local-store lines 0 to 1,023 loses its contents. -/
def State.coreSleep (s : State) (no : Nat) : State :=
  let c := s.core no
  { s.setCore no { c with lmem := c.lmem.lose 0x40000 0x500000 s.free, oc := c.oc.lose 0 0x40000 (s.free + 1)
                          ta := c.ta.lose 0 0x10000 (s.free + 2), tq := [] } with
    free := s.free + 3 }

/-- What reaching a rung does beyond the status word: a core's SRAM (R338), the reference request (R348), the dies that a module command moves
(R340), and the hub's PLL, which stops at SLEEP (R347). -/
def State.reach (s : State) (kind k r : Nat) : State :=
  if kind = 0 then (if r = 4 then s.coreSleep (k % 65536) else s)
  else if kind = 7 then
    let s := (List.range 24).foldl (fun s d => if (s.domain (dieKey d)).rung < r then s.enterRung (dieKey d) r else s) s
    let hub := if r = 6 then 4 else if r = 5 then 3 else 1
    let s := if (s.domain (dieKey 24)).rung < hub then s.enterRung (dieKey 24) hub else s
    let s : State := if hub = 4 then { s with boot := { s.boot with pll := false } } else s
    if r = 5 then { s with boot := { s.boot with refReq := false } } else s
  else s

/-- RETIRE_STEP_COMPLETE (R341, R342): the next rung is reached; a queued enable stops there and begins the exit, and its latency
is recorded. -/
def execRetireStepComplete (kind : Fin 8) (index : BitVec 24) (s : State) : Host.Outcome State Fault Refusal :=
  let k := domOf kind.val index.toNat
  let d := s.domain k
  if d.phase ≠ 2 ∨ !unitExists kind.val index.toNat then .next s
  else
    let r := d.rung + 1
    let s := (s.modDomain k (fun d => { d with rung := r, reached := r, lat := 0 })).count (ckDom (rungCtr r) k)
    let s := s.reach kind.val k r
    if d.qd then
      let lat := d.remain + exitNs r
      let s := (s.modDomain k (fun d => { d with lat := lat })).peak (ckDom Ctr.reenableLatMax k) lat
      let s := if d.commanded then
          s.post 0x0601 .info none (unitRef kind.val index.toNat)
            (payload [(4, unitRef kind.val index.toNat), (1, d.target), (1, r), (4, lat)]) else s
      .next (s.exitStart k)
    else if d.target ≤ r then
      let s := s.modDomain k (fun d => { d with target := r, phase := 0 })
      .next (s.finishPower kind.val index.toNat none (fun _ => r))
    else .next s

end Sys2Proof.Machine
end

