-- ==== Sys2Proof/Machine/Mesh.lean ====
section
/-! DEFINITION. Paths of messages through the mesh (R186, R270) and the dies that they wake (R339). -/

namespace Sys2Proof.Machine

/-- A module's coordinate in a dimension (R9, R258). -/
def coordOf (dev d : Nat) : Nat := match d with | 0 => dev % 16 | 1 => dev / 16 % 16 | 2 => dev / 256 % 8 | _ => dev / 2048 % 8
/-- A number held between two bounds. -/
def clamp (v lo hi : Nat) : Nat := max lo (min hi v)
/-- The attachment core of a memory or link die for core (x, y) (R270). -/
def attachCore (die x y : Nat) : Nat × Nat :=
  match die with
  | 16 => (clamp x 0 23, 0)
  | 17 => (47, clamp y 0 23)
  | 18 => (clamp x 24 47, 47)
  | 19 => (0, clamp y 24 47)
  | 20 => (clamp x 24 47, 0)
  | 21 => (47, clamp y 24 47)
  | 22 => (clamp x 0 23, 47)
  | _ => (0, clamp y 0 23)
/-- Where in the mesh a DEST_CORE or SRC_CORE stands: 0xFFF is on the stretch of memory die `a`, by the clamping (R270). -/
def corePlace (x y : BitVec 6) (a : Nat) : Nat × Nat :=
  if x.toNat < 48 ∧ y.toNat < 48 then (x.toNat, y.toNat) else attachCore (16 + a) x.toNat y.toNat
/-- Where a message begins and ends in the mesh. -/
def msgOrigin (m : Msg) : Nat × Nat := corePlace m.srcX m.srcY (m.arg.toNat % 4)
/-- Where a message ends in the mesh. -/
def msgGoal (m : Msg) : Nat × Nat := corePlace m.destX m.destY (m.arg.toNat % 4)
/-- The dies that a message crosses between two cores, x first then y (R186). -/
def meshDies (a b : Nat × Nat) : List Nat :=
  let span (u v : Nat) : List Nat := (List.range (max u v + 1 - min u v)).map (fun i => min u v + i)
  ((span a.1 b.1).map (fun x => dieOf (coreNo x a.2)) ++ (span a.2 b.2).map (fun y => dieOf (coreNo b.1 y))).eraseDups
/-- Where a message for this module enters the mesh: at its origin here, or at the attachment core of the last link die of its route, clamped
from its destination (R270). -/
def State.entryCore (s : State) (m : Msg) : Nat × Nat :=
  if m.srcDev = s.modId then msgOrigin m
  else match (List.range 4).reverse.find? (fun d => decide (coordOf m.srcDev.toNat d ≠ coordOf m.destDev.toNat d)) with
    | some d => attachCore (20 + d) (msgGoal m).1 (msgGoal m).2
    | none => msgGoal m
/-- The physical column of a core in a row without a repair (R16). -/
def plainColumn (no : Nat) : Nat := let dx := no % 48 % 12; if dx < 6 then dx else dx + 1
/-- The physical column of a core under its row's map (R16). -/
def physColumn (m : RowMap) (no : Nat) : Nat :=
  let dx := no % 48 % 12
  match m with
  | .repaired f => if f < 6 ∧ f ≤ dx ∧ dx < 6 then dx + 1 else if 6 < f ∧ 6 ≤ dx ∧ dx < f then dx else plainColumn no
  | _ => plainColumn no
/-- The router output ports of a path, x first then y (R186, R335), as die and instance: west and east, north and south, and last the local one. -/
def State.meshPorts (s : State) (a b : Nat × Nat) : List (Nat × Nat) :=
  let at' (x y port : Nat) : Nat × Nat :=
    let no := coreNo x y
    let row := y % 12
    (dieOf no, (13 * row + physColumn (SMap.get .plain s.rows (dieOf no * 12 + row)) no) * 5 + port)
  let steps (u v : Nat) : List Nat := if u ≤ v then (List.range (v - u)).map (fun i => u + i) else (List.range (u - v)).map (fun i => u - i)
  (steps a.1 b.1).map (fun x => at' x a.2 (if a.1 ≤ b.1 then 2 else 4)) ++ (steps a.2 b.2).map (fun y => at' b.1 y (if a.2 ≤ b.2 then 3 else 1)) ++
    [at' b.1 b.2 0]
/-- Whether a router on a path is frozen (R332): with no arbiter of the module touched, none is. -/
def State.pathFrozen (s : State) (a b : Nat × Nat) : Bool := !s.arbs.isEmpty && (s.meshPorts a b).any (fun e => s.frozen e.1 e.2)
/-- A message wakes every die that it crosses (R22, R339). -/
def State.wakePath (s : State) (a b : Nat × Nat) : State := (meshDies a b).foldl State.wakeDie s
/-- Whether every die of a path is awake and no router on it frozen. -/
def State.pathAwake (s : State) (a b : Nat × Nat) : Bool :=
  (meshDies a b).all (fun d => s.awake (dieKey d)) && !s.pathFrozen a b
/-- A message for the agents of memory die `a` crosses the mesh to it (R235, R270, R339). -/
def State.toAgents (s : State) (m : Msg) : State := (s.wakePath (s.entryCore m) (msgGoal m)).wakeDie (16 + m.arg.toNat % 4)

end Sys2Proof.Machine
end

