-- ==== Sys2Proof/Machine/LinkFlits.lean ====
section
/-! DEFINITION. OxLink ports as senders: flits and their bytes (R260, R261), sequence numbers, replay and credits (R262 to R265), routes and
detours (R267, R268, R272, R276), and how messages become flits. -/

namespace Sys2Proof.Machine

/-- The counter key of a link port (R279). -/
def ckLink (id p : Nat) : CKey := { id := id, unit := some p }
/-- Replace a pair. -/
def State.setLpair (s : State) (i : Nat) (x : LPair) : State := { s with links := { s.links with pairs := SMap.set {} s.links.pairs i x } }
/-- Change a pair. -/
def State.modLpair (s : State) (i : Nat) (f : LPair → LPair) : State := s.setLpair i (f (s.lpair i))

/-- The 256 bytes of a flit but its CRC (R260). -/
def flitBody (f : Flit) : List Byte :=
  leBytes 4 (f.ftype.toNat + f.cls.toNat * 16 + b2n f.dl * 64 + b2n f.bc * 128 + f.first.toNat * 2 ^ 8 + f.fill.toNat * 2 ^ 16 +
    f.bdim.toNat * 2 ^ 24 + f.bleft.toNat * 2 ^ 26) ++
  leBytes 4 (f.pseq.toNat + f.rseq.toNat * 2 ^ 16) ++
  leBytes 4 (f.ack.toNat + b2n f.nak * 2 ^ 16 + f.ctrlOp.toNat * 2 ^ 17 + f.ctrlArg.toNat * 2 ^ 20) ++ leBytes 4 0 ++
  (f.payload ++ List.replicate 208 0#8).take 208 ++ (List.range 6).flatMap (fun c => leBytes 2 (f.credits.getD c 0#16).toNat) ++ leBytes 12 0
/-- The CRC of a flit (R260), over bytes 0 to 247. -/
def flitCrc (f : Flit) : BitVec 64 := crc64 (flitBody f)
/-- The channel of a DATA flit: class * 2 + DL. -/
def flitChannel (f : Flit) : Nat := f.cls.toNat * 2 + b2n f.dl
/-- A DATA flit that carries `bytes`. -/
def dataFlit (ch first : Nat) (bytes : List Byte) : Flit :=
  { ftype := 1#4, cls := BitVec.ofNat 2 (ch / 2), dl := decide (ch % 2 = 1), bc := false, first := BitVec.ofNat 8 first
    fill := BitVec.ofNat 8 bytes.length, bdim := 0#2, bleft := 0#4, pseq := 0#16, rseq := 0#16, ack := 0#16, nak := false, ctrlOp := 0#3
    ctrlArg := 0#12, payload := bytes, credits := [], crc := 0#64, fec := [] }
/-- An IDLE flit (R260, R261): it carries ACK, NAK and CREDITS alone. -/
def idleFlit : Flit := { dataFlit 0 0xFF [] with ftype := 0#4 }
/-- Whether the FEC corrects every codeword that a flit lay in (R259): at most 15 symbols in error in each. -/
def fecOk (f : Flit) : Bool := f.fec.all (fun c => decide (c.1 ≤ 15))
/-- The symbols that the FEC corrects in the codewords that begin with a flit. -/
def fecFixed (f : Flit) : Nat := ((f.fec.filter (fun c => c.2 && decide (c.1 ≤ 15))).map (fun c => c.1)).sum
/-- The uncorrectable codewords that begin with a flit. -/
def fecLost (f : Flit) : Nat := (f.fec.filter (fun c => c.2 && decide (15 < c.1))).length
/-- A CTRL flit (R260). -/
def ctrlFlit (op arg : Nat) : Flit := { dataFlit 0 0xFF [] with ftype := 2#4, ctrlOp := BitVec.ofNat 3 op, ctrlArg := BitVec.ofNat 12 arg }

/-- A message in memory order: its header, then its payload (R184, R261). -/
def msgBytes (m : Msg) : List Byte := leBytes 16 (msgHeader128 m) ++ (m.payload.map (fun w => leBytes 4 w.toNat)).flatten
/-- The length in bytes of the message whose header begins a byte string. -/
def msgLen (b : List Byte) : Nat := 16 + 4 * fld (leNat (b.take 16)) 66 54
/-- The message that a byte string spells (R184). -/
def parseMsg (b : List Byte) : Msg :=
  let h := leNat (b.take 16)
  let n := fld h 66 54
  { destDev := BitVec.ofNat 14 h, destX := BitVec.ofNat 6 (h / 2 ^ 14), destY := BitVec.ofNat 6 (h / 2 ^ 20)
    channel := BitVec.ofNat 8 (h / 2 ^ 26), tc := BitVec.ofNat 2 (h / 2 ^ 34), slot := BitVec.ofNat 2 (h / 2 ^ 36)
    seq := BitVec.ofNat 16 (h / 2 ^ 38), srcDev := BitVec.ofNat 14 (h / 2 ^ 67), srcX := BitVec.ofNat 6 (h / 2 ^ 81)
    srcY := BitVec.ofNat 6 (h / 2 ^ 87), kind := BitVec.ofNat 4 (h / 2 ^ 93), rsd := bitOf h 97, endf := bitOf h 98, nf := bitOf h 99
    arg := BitVec.ofNat 12 (h / 2 ^ 100), hcheck := BitVec.ofNat 16 (h / 2 ^ 112)
    payload := (List.range n).map (fun i => BitVec.ofNat 32 (leNat ((b.drop (16 + 4 * i)).take 4))) }

/-- The module at another coordinate of the same ring. -/
def atCoord (dev d c : Nat) : Nat :=
  match d with
  | 0 => setFld dev 3 0 c
  | 1 => setFld dev 7 4 c
  | 2 => setFld dev 10 8 c
  | _ => setFld dev 13 11 c
/-- The extent of a dimension. -/
def State.extent (s : State) (d : Nat) : Nat := max 1 (s.links.k.getD d 1)
/-- This module's coordinate. -/
def State.coord (s : State) (d : Nat) : Nat := coordOf s.modId.toNat d
/-- The offset to a module in a dimension, modulo the extent (R267). -/
def State.delta (s : State) (dev d : Nat) : Nat := (coordOf dev d + s.extent d - s.coord d % s.extent d) % s.extent d

/-- The links of this module's own pairs that are blocked, in the form of R386: bit c is the link from coordinate c in direction 0. -/
def State.ownBlocked (s : State) (d : Nat) : Nat :=
  let bit (e c : Nat) : Nat := if (s.lpair (2 * d + e)).down || (s.lpair (2 * d + e)).barred then 2 ^ c else 0
  bit 0 (s.coord d) ||| bit 1 ((s.coord d + s.extent d - 1) % s.extent d)
/-- The blocked set of a ring (R276). -/
def State.blockedSet (s : State) (d : Nat) : Nat := SMap.get 0 s.links.blocked d ||| SMap.get 0 s.links.lost d ||| s.ownBlocked d
/-- Whether the path of `n` hops from this module in a direction meets no blocked link (R276). -/
def State.pathClear (s : State) (d e n : Nat) : Bool :=
  let k := s.extent d
  (List.range n).all (fun j => !bitOf (s.blockedSet d) (if e = 0 then (s.coord d + j) % k else (s.coord d + 2 * k - 1 - j) % k))
/-- Whether R267 takes direction 0 for an offset. -/
def State.shortUp (s : State) (d delta : Nat) : Bool := decide (delta ≤ s.extent d - delta)
/-- DIR of a destination coordinate (R276). -/
def State.dirOf (s : State) (d c : Nat) : Nat :=
  let k := s.extent d
  let n := (c + k - s.coord d % k) % k
  let up := s.pathClear d 0 n
  let dn := s.pathClear d 1 (k - n)
  if n = 0 then 0 else if s.shortUp d n then (if up then 0 else if dn then 2 else 3) else if dn then 0 else if up then 1 else 3
/-- Compute the detour word of a ring (R276). -/
def State.detourWord (s : State) (d : Nat) : Nat := ((List.range (s.extent d)).map (fun c => s.dirOf d c * 4 ^ c)).sum
/-- Put it into force. -/
def State.refreshDetour (s : State) (d : Nat) : State :=
  { s with links := { s.links with detour := SMap.set 0 s.links.detour d (s.detourWord d) } }
/-- The links to a lost module of this module's rings are blocked (R276). -/
def State.blockModule (s : State) (dev : Nat) : State :=
  (List.range 4).foldl (fun (s : State) d =>
    if dev ≠ s.modId.toNat ∧ atCoord s.modId.toNat d (coordOf dev d) = dev then
      let c := coordOf dev d
      let set := SMap.get 0 s.links.lost d ||| 2 ^ c ||| 2 ^ ((c + s.extent d - 1) % s.extent d)
      ({ s with links := { s.links with lost := SMap.set 0 s.links.lost d set } } : State).refreshDetour d
    else s) s
/-- Where a message goes from this module (R267): to itself, out of a dimension in a direction, or nowhere. -/
inductive Hop where
  | here | out (d e : Nat) | drop (d : Nat)
  deriving DecidableEq, Repr
/-- The next hop of a message (R267, R276). -/
def State.nextHop (s : State) (dev : Nat) : Hop :=
  match (List.range 4).find? (fun d => decide (s.delta dev d ≠ 0)) with
  | none => if dev = s.modId.toNat then .here else .drop 0
  | some d =>
    match fld (SMap.get 0 s.links.detour d) (2 * coordOf dev d + 1) (2 * coordOf dev d) with
    | 0 => .out d (if s.shortUp d (s.delta dev d) then 0 else 1)
    | 1 => .out d 0
    | 2 => .out d 1
    | _ => .drop d
/-- The dateline channel of a hop (R268): DL0 on entering a dimension, DL1 from the wrap on. -/
def State.hopDl (s : State) (d e : Nat) (cur : Bool) : Bool :=
  cur || (if e = 0 then decide (s.coord d + 1 = s.extent d) else decide (s.coord d = 0))

/-- The units reserved for a channel of a pair (R265), which are also its initial credits before any shared unit (log 61). -/
def reservedUnits (ch : Nat) : Nat := if ch / 2 = 1 then 256 else 128
/-- The most shared units that a channel of a pair holds (R265; DESIGN CHOICE, log 88): with these shares no class passes its cap. -/
def sharedShare (ch : Nat) : Nat := if ch / 2 = 2 then 180 else 270
/-- The credits of a channel that are not spent (R264, R265); how many shared units the training grants is open (log 61). -/
def State.creditsLeft (s : State) (i ch : Nat) : Nat :=
  reservedUnits ch + min (Config.sharedCredits i ch) (sharedShare ch) - SMap.get 0 (s.lpair i).spent ch
/-- Whether the receive pool has a unit for a channel of a pair (R265). -/
def State.unitFree (s : State) (i ch : Nat) : Bool := decide (SMap.get 0 (s.lpair i).held ch < reservedUnits ch + sharedShare ch)
/-- The key of a ring input's units of a class: die 0 to 3, input 0 from the die below and 1 from the die above. -/
def ringKey (die inp cls : Nat) : Nat := 48 + die * 6 + inp * 3 + cls
/-- The shared units that the ring inputs of a link die hold in some classes (R265). -/
def State.ringShared (s : State) (die : Nat) (cs : List Nat) : Nat :=
  (cs.map (fun c => (SMap.get 0 s.links.ringHeld (ringKey die 0 c) - 64) + (SMap.get 0 s.links.ringHeld (ringKey die 1 c) - 64))).sum
/-- The shared units that a link die's pairs and ring inputs hold (R265). -/
def State.sharedUnits (s : State) (d : Nat) : Nat :=
  (([2 * d, 2 * d + 1].flatMap (fun i => (List.range 6).map (fun c => SMap.get 0 (s.lpair i).held c - reservedUnits c)))).sum +
  s.ringShared d [0, 1, 2]
/-- POOL_SHARED_PEAK (R279). -/
def State.notePool (s : State) (d : Nat) : State := s.peak { id := Ctr.poolSharedPeak, die := some (20 + d) } (s.sharedUnits d)
/-- Whether a ring input can take `n` units of a class (R265): its 64 reserved ones, then shared ones below what the pairs leave of the shared
units and of the class's cap (log 88). -/
def State.ringRoom (s : State) (die inp cls n : Nat) : Bool :=
  let h := SMap.get 0 s.links.ringHeld (ringKey die inp cls)
  let more := (h + n - 64) - (h - 64)
  decide (more = 0) || (decide (s.ringShared die [cls] + more ≤ (if cls = 2 then 2160 else 3240)) && decide (s.ringShared die [0, 1, 2] + more ≤ 2880))
/-- A receive unit is freed (R264): a pair's credit is owed; a ring input's unit is free at once. -/
def State.freeUnit (s : State) (u : Nat) : State :=
  if 48 ≤ u then { s with links := { s.links with ringHeld := SMap.modify 0 s.links.ringHeld u (fun n => n - 1) } }
  else s.modLpair (u / 6) (fun p => { p with held := SMap.modify 0 p.held (u % 6) (fun n => n - 1), owed := SMap.modify 0 p.owed (u % 6) (fun n => n + 1) })
/-- Free the unit of a flit just sent; a broadcast copy's only with the last copy made from it (R272). -/
def State.sentUnit (s : State) (w : WFlit) : State :=
  match w.unit with
  | none => s
  | some u =>
    if w.flit.bc && (List.range 8).any (fun i => (s.lpair i).waiting.any (fun x => x.flit.bc && decide (x.unit = some u) &&
        decide (x.flit.payload = w.flit.payload))) then s
    else s.freeUnit u

/-- Whether a port may send new flits (R262, R341, R416). -/
def State.portReady (s : State) (p : Nat) : Bool :=
  let d := s.domain (domKey 6 p)
  (s.lport p).carries && s.links.driving && s.links.configured && !s.links.training && decide (d.rung = 0) && decide (d.phase = 0)
/-- Whether it also has room in its replay buffer (R262). -/
def State.portRoom (s : State) (p : Nat) : Bool := s.portReady p && decide ((s.lport p).replay.length < 256)
/-- Whether its arbiter may decide too (R266, R332). -/
def State.dataRoom (s : State) (p : Nat) : Bool := s.portRoom p && !(s.arb (20 + p / 4) (p % 4)).freeze
/-- The port of a pair that takes the next flit (R263): either that can; which of two is open (log 61). -/
def State.choosePort (s : State) (i : Nat) : State × Option Nat :=
  let a := s.dataRoom (2 * i)
  let b := s.dataRoom (2 * i + 1)
  if a && b then ({ s with free := s.free + 1 }, some (2 * i + b2n ((Config.freeWord s.free).getLsbD 0)))
  else if a then (s, some (2 * i)) else if b then (s, some (2 * i + 1)) else (s, none)

/-- The CREDITS field that returns what a pair owes. -/
def LPair.owing (x : LPair) : List (BitVec 16) := (List.range 6).map (fun c => BitVec.ofNat 16 (SMap.get 0 x.owed c))
/-- Send an IDLE flit (R261, R262): it has no sequence number and is not held for replay. -/
def State.sendIdle (s : State) (p : Nat) : State :=
  let lp := s.lport p
  let f := { idleFlit with ack := lp.rx - 1#16, nak := lp.nak, credits := (s.lpair (p / 2)).owing }
  let f := { f with crc := flitCrc f }
  (s.setLport p { lp with nak := false, acked := f.ack, last := some f }).modLpair (p / 2) (fun x => { x with owed := [] })
/-- A port that has an ACK, a NAK or credits to return and nothing else to send returns them in an IDLE flit (R261; log 89). -/
def State.idleWork (s : State) (p : Nat) : State :=
  let lp := s.lport p
  if s.portReady p && (lp.nak || decide (lp.acked ≠ lp.rx - 1#16) || (s.lpair (p / 2)).owing.any (fun c => decide (c ≠ 0#16))) then s.sendIdle p
  else s

/-- Send a flit on a port (R260 to R264): sequence numbers, ACK, NAK, the credits owed and the CRC are formed, and the replay buffer
holds it. A flit sent again on the other port keeps its PSEQ and its CREDITS, and a CTRL flit returns none (log 89). -/
def State.sendOn (s : State) (p : Nat) (w : WFlit) : State :=
  let i := p / 2
  let lp := s.lport p
  let pr := s.lpair i
  let data := decide (w.flit.ftype = 1#4)
  let fresh := data && !w.numbered
  let f := { w.flit with
    pseq := if fresh then pr.tx else w.flit.pseq, rseq := lp.tx, ack := lp.rx - 1#16, nak := lp.nak
    credits := if fresh then pr.owing else w.flit.credits }
  let f := { f with crc := flitCrc f }
  let s := s.setLport p { lp with
    tx := lp.tx + 1#16, nak := false, acked := f.ack, last := some f, replay := lp.replay ++ [f] }
  let s := s.modLpair i (fun x => { x with
    owed := if fresh then [] else x.owed, tx := if fresh then x.tx + 1#16 else x.tx
    spent := if fresh then SMap.modify 0 x.spent (flitChannel f) (fun n => n + 1) else x.spent })
  let s := s.sentUnit w
  let s := if data then s.count (ckLink Ctr.linkFlitsTx p) else s
  if fresh && w.fwd then s.count (ckLink Ctr.linkFwdFlits p) else s

/-- The PSEQs of a pair that no ACK has covered. -/
def State.unacked (s : State) (i : Nat) : List (BitVec 16) :=
  (((s.lport (2 * i)).replay ++ (s.lport (2 * i + 1)).replay).filter (fun f => decide (f.ftype = 1#4))).map (fun f => f.pseq)
/-- Whether the pair may send a new PSEQ (R263): at most 512 ahead of the oldest that no ACK has covered. -/
def State.windowOpen (s : State) (i : Nat) : Bool :=
  (s.unacked i).all (fun q => decide (((s.lpair i).tx - q).toNat ≤ 512))
/-- The entries of a queue that still stand for something that waits: at most `n` of each requester. -/
def keepFor (n : Nat → Nat) (q : List (Nat × Nat)) : List (Nat × Nat) :=
  q.foldl (fun l x => if (l.filter (fun y => decide (y.1 = x.1))).length < n x.1 then l ++ [x] else l) []
/-- One round of a link die's arbiter (R266, R327 to R334) over what waits now, as (requester, class, number): who is granted. FREEZE stops it; a
request whose flits have gone ends. -/
def State.linkRound (s : State) (die inst : Nat) (cands : List (Nat × Nat × Nat)) (can : Nat → Bool) : State × Option Nat :=
  let a := s.arb die inst
  if a.freeze then (s, none)
  else
    let n (r : Nat) : Nat := ((cands.find? (fun c => decide (c.1 = r))).map (fun c => c.2.2)).getD 0
    let q := keepFor n a.queue
    let more (r : Nat) : Bool := decide ((q.filter (fun y => decide (y.1 = r))).length < n r)
    let a := ({ a with queue := q, active := a.active.filter (fun x => more x.1) } : Arb).arrive
      ((cands.filter (fun c => more c.1)).map (fun c => (c.1, c.2.1)))
    let s := if a.normal then s.roundNormal die inst a can else s.roundParked die inst a can
    let b := s.arb die inst
    (s.setArb die inst { b with busy := none }, b.busy)
/-- The requester of a flit at a link output (R327): its source, 0 and 1 the receive pairs, 2 and 3 the ring inputs, 4 the mesh, and its channel. -/
def WFlit.requester (w : WFlit) : Nat := w.src * 6 + flitChannel w.flit
/-- The new flits that wait at a pair, by requester. -/
def LPair.cands (x : LPair) : List (Nat × Nat × Nat) :=
  ((List.range 30).map (fun r => (r, r % 6 / 2, (x.waiting.filter (fun w => !w.numbered && decide (w.requester = r))).length))).filter
    (fun c => decide (0 < c.2.2))
/-- Take a flit out of a pair's queue and send it on a port. -/
def State.sendWaiting (s : State) (i p : Nat) (w : WFlit) : State :=
  (s.modLpair i (fun x => { x with waiting := x.waiting.erase w })).sendOn p w
/-- Send the next new flit of a requester, if it may go now. -/
def State.sendNew (s : State) (i p r : Nat) : State :=
  if s.dataRoom p && s.windowOpen i && decide (0 < s.creditsLeft i (r % 6)) then
    match (s.lpair i).waiting.find? (fun w => !w.numbered && decide (w.requester = r)) with
    | some w => s.sendWaiting i p w
    | none => s
  else s
/-- Send what a pair can send (R263, R264, R266): what is sent again first, then what the arbiter of the port grants, two flits of one class and
DL at a time. -/
def State.pump (s : State) (i : Nat) : (fuel : Nat) → State
  | 0 => s
  | n + 1 => match s.choosePort i with
    | (_, none) => s
    | (s', some p) => match (s'.lpair i).waiting.find? (fun w => w.numbered) with
      | some w => (s'.sendWaiting i p w).pump i n
      | none =>
        if !s.windowOpen i then s
        else match s'.linkRound (20 + p / 4) (p % 4) (s'.lpair i).cands (fun r => decide (0 < s.creditsLeft i (r % 6))) with
          | (s', some r) => ((s'.sendNew i p r).sendNew i p r).pump i n
          | (s', none) => s'
/-- A flit to send wakes a gated port at once, and a port at a deeper rung by an exit (R278). -/
def State.wakePort (s : State) (p : Nat) : State :=
  let k := domKey 6 p
  let d := s.domain k
  let s := s.rouseDie k
  if d.rung = 1 ∧ d.phase = 0 ∧ s.dieUp k then s.exitDone k else s.enable k 0 true
/-- Send what a pair can send, its ports woken; a flit left for want of a credit counts a stall. -/
def State.drainPair (s : State) (i : Nat) : State :=
  let p := s.lpair i
  if p.waiting.isEmpty || p.down || p.barred then s
  else
    let s := if (s.lport (2 * i)).carries then s.wakePort (2 * i) else s
    let s := if (s.lport (2 * i + 1)).carries then s.wakePort (2 * i + 1) else s
    let s := s.pump i p.waiting.length
    (List.range 3).foldl (fun (s : State) c =>
      let blocked (ch : Nat) : Bool := (s.lpair i).waiting.any (fun w => !w.numbered && decide (flitChannel w.flit = ch)) && decide (s.creditsLeft i ch = 0)
      if blocked (2 * c) || blocked (2 * c + 1) then s.count (ckLink (Ctr.linkCreditStallLc + c) (2 * i)) else s) s

/-- Cut one flit from the front of a channel's bytes (R261): `n` bytes, and the units that they hold. -/
def OutStream.cut (o : OutStream) (ch n : Nat) : WFlit × OutStream :=
  let here := o.starts.filter (fun x => decide (x.1 < n))
  let first : Nat := ((here.head?).map (fun x => x.1)).getD 0xFF
  let mine := (decide (first ≠ 0) && decide (o.cur < 4)) || here.any (fun x => decide (x.2 < 4))
  let src := if first = 0 then ((here.head?).map (fun x => x.2)).getD o.cur else o.cur
  ({ flit := dataFlit ch first (o.bytes.take n), fwd := mine, src := src, unit := o.units.head? },
   { bytes := o.bytes.drop n, starts := (o.starts.filter (fun x => decide (n ≤ x.1))).map (fun x => (x.1 - n, x.2))
     cur := ((here.getLast?).map (fun x => x.2)).getD o.cur, units := o.units.drop 1 })
/-- Cut every whole flit of a channel. -/
def OutStream.cutAll (o : OutStream) (ch : Nat) : (fuel : Nat) → List WFlit × OutStream
  | 0 => ([], o)
  | n + 1 =>
    if o.bytes.length < 208 then ([], o)
    else let r := o.cut ch 208; let t := r.2.cutAll ch n; (r.1 :: t.1, t.2)
/-- Free receive units beyond those that waiting bytes can carry. -/
def State.freeUnits (s : State) (us : List Nat) : State := us.foldl State.freeUnit s
/-- Put a message into a pair's channel (R261): its whole flits wait to be sent, a partly filled one waits for more bytes. -/
def State.enqueue (s : State) (i ch : Nat) (bytes : List Byte) (src : Nat) (units : List Nat) : State :=
  let o := SMap.get {} (s.lpair i).out ch
  let o : OutStream := { o with bytes := o.bytes ++ bytes, starts := o.starts ++ [(o.bytes.length, src)], units := o.units ++ units }
  let r := o.cutAll ch (o.bytes.length / 208)
  let room := (r.2.bytes.length + 207) / 208
  let s := s.modLpair i (fun x => { x with
    waiting := x.waiting ++ r.1, out := SMap.set {} x.out ch { r.2 with units := r.2.units.take room } })
  s.freeUnits (r.2.units.drop room)
/-- Send the partly filled flit of a channel (R261). -/
def State.flushStream (s : State) (i ch : Nat) : State :=
  let o := SMap.get {} (s.lpair i).out ch
  if o.bytes.isEmpty then s
  else
    let r := o.cut ch o.bytes.length
    s.modLpair i (fun x => { x with waiting := x.waiting ++ [r.1], out := SMap.set {} x.out ch { r.2 with starts := [], units := [] } })

/-- Whether a message is a broadcast (R272): a SEAL or a PERMUTE_DONE, whatever its DEST_DEV. -/
def isBroadcast (m : Msg) : Bool :=
  decide (m.kind = 5#4) && decide (m.channel = 0xF0#8) && (decide (m.arg.toNat % 16 = 1) || decide (m.arg.toNat % 16 = 5))
/-- The split of a dimension's broadcast copies (R272, R276). -/
def State.splitOf (s : State) (d : Nat) : Nat :=
  let n := s.extent d / 2
  ((List.range (n + 1)).reverse.find? (fun a => s.pathClear d 0 a)).getD 0
/-- The source of a broadcast copy at an output (R327): the mesh, the pair that it arrived on, or the ring. -/
def copySrc (i : Nat) : Option Nat → Nat
  | none => 4
  | some u => if u / 12 = i / 2 then u / 6 % 2 else 2
/-- A broadcast copy of a message, in its class, on its way in a dimension (R272). A message that has begun in its channel ends before it
(R261). -/
def State.copyTo (s : State) (bytes : List Byte) (cls d e left : Nat) (cur : Bool) (unit : Option Nat) : State :=
  if left = 0 then s
  else
    let ch := cls * 2 + b2n (s.hopDl d e cur)
    let f := { dataFlit ch 0 bytes with bc := true, bdim := BitVec.ofNat 2 d, bleft := BitVec.ofNat 4 left }
    (s.flushStream (2 * d + e) ch).modLpair (2 * d + e) (fun x => { x with
      waiting := x.waiting ++ [{ flit := f, fwd := unit.isSome, src := copySrc (2 * d + e) unit, unit := unit }] })
/-- Start the copies of a broadcast in every dimension from `lo` on (R272). -/
def State.startCopies (s : State) (bytes : List Byte) (cls lo : Nat) (unit : Option Nat) : State :=
  ((List.range 4).filter (fun d => decide (lo ≤ d) && decide (1 < s.extent d))).foldl (fun (s : State) d =>
    let a := s.splitOf d
    (s.copyTo bytes cls d 0 a false unit).copyTo bytes cls d 1 (s.extent d - 1 - a) false unit) s

/-- The class of a message as a number (R186). -/
def msgClass (m : Msg) : Nat := min 2 m.tc.toNat
/-- Send a message on from link die `die`, where `src` holds it (R267 to R269): `cur` says that it travels on DL1 of that die's dimension. A
message that turns goes onto the ring. -/
def State.routeOut (s : State) (m : Msg) (die src : Nat) (cur : Bool) (units : List Nat) : State :=
  match s.nextHop m.destDev.toNat with
  | .here => ({ s with wire := s.wire ++ [m] } : State).freeUnits units
  | .drop d => (s.count (ckLink Ctr.linkUnreachableDrop (4 * d))).freeUnits units
  | .out d e =>
    if d = die then s.enqueue (2 * d + e) (msgClass m * 2 + b2n (s.hopDl d e cur)) (msgBytes m) src units
    else { s with links := { s.links with ring := s.links.ring ++ [{ msg := m, die := die, goal := d, src := src, units := units }] } }

/-- Whether a message on the ring goes on towards the next higher die (R269): the shorter way, and of two equal ways the ascending one. -/
def RingMsg.up (r : RingMsg) : Bool := decide ((r.goal + 4 - r.die) % 4 ≤ 2)
/-- The requester of a message at a ring output (R327): source, the two ring inputs as one, and class. -/
def RingMsg.requester (r : RingMsg) : Nat := (if r.src = 4 then 3 else min 2 r.src) * 3 + msgClass r.msg
/-- The flits that a message fills (R261). -/
def msgFlits (m : Msg) : Nat := (16 + 4 * m.payload.length + 207) / 208
/-- Move a message one ring segment on (R269): it takes units of the ring input there and frees those that it held. -/
def State.ringHop (s : State) (r : RingMsg) : State :=
  let next := if r.up then (r.die + 1) % 4 else (r.die + 3) % 4
  let inp := if r.up then 0 else 1
  let k := ringKey next inp (msgClass r.msg)
  let n := msgFlits r.msg
  let s := s.freeUnits r.units
  ({ s with links := { s.links with
    ring := s.links.ring.erase r ++ [{ r with die := next, src := 2 + inp, units := List.replicate n k }]
    ringHeld := SMap.modify 0 s.links.ringHeld k (fun h => h + n) } } : State).notePool next
/-- One round of a ring output (R269, R335): output 4 leads to the next higher die and 5 to the next lower one (DESIGN CHOICE, log 90). -/
def State.ringRound (s : State) (die : Nat) (up : Bool) : State :=
  let next := if up then (die + 1) % 4 else (die + 3) % 4
  let here := s.links.ring.filter (fun r => decide (r.die = die) && decide (r.goal ≠ die) && (r.up == up))
  let cands := ((List.range 12).map (fun q => (q, q % 3, (here.filter (fun r => decide (r.requester = q))).length))).filter (fun c => decide (0 < c.2.2))
  let first (q : Nat) : Option RingMsg := here.find? (fun r => decide (r.requester = q))
  let can (q : Nat) : Bool := match first q with
    | some r => s.ringRoom next (if up then 0 else 1) (msgClass r.msg) (msgFlits r.msg)
    | none => false
  if cands.isEmpty then s
  else
    let s := (s.wakeDie (20 + die)).wakeDie (20 + next)
    match s.linkRound (20 + die) (if up then 4 else 5) cands can with
    | (s, some q) => (match first q with | some r => s.ringHop r | none => s)
    | (s, none) => s
/-- Messages that have reached the link die of their next dimension enter it on DL0 (R268, R269). -/
def State.ringLand (s : State) : State :=
  let done := s.links.ring.filter (fun r => decide (r.die = r.goal))
  let s : State := { s with links := { s.links with ring := s.links.ring.filter (fun r => decide (r.die ≠ r.goal)) } }
  done.foldl (fun (s : State) r => s.routeOut r.msg r.goal r.src false r.units) s
/-- The ring moves what it can (R269). -/
def State.ringWork (s : State) : (fuel : Nat) → State
  | 0 => s
  | n + 1 =>
    if s.links.ring.isEmpty then s
    else (((List.range 4).foldl (fun (s : State) d => (s.ringRound d true).ringRound d false) s).ringLand).ringWork n

/-- Whether a message on its way leaves the module (R270, R272). -/
def State.leaves (s : State) (m : Msg) : Bool := if isBroadcast m then decide (m.srcDev = s.modId) else decide (m.destDev ≠ s.modId)
/-- The dimension whose link die a message leaves the module by (R270): its route's first, a broadcast's first of extent above 1 (log 91). -/
def State.firstDim (s : State) (m : Msg) : Nat :=
  if isBroadcast m then ((List.range 4).find? (fun d => decide (1 < s.extent d))).getD 0
  else ((List.range 4).find? (fun d => decide (s.delta m.destDev.toNat d ≠ 0))).getD 0
/-- The link dies take up every message that leaves the module (R267, R270, R272): it crosses the mesh to the attachment core of its first
dimension's link die, and waits while a die on its way is not awake (R339). -/
def State.takeUp (s : State) : State :=
  if !s.links.driving || !s.links.configured || s.links.training then s
  else
    let go (s : State) (m : Msg) : State × Bool :=
      let d := s.firstDim m
      let a := attachCore (20 + d) (msgOrigin m).1 (msgOrigin m).2
      let s := (s.wakePath (msgOrigin m) a).wakeDie (20 + d)
      if s.pathAwake (msgOrigin m) a then
        (if isBroadcast m then s.startCopies (msgBytes m) (msgClass m) 0 none else s.routeOut m d 4 false [], true)
      else (s, false)
    let r := (s.wire.filter s.leaves).foldl (fun (r : State × List Msg) m =>
      if r.2.any (sameFlow m) then (r.1, r.2 ++ [m]) else let x := go r.1 m; if x.2 then (x.1, r.2) else (x.1, r.2 ++ [m]))
      ({ s with wire := s.wire.filter (fun m => !s.leaves m) }, [])
    { r.1 with wire := r.1.wire ++ r.2 }
/-- CTRL flits that wait for room go out (R262). -/
def State.drainCtrl (s : State) (p : Nat) : State :=
  (s.lport p).ctrl.foldl (fun (s : State) c =>
    if s.portRoom p then
      (s.modLport p (fun x => { x with ctrl := x.ctrl.drop 1 })).sendOn p { flit := ctrlFlit c.1 c.2 }
    else s) s
/-- Everything that the link dies can send now. -/
def State.linkWork (s : State) : State :=
  let s := s.takeUp
  let s := s.ringWork (3 * s.links.ring.length)
  let s := (List.range 16).foldl State.drainCtrl s
  (List.range 16).foldl State.idleWork ((List.range 8).foldl State.drainPair s)
/-- Send a CTRL flit to the far end of a port. -/
def State.sendCtrl (s : State) (p op arg : Nat) : State :=
  (s.modLport p (fun x => { x with ctrl := x.ctrl ++ [(op, arg)] })).drainCtrl p

/-- Insert a flit that is sent again, in PSEQ order. -/
def insWaiting (w : WFlit) : List WFlit → List WFlit
  | [] => [w]
  | a :: t => if !a.numbered || decide ((w.flit.pseq - a.flit.pseq).toNat ≥ 2 ^ 15) then w :: a :: t else a :: insWaiting w t
/-- A port stops carrying flits (R263): its unacknowledged DATA flits wait to be sent again on the other port, ahead of any new flit. -/
def State.handOver (s : State) (p : Nat) : State :=
  let back := (s.lport p).replay.filter (fun f => decide (f.ftype = 1#4))
  let s := s.modLport p (fun x => { x with replay := [], replays := 0, ctrl := [] })
  s.modLpair (p / 2) (fun x => { x with waiting := back.foldl (fun l f => insWaiting { flit := f, numbered := true } l) x.waiting })
/-- A port carries flits afresh (DESIGN CHOICE, log 89): both directions count their RSEQ from 0 again. -/
def LPort.restart (x : LPort) : LPort := { x with tx := 0#16, rx := 0#16, nak := false, acked := 0xFFFF#16, replay := [], replays := 0, changing := none }
/-- A port retrains (R262, R277): it carries nothing until its training completes. -/
def State.retrain (s : State) (p : Nat) : State :=
  ((s.handOver p).modLport p (fun x => { x.restart with retraining := true })).count (ckLink Ctr.linkRetrain p)

/-- What an exit ends in beyond the status word: a link port carries its flits afresh, or retrains when its stored coefficients fail their check
(R277); the module's dies are ACTIVE with it (R340), and the hub's PLL runs (R347). -/
def State.awakened (s : State) (kind index : Nat) (coefFails : Bool) (from' : Nat) : State :=
  if kind = 6 then
    let s := s.modLport index (fun p => { (if 2 ≤ from' then p.restart else p) with rung := 0 })
    if coefFails && decide (4 ≤ from') && (s.lport index).up then s.retrain index else s
  else if kind = 7 then
    (List.range 25).foldl (fun s i => s.modDomain (dieKey i) (fun d => { d with rung := 0, target := 0, phase := 0 }))
      { s with boot := { s.boot with pll := s.boot.refclk } }
  else s
/-- EXIT_COMPLETE (R337, R340): the domain is ACTIVE, once the die that holds it is; the arbiters that its shutdown froze are released. The power
command that moved it completes with the rung reached and the latency (R372). -/
def execExitComplete (kind : Fin 8) (index : ExitEnd) (s : State) : Host.Outcome State Fault Refusal :=
  let k := domOf kind.val index.index.toNat
  let d := s.domain k
  if d.phase ≠ 3 ∨ !unitExists kind.val index.index.toNat ∨ !s.dieUp k then .next s
  else
    let s := (s.exitDone k).awakened kind.val index.index.toNat index.coefFails d.rung
    let s := if d.commanded then s.freezeFor k false else s
    let s := s.syncModule
    .next (s.finishPower kind.val index.index.toNat d.deeper (fun c =>
      (if c.fieldAt 0x18 1 % 8 = 0 then 0 else d.reached) + d.lat * 2 ^ 32))

/-- Send a CTRL flit on a port that stops carrying flits (R278, R341). -/
def State.ctrlNow (s : State) (p op arg : Nat) : State :=
  if (s.lport p).carries && s.links.driving then s.sendOn p { flit := ctrlFlit op arg } else s

end Sys2Proof.Machine
end

