-- ==== Sys2Proof/Machine/MemOps.lean ====
section
/-! DEFINITION. Memory commands: reads, writes, combining-buffer timeouts, ports, MR4, patrol, quotas and buckets (R287 to R305). -/

namespace Sys2Proof.Machine

/-- The answer to a memory request. -/
def State.answerMem (r : State × MemAns) : State :=
  match r.2 with
  | .refused => r.1.answer .refused
  | .waits => r.1.answer .waiting
  | .poison _ => r.1.answer .poisoned
  | .ok bs => r.1.answer .ok bs

/-- The answer to a memory request; a refused or poisoned BAR2 request is counted, and AER reports a refusal (R429, log 63). -/
def State.answerReq (q : MemReq) (wr : Bool) (r : State × MemAns) : State :=
  let s := State.answerMem r
  if q.who ≠ .bar2 then s
  else match r.2 with
    | .refused => ((if wr then s else s.answer .abort).count { id := Ctr.bar2Refused }).count { id := Ctr.pcieUncorrectable }
    | .poison _ => s.count { id := Ctr.bar2Poison }
    | _ => s

/-- Answer a memory request as it is served (R289): a write that lies in a combining buffer is answered when its bytes have gone out; a BAR2 write is
posted. -/
def State.answerNow (q : MemReq) (wr : Bool) (r : State × MemAns) : State :=
  if wr && decide (q.who ≠ .bar2) && decide (r.2 = .ok []) && r.1.mem.buffered q.addr.toNat q.len then
    (r.1.modMem (fun m => { m with unanswered := m.unanswered ++ [q] })).answer .waiting
  else State.answerReq q wr r
/-- Keep a request that waits for its bucket (R300). -/
def State.keepWaiting (s : State) (q : MemReq) (data : Option (List Byte)) (a : MemAns) : State :=
  if a = .waits then s.modMem (fun m => { m with waiting := m.waiting ++ [{ q := q, data := data }] }) else s

/-- MEM_READ (R287): ECC finds are applied, then the request is served or refused. -/
def execMemRead (q : MemReq) (ecc : List (Nat × EccFind)) (s : State) : Host.Outcome State Fault Refusal :=
  let s := if s.admits q then s.applyEcc (reqLocs s.mem q.addr.toNat q.len) ecc else s
  let r := s.memRead q
  .next ((State.answerReq q false r).keepWaiting q none r.2)

/-- MEM_WRITE (R289). -/
def execMemWrite (q : MemReq) (data : List Byte) (s : State) : Host.Outcome State Fault Refusal :=
  let q := { q with len := data.length }
  let r := s.memWrite q data
  .next ((State.answerNow q true r).keepWaiting q (some data) r.2)

/-- STRIPE_BUFFER_TIMEOUT (R289): an entry that has waited 256 cycles goes out. -/
def execStripeBufferTimeout (grp : Fin 16) (row : Nat) (s : State) : Host.Outcome State Fault Refusal :=
  match (s.mem.buf grp.val).find? (fun e => decide (e.row = row)) with
  | none => .next s
  | some e => .next ((s.modMem (fun m => { m with bufs := SMap.set [] m.bufs grp.val ((m.buf grp.val).erase e) })).drainEntry
      grp.val e)

/-- Change a port. -/
def State.modPort (s : State) (p : Nat) (f : MPort → MPort) : State :=
  s.modMem (fun m => { m with ports := SMap.modify {} m.ports p f })
/-- Whether a port of a die is out of service or rebuilding. -/
def MPort.away (p : MPort) : Bool := decide (p.st ≠ 0)

/-- A port goes offline (R290): the event and the count; a second port of its die is beyond the model (R293). -/
def State.portOffline (s : State) (p cause : Nat) : State :=
  let others := (List.range 12).filter (fun i => decide (p / 12 * 12 + i ≠ p) && (s.mem.port (p / 12 * 12 + i)).away)
  let s := s.modPort p (fun x => { x with st := if cause = 0 then 3 else 1, cause := cause, ptr := 0 })
  let s := ((s.count (ckPort Ctr.portOffline p)).post 0x0502 .absorbed none (unitRef 10 p) (payload [(1, p), (1, cause)])).syncView
    10 p
  if others.isEmpty then s else s.beyondDie (p / 12) (unitRef 10 p :: others.map (fun i => unitRef 10 (p / 12 * 12 + i)))

/-- PORT_OFFLINE (R290), with a cause of R384; a port that is offline stays as it is. -/
def execPortOffline (port : Fin 48) (cause : BitVec 8) (s : State) : Host.Outcome State Fault Refusal :=
  let x := s.mem.port port.val
  if x.st = 1 ∨ x.st = 3 then .next s else .next (s.portOffline port.val cause.toNat)

/-- A port retrains and its rebuild begins (R292): at the rate it passes; one that passes none stays offline. -/
def State.portReturn (s : State) (p : Nat) (rate : Option Nat) : State :=
  match rate with
  | some r => (s.modPort p (fun x => { x with st := 2, rate := r, ptr := 0 })).syncView 10 p
  | none => s

/-- PORT_THERMAL_RETURN (R292): a port offline for temperature returns once MR4 has reported NORMAL for 1 s. -/
def execPortThermalReturn (port : Fin 48) (rate : Option (BitVec 3)) (s : State) : Host.Outcome State Fault Refusal :=
  let x := s.mem.port port.val
  if x.st = 1 ∧ x.cause = 1 ∧ x.thermal = 0 then .next (s.portReturn port.val (rate.map BitVec.toNat)) else .next s

/-- A rebuild writes a port's rows up to `row` (R292), which can be read again, but for a granule that another lost one of its stripe leaves
unknown (R293). -/
def State.rebuildRows (s : State) (p row : Nat) : State :=
  let x := s.mem.port p
  let walked (g : Nat) : Bool := decide (x.ptr ≤ granRow g) && decide (granRow g < row)
  let s := s.modMem (fun m =>
    let rest := m.bad.filter (fun g => decide (granPort g ≠ p) || !walked g)
    let cut := (rest.filter (fun g => decide (granPort g / 12 = p / 12) && decide (granPort g ≠ p) && walked g)).map (fun g =>
      granNo p (granCh g) (granRow g))
    { m with bad := rest ++ cut.eraseDups })
  (s.modPort p (fun x => { x with ptr := row })).count (ckPort Ctr.portRebuildGranules p) (4 * (row - x.ptr))
/-- The rebuild pointers move in `n` microseconds (R292): each by no more than 256 GB/s of 12 accesses a granule allows its die, by how much is open
(log 96). -/
def State.rebuildWork (s : State) (n : Nat) : State :=
  (List.range 48).foldl (fun (s : State) p =>
    let x := s.mem.port p
    if n = 0 ∨ x.st ≠ 2 then s
    else
      let by' := (Config.freeWord s.free).toNat % (20 * n + 1)
      ({ s with free := s.free + 1 } : State).rebuildRows p (min (rowsOf x.density - 1) (x.ptr + by'))) s
/-- PORT_REBUILD_COMPLETE (R292): every granule of the port is written from its stripe; the port is in full service, and the
command that asked for it completes. -/
def execPortRebuildComplete (port : Fin 48) (s : State) : Host.Outcome State Fault Refusal :=
  let x := s.mem.port port.val
  if x.st = 2 then
    let n := 4 * rowsOf x.density
    let s := s.rebuildRows port.val (rowsOf x.density)
    let s := s.modPort port.val (fun x => { x with st := 0, cause := 0, ptr := 0 })
    let s := s.post 0x0504 .info none (unitRef 10 port.val)
      (payload [(1, port.val), (8, n)])
    let s := s.syncView 10 port.val
    match s.activeCmd 0x0030 (fun c => decide (c.unitIndex = port.val)) with
    | some c => .next (s.finish c 0)
    | none => .next s
  else .next s

/-- The thermal state that a report calls for (R302). -/
def Mr4.code : Mr4 → Nat
  | .normal => 0 | .warm => 1 | .hot => 2 | .tooHot => 3

/-- A port's thermal state after a poll (R302): it rises at once and falls one state after 16 polls that call for a lower one. -/
def MPort.poll (x : MPort) (r : Mr4) : MPort :=
  let want := Mr4.code r
  let shut := if want = 3 then x.shut + 1 else 0
  if x.thermal ≤ want then { x with thermal := want, lower := 0, shut := shut }
  else if 15 ≤ x.lower then { x with thermal := x.thermal - 1, lower := 0, shut := shut }
  else { x with lower := x.lower + 1, shut := shut }

/-- The memory dies that hold a HOT port request a clock ceiling (R303). -/
def State.syncCeil (s : State) (die : Nat) : State :=
  let hot := (List.range 12).any (fun i => decide (2 ≤ (s.mem.port (die * 12 + i)).thermal))
  s.modMem (fun m => { m with ceil := if hot then (if m.ceil.contains die then m.ceil else m.ceil ++ [die]) else m.ceil.erase die })

/-- MR4_POLL (R302 to R304). -/
def execMr4Poll (port : Fin 48) (report : Mr4) (s : State) : Host.Outcome State Fault Refusal :=
  let p := port.val
  let old := s.mem.port p
  let x := old.poll report
  let s := s.modPort p (fun _ => x)
  let s := if x.thermal = 2 then s.count (ckPort Ctr.memHotPolls p) else s
  let s := if x.thermal = 2 ∧ old.thermal < 2 then
      (s.post 0x0503 .info none (unitRef 10 p) (payload [(1, p)])).syncView 10 p else s
  let s := s.syncCeil (p / 12)
  if 3 ≤ x.shut ∧ (x.st = 0 ∨ x.st = 2) then .next (s.portOffline p 1) else .next s

/-- PATROL_SCRUB of one granule (R287, R288): it is read and corrected; one corrected on two passes in a row is remapped. The patrol
leaves out what lies on a port out of service. -/
def execPatrolScrub (port : Fin 48) (ch : Fin 4) (row : Nat) (find : Option EccFind) (s : State) :
    Host.Outcome State Fault Refusal :=
  let g := granNo port.val ch.val row
  if s.mem.portLost g then .next s
  else
  let s := s.count (ckDie Ctr.patrolGranules (16 + port.val / 12))
  let d := (port.val % 12 + 23 - row % 12) % 12
  let l : Loc := { grp := port.val / 12 * 4 + ch.val, row := row, d := d, byte := 0 }
  let keep (s : State) (hit : Bool) : State := s.modMem (fun m =>
    { m with patrol := if hit then (if m.patrol.contains g then m.patrol else m.patrol ++ [g]) else m.patrol.erase g })
  match find with
  | some (.symbols a b) =>
    if eccFails a b then
      let s := (keep s false).uncorrectable l
      .next (if s.mem.poisoned l then s.poisonHit l else s)
    else if a + b = 0 then .next (keep s false)
    else
      let s := s.count (ckPort Ctr.eccCorrected port.val)
      if s.mem.patrol.contains g then .next ((keep s false).remap g) else .next (keep s true)
  | some .link => .next ((keep s false).count (ckPort Ctr.memLinkEcc port.val))
  | none => .next (keep s false)

/-- LC_QUOTA_WINDOW (R301): each partition's LC quota on the die renews. -/
def execLcQuotaWindow (die : Fin 4) (s : State) : Host.Outcome State Fault Refusal :=
  .next (s.modMem (fun m => { m with lcUsed := SMap.eraseIf (fun k => decide (k / 8 = die.val)) m.lcUsed }))

/-- Try a waiting request again (R300). -/
def State.retry (s : State) (w : WaitReq) : State :=
  let r := match w.data with
    | none => s.memRead w.q
    | some d => s.memWrite w.q d
  if r.2 = .waits then r.1 else (State.answerNow w.q w.data.isSome r).modMem (fun m => { m with waiting := m.waiting.erase w })

/-- TOKEN_BUCKET_FILL (R300): one controller cycle's fill of every metered partition's bucket on the die; requests whose charge
is covered proceed. -/
def execTokenBucketFill (die : Fin 4) (s : State) : Host.Outcome State Fault Refusal :=
  let s := s.modMem (fun m => { m with
    tokens := (List.range 8).foldl (fun t k =>
      let p := m.part k
      if p.valid && decide (p.bulkRate ≠ 0) then
        SMap.modify 0 t (die.val * 8 + k) (fun v => min (v + p.bucketFill die.val) p.bucketCap) else t) m.tokens })
  .next (s.mem.waiting.foldl State.retry s)

/-- A waiting request is let through as its bucket has filled (R300). -/
def State.letThrough (s : State) (w : WaitReq) : State :=
  let a := w.q.addr.toNat
  let need (d : Nat) : Nat := reqCharge s.mem a w.q.len w.data.isSome d * 64
  (s.modMem (fun m => { m with
    tokens := [0, 1, 2, 3].foldl (fun t d => SMap.modify 0 t (d * 8 + devPart a) (fun v => max v (need d))) m.tokens })).retry w
/-- Before a BAR0 write acts, every BAR2 write that arrived before it is accepted (R430); the time that this takes is not modelled (log
17). -/
def State.settleBar2 (s : State) : State :=
  (s.mem.waiting.filter (fun w => decide (w.q.who = .bar2) && w.data.isSome)).foldl State.letThrough s

end Sys2Proof.Machine
end

