-- ==== Sys2Proof/Machine/Mirror.lean ====
section
/-! DEFINITION. Lost modules as this module learns of them (R398), and the acknowledgement of mirror units (R396). -/

namespace Sys2Proof.Machine

/-- The epoch master now (R242, R398): the record's, or the first module of the successor list that is a member and not lost. -/
def Slot.masterNow (x : Slot) : Nat :=
  if x.lostSeen.contains x.epoch.master then
    (x.succ.find? (fun d => x.epoch.members.contains d && !x.lostSeen.contains d)).getD x.epoch.master
  else x.epoch.master
/-- Whether this module is the epoch master. -/
def State.isMaster (s : State) : Bool := (s.slot 0).hasEpoch && decide ((s.slot 0).masterNow = s.modId.toNat)

/-- Send MEMBER_LOST to the epoch master (R386, R398); the master itself sends none. -/
def State.sendLost (s : State) (dev cause : Nat) : State :=
  if s.isMaster then s
  else (s.inject (fwCtrl s (s.slot 0).masterNow 2 [BitVec.ofNat 32 (dev + cause * 65536)])).count (ckSlot Ctr.memberLostSeen 0)
/-- Whether a takeover in progress still needs a module (R400): the lost member's buddy or predecessor, before its entries have passed. -/
def State.takeoverNeeds (s : State) (lost sp dev : Nat) : Bool :=
  let p := (s.slot 0).perm
  p.active && (decide (dev = s.buddyOf lost) || decide (dev = s.predOf lost)) && !p.dones.contains sp &&
    !(decide (sp = s.modId.toNat) && p.entries.zipIdx.all (fun e => decide (e.1.src ≠ dev) || p.passed.contains e.2))
/-- This module learns of a loss (R398): noted once, sent to the master, and the epoch is closed. The loss of a module that a takeover still
needs is beyond the model (R400). -/
def State.memberLost (s : State) (dev cause : Nat) : State :=
  let x := s.slot 0
  if !x.isMember dev || x.lostSeen.contains dev then s
  else
    let s := ((s.modSlot 0 (fun x => { x with lostSeen := x.lostSeen ++ [dev] })).blockModule dev).sendLost dev cause
    match x.perm.takeover with
    | some (lost, sp) => if s.takeoverNeeds lost sp dev then s.beyond 0 0x01 [unitRef 7 lost, unitRef 7 dev] else s.epochClose 1
    | none => s.epochClose 1

/-- A mirror unit's SEND has completed (R396): acknowledged, or sent again; after the fourth failure the buddy is lost. -/
def State.mirrorAck (s : State) (ok : Bool) : State :=
  let x := s.slot 0
  match x.mirror.find? (fun u => u.sent) with
  | none => s
  | some u =>
    if ok then
      let rest := x.mirror.erase u
      let s := (s.modSlot 0 (fun x => { x with mirror := rest })).count (ckSlot Ctr.mirrorUnits 0)
      match x.prev with
      | some d => if rest.isEmpty then (s.commitStep d).closeStep else s
      | none => s
    else
      let s := s.modSlot 0 (fun x => { x with
        mirror := x.mirror.map (fun e => if e = u then { e with sent := false, fails := e.fails + 1 } else e) })
      if 3 ≤ u.fails then s.memberLost (s.buddyOf s.modId.toNat) 3 else s.count (ckSlot Ctr.mirrorRetry 0)

/-- What a permutation entry's source sends (R252): the bytes named; in a takeover, a shard goes as its tensor unit and KIND 4 is the journal record
(R400, log 55). -/
def State.permData (s : State) (e : PermEntry) : List Byte :=
  if (s.slot 0).perm.takeover.isNone then s.devRead e.srcAddr e.bytes
  else if e.kind = 0 then s.unitBody { kind := 0, key := e.layer + e.shard * 65536 } (s.slot 0).decided
  else if e.kind = 4 then (s.journalRecord 0 (s.slot 0).decided).getD []
  else s.devRead e.srcAddr e.bytes
/-- The messages of one entry (R253): COLL_DATA on channel 0xF3, class BULK; ARG[11:2] holds the entry's index (log 55). -/
def State.injectEntry (s : State) (i : Nat) (e : PermEntry) : State :=
  (messagesOf (fun q last pl => { devMsg s e.dst 0xF3 2 6 0 (i % 1024 * 4) pl with seq := BitVec.ofNat 16 q, endf := last }) (s.permData e)).foldl
    State.inject s
/-- A failed entry is sent once more (R253). -/
def State.resendEntry (s : State) (i : Nat) : State :=
  match (s.slot 0).perm.entries[i]? with
  | some e => s.injectEntry i e
  | none => s

end Sys2Proof.Machine
end

