-- ==== Sys2Proof/Machine/Dma.lean ====
section
/-! DEFINITION. DMA channels (chapter 13): descriptors, their checks, and the movement of bytes. Channels are numbered die * 32 +
channel with the die codes of R308. -/

namespace Sys2Proof.Machine

/-- A descriptor in memory (R311). -/
def parseDesc (b : List Byte) : DmaDesc :=
  let w (o n : Nat) : Nat := leNat ((b.drop o).take n)
  let f := w 0x18 4
  let d := w 0x28 8
  { src := w 0 8, dst := w 8 8, len := w 0x10 5, op := fld f 3 0, tc := fld f 5 4, slot := fld f 7 6, release := bitOf f 8
    cq := bitOf f 9, irq := bitOf f 10, chain := bitOf f 11, trailer := bitOf f 12, nf := bitOf f 13, tag := w 0x1C 4
    seed := w 0x20 4, dev := fld d 13 0, core := fld d 25 14, chan := fld d 33 26, arg := fld d 45 34, kind := fld d 49 46
    seqBase := w 0x30 2
    rsv := decide (w 0x15 3 ≠ 0) || decide (fld f 31 14 ≠ 0) || decide (w 0x24 4 ≠ 0) || decide (fld d 63 50 ≠ 0) ||
      decide (w 0x32 6 ≠ 0) || decide (w 0x38 8 ≠ 0) }

/-- The window of a device address (R172, R206, R284). -/
def windowOf (a : Nat) : Nat := a / 2 ^ 62
/-- Whether an address has its window's reserved bits clear and lies in a window that exists (R312). -/
def windowOk (a : Nat) : Bool :=
  match windowOf a with
  | 0 => isDev a
  | 2 => decide (fld a 61 56 = 0)
  | 3 => (localOff a).isSome
  | _ => false
/-- Whether an address is local (R172). -/
def isLocal (a : Nat) : Bool := decide (windowOf a = 3)
/-- Whether an address lies in the chest window (R206). -/
def isChest (a : Nat) : Bool := decide (windowOf a = 2)

/-- Who a descriptor's memory requests come from (R296, R310). -/
def DmaJob.who (j : DmaJob) : Requester :=
  match j.from' with
  | .core _ _ _ _ => .slot (BitVec.ofNat 2 j.slot)
  | .firmware => .firmware
  | .driver => .driver (BitVec.ofNat 2 j.slot)
/-- The submitting core and context. -/
def DmaJob.core (j : DmaJob) : Option (Nat × Bool) :=
  match j.from' with
  | .core no g _ _ => some (no, g)
  | _ => none

/-- Whether a local range is open to a descriptor (R172, R312): only a core's own context. -/
def State.jobLocalOk (s : State) (j : DmaJob) (wr : Bool) (a n : Nat) : Bool :=
  match j.core with
  | some (no, g) => localOk (s.core no).chestLines g wr (a % 2 ^ 32) n
  | none => false
/-- Whether a device range passes R296. -/
def State.jobDevOk (s : State) (j : DmaJob) (a n : Nat) : Bool :=
  s.admits { who := j.who, addr := BitVec.ofNat 64 a, len := n, tc := BitVec.ofNat 2 j.desc.tc }

/-- The CAUSE with which a channel refuses a descriptor (R312, R319), in the order of the causes. -/
def State.refuseCause (s : State) (ch : Nat) (c : DmaChan) (j : DmaJob) : Option Nat :=
  let d := j.desc
  let send := decide (d.op = 2)
  let addrs := if send then [d.src] else [d.src, d.dst]
  let unit := if d.op = 1 then 256 else 4
  let guest := (j.core.map (fun x => x.2)).getD false
  firstFault [
    need (!d.rsv && decide (d.op ≤ 2) && decide (d.tc ≠ 3) && (!send || decide (d.kind = 0) || decide (d.kind = 6))) 0x01,
    need (decide (d.len ≠ 0) && decide (d.len % unit = 0) && addrs.all (fun a => decide (a % unit = 0))) 0x02,
    need (addrs.all windowOk && (!isLocal d.src || s.jobLocalOk j false d.src d.len) &&
      (send || !isLocal d.dst || s.jobLocalOk j true d.dst d.len) &&
      (decide (d.op ≠ 1) || (isLocal d.src && decide (windowOf d.dst = 0)))) 0x03,
    need ((decide (windowOf d.src ≠ 0) || s.jobDevOk j d.src d.len) &&
      (send || decide (windowOf d.dst ≠ 0) || s.jobDevOk j d.dst d.len)) 0x04,
    need ((!isChest d.src || s.chestOk guest false d.src d.len) &&
      (send || !isChest d.dst || s.chestOk guest true d.dst d.len)) 0x05,
    need (!d.release || (decide (d.op = 0) && isChest d.src && isLocal d.dst)) 0x06,
    need (c.valid && (decide (ch / 32 < 4) || decide (d.op ≠ 1)) && (!d.cq || c.hasCq)) 0x07]

/-- The key of a channel's counter (R326): die number * 32 + channel. -/
def ckChan (id ch : Nat) : CKey := { id := id, unit := some ((16 + ch / 32) * 32 + ch % 32) }
/-- Change a channel. -/
def State.modChan (s : State) (ch : Nat) (f : DmaChan → DmaChan) : State := s.setChan ch (f (s.chan ch))
/-- Change the `i`-th descriptor of a channel's queue. -/
def State.modJob (s : State) (ch i : Nat) (f : DmaJob → DmaJob) : State :=
  s.modChan ch (fun c => { c with queue := c.queue.modify i f })

/-- Submit a descriptor (R310), which wakes the channel's die (R339); with 64 waiting it is not taken. -/
def State.submit (s : State) (ch : Nat) (d : DmaDesc) (w : DmaFrom) (slot paid : Nat) : State :=
  (s.rouse (dieKey (16 + ch / 32))).modChan ch (fun c =>
    if 64 ≤ c.queue.length then c
    else { c with
      queue := c.queue ++ [{ desc := d, from' := w, slot := slot, seq := c.arrivals % 65536, paid := paid
                             crc := if d.chain then d.seed else 0xFFFFFFFF }]
      arrivals := c.arrivals + 1 })

/-- Read `m` bytes of a stored chest tile (R212, R316): from its SRAM lines, or from the off-load region with LC priority. -/
def State.tileRead (s : State) (a : ChestAddr) (m : Nat) : State × MemAns :=
  match s.chest.find a (a.off / 16384) with
  | some x =>
    if x.sram then (s, .ok (s.sramRead x.place m (a.off % 16384)))
    else s.memRead (chestReq (s.stage.dramPlace x.place + a.off % 16384) m 0)
  | none => (s, .ok (List.replicate m 0#8))
/-- Read a chest range (R316), tile by tile. -/
def State.chestRead (s : State) (a : ChestAddr) : (fuel n : Nat) → State × MemAns
  | 0, _ => (s, .ok [])
  | k + 1, n =>
    if n = 0 then (s, .ok [])
    else
      let m := min n (16384 - a.off % 16384)
      match s.tileRead a m with
      | (s, .ok bs) => (match s.chestRead { a with off := a.off + m } k (n - m) with
        | (s, .ok rest) => (s, .ok (bs ++ rest))
        | (s, .poison p) => (s, .poison (m + p))
        | r => r)
      | r => r
/-- Write bytes of class `tc` into one chest tile (R211, R316), which is placed as its first burst arrives. -/
def State.tileWrite (s : State) (a : ChestAddr) (tc : Nat) (bs : List Byte) : State × MemAns :=
  match s.placeTile a (a.off / 16384) with
  | none => (s, .waits)
  | some s => match s.chest.find a (a.off / 16384) with
    | some x =>
      if x.sram then (s.sramWrite x.place (a.off % 16384) bs, .ok [])
      else s.memWrite (chestReq (s.stage.dramPlace x.place + a.off % 16384) bs.length tc) bs
    | none => (s, .ok [])
/-- Write bytes into a chest range, tile by tile. -/
def State.chestWrite (s : State) (a : ChestAddr) (tc : Nat) : (fuel : Nat) → List Byte → State × MemAns
  | 0, _ => (s, .ok [])
  | k + 1, bs =>
    if bs.isEmpty then (s, .ok [])
    else
      let m := min bs.length (16384 - a.off % 16384)
      match s.tileWrite a tc (bs.take m) with
      | (s, .ok _) => s.chestWrite { a with off := a.off + m } tc k (bs.drop m)
      | r => r

/-- Count CHEST_RECALL_MISS for the first byte read of a tile that lies in the off-load region (R212, R216). -/
def State.recallMiss (s : State) (a : ChestAddr) (first : Bool) (n : Nat) : State :=
  let ts := (tilesOf a.off n).filter (fun t => (first || decide (a.off ≤ t * 16384)) &&
    ((s.chest.find a t).map (fun x => !x.sram)).getD false)
  s.count (ckChest Ctr.chestRecallMiss) ts.length

/-- Read `n` source bytes of a descriptor at offset `o` (R287, R313); a piggy-bank slot that holds a non-finite value is counted (R129). -/
def State.jobRead (s : State) (j : DmaJob) (o n : Nat) : State × MemAns :=
  let a := j.desc.src + o
  match windowOf a with
  | 0 => s.memRead { who := j.who, addr := BitVec.ofNat 64 a, len := n, tc := BitVec.ofNat 2 j.desc.tc }
  | 2 => (match s.chestRead (chestAddr a) 3 n with
    | (t, .ok bs) => (t.recallMiss (chestAddr a) (decide (o = 0)) n, .ok bs)
    | r => r)
  | _ => match j.core with
    | some (no, _) => (s.bankSeen no (a % 2 ^ 32) n, .ok (rdBytes (s.core no).lmem.read (a % 2 ^ 32) n))
    | none => (s, .ok (List.replicate n 0#8))
/-- Whether an address lies in the shadow error memory of a bucket that is compressed (R233): in the area that is not current. -/
def Slot.shadowHas (x : Slot) (a : Nat) (d : BucketDef) : Bool :=
  decide (d.mode ≠ 0) && (let r := x.emRange (!x.emCur) d; decide (r.1 ≤ a) && decide (a < r.1 + r.2))
/-- The same, of any bucket. -/
def Slot.inShadow (x : Slot) (a : Nat) : Bool := x.buckets.any (x.shadowHas a)
/-- Whether a repair forms no error memory at an address (R401): a survivor forms none, the spare that of older buckets only. -/
def Slot.emHeld (x : Slot) (a : Nat) : Bool :=
  x.run.any (fun r => r.repair && !(r.owner && x.buckets.zipIdx.any (fun (d, i) => x.shadowHas a d && x.emOld i r.step)))
/-- The BF16 words of bytes that go to error memory, each one beyond the largest finite value held to it, and how many were (R233). -/
def saturateWords : List Byte → List Byte × Nat
  | a :: b :: t =>
    let r := Coll.saturate (leNat [a, b])
    let q := saturateWords t
    (leBytes 2 r.1.toNat ++ q.1, b2n r.2 + q.2)
  | l => (l, 0)
/-- Write bytes to a descriptor's destination at offset `o`; the memory die that writes error memory saturates it (R233, log 83). -/
def State.jobWrite (s : State) (j : DmaJob) (o : Nat) (bs : List Byte) : State × MemAns :=
  let a := j.desc.dst + o
  match windowOf a with
  | 0 =>
    let q : MemReq := { who := j.who, addr := BitVec.ofNat 64 a, len := bs.length, tc := BitVec.ofNat 2 j.desc.tc }
    if j.slot = 0 && j.core.isSome && (s.slot 0).inShadow a then
      if (s.slot 0).emHeld a then (s, .ok []) else
      let (out, n) := saturateWords bs
      (match s.memWrite q out with
       | (t, .ok r) => (t.count (ckSlot Ctr.emSat 0) n, .ok r)
       | r => r)
    else s.memWrite q bs
  | 2 => s.chestWrite (chestAddr a) j.desc.tc 3 bs
  | _ => (match j.core with
    | some (no, _) => s.modCore no (fun c => { c with lmem := c.lmem.writeList (a % 2 ^ 32) bs })
    | none => s, .ok [])

/-- Whether two ranges of addresses meet. -/
def rangesMeet (a n b m : Nat) : Bool := decide (a < b + m) && decide (b < a + n)
/-- Whether a burst must wait for an earlier, incomplete descriptor (R317). -/
def DmaChan.overlaps (c : DmaChan) (i : Nat) (j : DmaJob) (o n : Nat) : Bool :=
  (c.queue.take i).any (fun e => decide (e.desc.op ≠ 2) && decide (e.fin.map (fun f => f.1) ≠ some 0x03) &&
    (rangesMeet (j.desc.src + o) n e.desc.dst e.desc.len ||
      (decide (j.desc.op ≠ 2) && rangesMeet (j.desc.dst + o) n e.desc.dst e.desc.len)))

/-- The bursts of a descriptor that are in flight (R317): written, and their write response has not returned (R289). -/
def State.inFlight (s : State) (j : DmaJob) : List (Nat × Nat) := j.flight.filter (fun e => s.mem.buffered e.1 e.2)
/-- The bursts of a channel that are in flight. -/
def State.chanFlight (s : State) (ch : Nat) : Nat := ((s.chan ch).queue.map (fun j => (s.inFlight j).length)).sum
/-- The units of the die's pool that a channel's bursts hold (R323): one a burst of a COPY or SEND, two of an ADD_F32. -/
def State.chanUnits (s : State) (ch : Nat) : Nat :=
  ((s.chan ch).queue.map (fun j => (s.inFlight j).length * (if j.desc.op = 1 then 2 else 1))).sum
/-- Whether a channel finds `need` units in its die's pool of 4,096 (R323): the 16 that every channel is guaranteed, then the shared rest, and
never more than 1,024. -/
def State.poolRoom (s : State) (ch need : Nat) : Bool :=
  let n := if ch / 32 < 4 then 32 else 16
  let mine := s.chanUnits ch + need
  let others := ((List.range n).filter (fun c => decide (c ≠ ch % 32))).map (fun c => s.chanUnits (ch / 32 * 32 + c) - 16)
  decide (mine ≤ 1024) && (decide (mine ≤ 16) || decide (others.sum + (mine - 16) ≤ 4096 - 16 * n))
/-- Whether a burst may issue (R317, R323): fewer than 32 of the channel's are in flight, no earlier descriptor's range meets it, and the pool has
its units. A wait for a range or for the pool is counted. -/
def State.burstOk (s : State) (ch i : Nat) (j : DmaJob) (o n : Nat) : State × Bool :=
  if 32 ≤ s.chanFlight ch then (s, false)
  else if (s.chan ch).overlaps i j o n then (s.count (ckChan Ctr.dmaOverlapWait ch), false)
  else if !s.poolRoom ch (if j.desc.op = 1 then 2 else 1) then (s.count { id := Ctr.dmaPoolWait, die := some (16 + ch / 32) }, false)
  else (s, true)
/-- A descriptor after a burst has written `n` bytes at offset `o` of its destination; `fly` says that this is device memory. -/
def DmaJob.wrote (j : DmaJob) (o n crc : Nat) (fly : List (Nat × Nat)) : DmaJob :=
  { j with
    done := o + n, crc := crc, fin := if o + n = j.desc.len then some (0, 0) else none
    flight := fly ++ (if windowOf j.desc.dst = 0 then [(j.desc.dst + o, n)] else []) }

/-- The energy of an installment of `n` bytes at 1.6 GHz (R350): 0.5 nJ a KiB. -/
def dmaCost (n : Nat) : Nat := (n * 50 + 1023) / 1024
/-- The next installment of a descriptor. -/
def DmaJob.installment (j : DmaJob) : Nat := min 262144 (j.desc.len - j.paid)

/-- Pay a descriptor's next installment (R350, R353): a main LC or COLL transfer from the floor, any other from the purse. `none`
when the purse does not cover it: the wait is counted. -/
def State.payJob (s : State) (ch i : Nat) (j : DmaJob) : State × Bool :=
  match j.core with
  | none => (s.modJob ch i (fun j => { j with paid := j.desc.len }), true)
  | some (no, g) =>
    let d := dieOf no
    let c := s.core no
    let t := c.ctx g
    let cost := chargeAt (dmaCost j.installment) (s.gov d).clock
    let paid (s : State) : State := s.modJob ch i (fun j => { j with paid := j.paid + j.installment })
    if !g && decide (j.desc.tc ≠ 2) then (paid (s.payFloor no cost), true)
    else if cost ≤ t.purse then
      let s := s.setCore no (c.setCtx g { t with purse := t.purse - cost, needCharge := 0 })
      (paid (s.setGov d { s.gov d with ledger := (s.gov d).ledger + cost }), true)
    else
      let s := s.setCore no (c.setCtx g { t with needCharge := cost })
      (s.count { id := if g then Ctr.guestDeniedCycles else Ctr.tokenWaitCycles, core := some no, ctx := some g }, false)

/-- The first descriptor of a channel whose work has not ended. -/
def DmaChan.current (c : DmaChan) : Option (Nat × DmaJob) :=
  (c.queue.zipIdx.find? (fun e => e.1.fin.isNone)).map (fun e => (e.2, e.1))

/-- Start the descriptor at place `i` of a channel, if it has not started: it is refused or it runs (R312). -/
def State.startJob (s : State) (ch i : Nat) (j : DmaJob) : State × Bool :=
  if j.started then (s, true)
  else match s.refuseCause ch (s.chan ch) j with
    | some c =>
      let s := if c = 0x04 then
          s.refuse { who := j.who, addr := BitVec.ofNat 64 (if s.jobDevOk j j.desc.src j.desc.len then j.desc.dst else j.desc.src)
                     len := j.desc.len, tc := 0#2 } else s
      (s.modJob ch i (fun j => { j with fin := some (0x03, c) }), false)
    | none => (s.modJob ch i (fun j => { j with started := true }), true)

/-- Where the two ranges of a COPY overlap the result is undefined (R313): what is read there and what is written there are free. -/
def State.overlapped (s : State) (j : DmaJob) (o : Nat) (bs : List Byte) : State × List Byte × List Byte :=
  let d := j.desc
  if rangesMeet d.src d.len d.dst d.len then
    let cut (k base lo : Nat) (l : List Byte) : List Byte := l.zipIdx.map (fun (e : Byte × Nat) =>
      let a := base + o + e.2
      if lo ≤ a ∧ a < lo + d.len then Config.freeByte k a else e.1)
    let rd := cut s.free d.src d.dst bs
    ({ s with free := s.free + 2 }, rd, cut (s.free + 1) d.dst d.src rd)
  else (s, bs, bs)
/-- One burst of a COPY (R313): whether the channel may go on. -/
def State.copyBurst (s : State) (ch i : Nat) (j : DmaJob) : State × Bool :=
  let o := j.done
  let n := min (256 - (j.desc.dst + o) % 256) (j.desc.len - o)
  match s.burstOk ch i j o n with
  | (s, false) => (s, false)
  | (s, true) => match s.jobRead j o n with
    | (s, .ok bs0) =>
      let (s, rd, bs) := s.overlapped j o bs0
      match s.jobWrite j o bs with
      | (s, .ok _) =>
        (s.modJob ch i (fun j => j.wrote o n (crc32cReg j.crc rd) (s.inFlight j)), true)
      | (s, _) => (s, false)
    | (s, .poison k) =>
      let good := if k ≤ n ∧ windowOf j.desc.src = 0 then k else 0
      let bs := if good = 0 then [] else s.devRead (j.desc.src + o) good
      let s := if good = 0 then s else (s.jobWrite j o bs).1
      (s.modJob ch i (fun j => { j with done := o + good, crc := crc32cReg j.crc bs, fin := some (0x02, 0x20) }), false)
    | (s, _) => (s, false)

/-- One granule of an ADD_F32 (R314): read, add and write as one access. -/
def State.addBurst (s : State) (ch i : Nat) (j : DmaJob) : State × Bool :=
  let o := j.done
  match s.burstOk ch i j o 256 with
  | (s, false) => (s, false)
  | (s, true) =>
    let q : MemReq := { who := j.who, addr := BitVec.ofNat 64 (j.desc.dst + o), len := 256, tc := BitVec.ofNat 2 j.desc.tc }
    match s.jobRead j o 256 with
    | (s, .ok src) =>
      let word (bs : List Byte) (k : Nat) : Word := BitVec.ofNat 32 (leNat ((bs.drop (4 * k)).take 4))
      match s.memAdd q (fun dst => ((List.range 64).map (fun k => leBytes 4 (Fp.addRne (word dst k) (word src k)).toNat)).flatten) with
      | (s, .ok sum) => (s.modJob ch i (fun j => j.wrote o 256 (crc32cReg j.crc sum) (s.inFlight j)), true)
      | (s, .poison _) => (s.modJob ch i (fun j => { j with fin := some (0x02, 0x20) }), false)
      | (s, _) => (s, false)
    | (s, _) => (s, false)

/-- The key of the landing credits of an owner's agent (R236). -/
def creditKey (dev agent : Nat) : Nat := dev * 4 + agent
/-- Whether a landing credit of an owner's agent is free (R236). -/
def Slot.creditFree (x : Slot) (dev agent : Nat) : Bool := decide (SMap.get 0 x.spent (creditKey dev agent) < x.coll.credits)
/-- Spend a landing credit and take the slot at the cursor (R236). -/
def Slot.takeCredit (x : Slot) (dev agent : Nat) : Slot :=
  { x with
    spent := SMap.modify 0 x.spent (creditKey dev agent) (fun n => n + 1)
    cursor := SMap.modify 0 x.cursor (creditKey dev agent) (fun n => (n + 1) % max 1 x.coll.credits) }
/-- Whether a descriptor sends a contribution (R235). -/
def DmaJob.contributes (j : DmaJob) : Bool := decide (j.desc.op = 2) && decide (j.desc.chan = 0xF1) && decide (j.desc.kind = 6)
/-- Whether a repair keeps a contribution back (R401): only those to the replaced member's spare go out. -/
def Slot.keepsBack (x : Slot) (dev : Nat) : Bool := x.run.any (fun r => r.repair) && x.stand.getLast?.any (fun e => decide (e.2 ≠ dev))
/-- Whether a contribution that is to start finds no landing credit (R236). -/
def State.noCredit (s : State) (j : DmaJob) : Bool :=
  j.contributes && decide (j.done = 0) && !(s.slot j.slot).keepsBack j.desc.dev && !(s.slot j.slot).creditFree j.desc.dev (j.desc.arg % 4)
/-- A contribution's header as it is sent (R228, R244): NF joins NF_STEP, and AB is AB_STEP. -/
def Slot.formHeader (x : Slot) (bs : List Byte) : List Byte :=
  let b := (bs.getD 8 0#8).toNat
  bs.set 8 (BitVec.ofNat 8 (b % 64 + b2n (bitOf b 6 || x.nf) * 64 + b2n x.ab * 128))
/-- Whether an op in flight forms the weight gradient of a layer and drains it to a piggy bank or the bank extension (R23, R127, R129). -/
def drainsLayer (c : Core) (layer : Nat) (f : InFlight) : Bool :=
  match f.finish with
  | .matmul m => decide (2 ≤ m.args.dest.toNat) && ((descAt c m.hdr m.aDesc).any (fun x => decide (x.2.layer = layer) && decide (x.2.axis = 2)))
  | _ => false
/-- Whether gradients of a layer are still to come (R23): a drain of it is in flight, in a core or on its way to the bank extension. -/
def State.gradsPending (s : State) (layer : Nat) : Bool :=
  s.cores.any (fun e => e.2.main.inflight.any (drainsLayer e.2 layer)) ||
    s.dma.any (fun e => e.2.queue.any (fun j => match j.from' with
      | .core _ _ _ 1 => decide (j.desc.tag = layer)
      | _ => false))
/-- The gradients of the bucket that a header names are not final (R23). -/
def State.gradsWait (s : State) (j : DmaJob) (bs : List Byte) : Bool :=
  j.contributes && decide (j.done = 0) && ((s.slot j.slot).bucketDef (leNat (bs.take 4) % 2 ^ 20)).any (fun d =>
    decide (0 < d.tiles) && s.gradsPending d.layer)
/-- Tell every owner of this module's group that the step has read its shards for the last time (R250): this goes out with the tail, which follows the
last backward op. The version is the one that the step reads (log 82). -/
def State.releaseVersion (s : State) : State :=
  let x := s.slot 0
  let v := x.versionFor x.step.toNat
  let s := s.modSlot 0 (fun x => { x with releases := if x.releases.contains (v, s.modId.toNat) then x.releases else x.releases ++ [(v, s.modId.toNat)] })
  ((x.group s.role.1).filter (fun d => decide (d ≠ s.modId.toNat))).foldl (fun (s : State) d =>
    s.inject (collCtrl s d 3 0 [BitVec.ofNat 32 v, 0xFFFFFFFF#32])) s
/-- The tail contribution is noted as its SEND takes it up (R244, R250). -/
def State.noteTail (s : State) (j : DmaJob) (bs : List Byte) : State :=
  if leNat (bs.take 4) % 2 ^ 20 = tailBucket then (s.modSlot j.slot (fun x => { x with tailSent := true })).releaseVersion else s
/-- A contribution as a SEND takes it up (R226, R228, R235, R236, R244): a credit is spent, the header's NF is noted, and the tail is noted, whose sending
also releases the step's version. -/
def State.contribStart (s : State) (ch i : Nat) (j : DmaJob) (bs : List Byte) : State :=
  if j.contributes && decide (j.done = 0) then
    let d := j.desc
    let nf := bitOf (bs.getD 8 0#8).toNat 6
    let s := s.modSlot j.slot (fun x => { (x.takeCredit d.dev (d.arg % 4)) with nf := x.nf || nf })
    let s := s.modJob ch i (fun j => { j with nf := nf })
    s.noteTail j bs
  else s

/-- One message of a SEND (R315). -/
def State.sendMessage (s : State) (ch i : Nat) (j : DmaJob) : State × Bool :=
  let d := j.desc
  let o := j.done
  if !s.poolRoom ch 1 then (s.count { id := Ctr.dmaPoolWait, die := some (16 + ch / 32) }, false)
  else if s.noCredit j then (s, false)
  else if (s.chan ch).overlaps i j o (min 16384 (d.len - o)) then (s.count (ckChan Ctr.dmaOverlapWait ch), false)
  else
    let n := min 16384 (d.len - o)
    let last := decide (o + n = d.len)
    match s.jobRead j o n with
    | (s, .ok bs) =>
      if s.gradsWait j bs then (s, false)
      else if j.contributes && (s.slot j.slot).keepsBack d.dev then
        ((s.noteTail j bs).modJob ch i (fun j => { j with done := d.len, fin := some (0, 0) }), false)
      else
      let first := j.contributes && decide (o = 0)
      let bs := if first then (s.slot j.slot).formHeader bs else bs
      let nf := d.nf || (if first then bitOf (bs.getD 8 0#8).toNat 6 else j.nf)
      let s := s.contribStart ch i j bs
      let crc := crc32cReg j.crc bs
      let tail : List Word := if last && d.trailer then [BitVec.ofNat 32 (crc ^^^ 0xFFFFFFFF), 0#32] else []
      let s := s.inject
        { destDev := BitVec.ofNat 14 d.dev, destX := BitVec.ofNat 6 d.core, destY := BitVec.ofNat 6 (d.core / 64)
          channel := BitVec.ofNat 8 d.chan, tc := BitVec.ofNat 2 d.tc, slot := BitVec.ofNat 2 j.slot
          seq := BitVec.ofNat 16 (d.seqBase + o / 16384), srcDev := s.modId, srcX := 0x3F#6, srcY := 0x3F#6
          kind := BitVec.ofNat 4 d.kind, rsd := false, endf := last, nf := nf, arg := BitVec.ofNat 12 d.arg, hcheck := 0#16
          payload := wordsOf bs ++ tail }
      let s := if d.nf then s.modSlot j.slot (fun x => { x with nf := true }) else s
      (s.modJob ch i (fun j => { j with
        done := o + n, crc := crc, sent := last }), !last)
    | (s, .poison _) => (s.modJob ch i (fun j => { j with fin := some (0x02, 0x20) }), false)
    | _ => (s, false)

/-- Run up to `n` bursts or messages of the channel's current descriptor, when its OP is `op`. -/
def State.runDma (s : State) (ch op : Nat) (burst : State → Nat → Nat → DmaJob → State × Bool) : (n : Nat) → State
  | 0 => s
  | n + 1 => match (s.chan ch).current with
    | none => s
    | some (i, j) =>
      if j.desc.op ≠ op ∨ j.sent then s
      else match s.startJob ch i j with
        | (s, false) => s
        | (s, true) =>
          let pay := if j.paid ≤ j.done then s.payJob ch i j else (s, true)
          if !pay.2 then pay.1
          else
            let j := ((pay.1.chan ch).queue.getD i j)
            match burst pay.1 ch i j with
            | (s, true) => s.runDma ch op burst n
            | (s, false) => s

/-- A channel by die code of R308 and number, when the die has it (R307). -/
def chanKey (die : Fin 8) (chan : BitVec 5) : Option Nat :=
  if die.val < 4 ∨ chan.toNat < 16 then some (die.val * 32 + chan.toNat) else none

/-- A channel with work wakes its die and runs once it is awake (R339), unless its burst issue is frozen
(R332). A descriptor with an unknown OP is refused whichever command takes it up. -/
def State.runOp (s : State) (die : Fin 8) (chan : BitVec 5) (op n : Nat) (burst : State → Nat → Nat → DmaJob → State × Bool) :
    State :=
  match chanKey die chan with
  | none => s
  | some ch => match (s.chan ch).current with
    | some (i, j) =>
      let s := s.rouse (dieKey (16 + die.val))
      if !s.awake (dieKey (16 + die.val)) || s.frozen (16 + die.val) (if die.val < 4 then 12 else 6) then s
      else if 2 < j.desc.op then (s.startJob ch i j).1 else s.runDma ch op burst n
    | none => s

/-- COPY (R313): the next bursts of the channel's current descriptor. -/
def execCopy (die : Fin 8) (chan : BitVec 5) (bursts : Nat) (s : State) : Host.Outcome State Fault Refusal :=
  .next (s.runOp die chan 0 bursts State.copyBurst)
/-- ADD_F32 (R314). -/
def execAddF32 (die : Fin 8) (chan : BitVec 5) (bursts : Nat) (s : State) : Host.Outcome State Fault Refusal :=
  .next (s.runOp die chan 1 bursts State.addBurst)
/-- DMA_SEND (R315): the next messages of the channel's current descriptor. -/
def execDmaSend (die : Fin 8) (chan : BitVec 5) (messages : Nat) (s : State) : Host.Outcome State Fault Refusal :=
  .next (s.runOp die chan 2 messages State.sendMessage)

/-- The completion record of a descriptor (R319). -/
def DmaJob.record (j : DmaJob) (ch producer log2 time : Nat) : List Byte :=
  let (st, cause) := j.fin.getD (0, 0)
  let phase := (producer / 2 ^ log2 + 1) % 2
  leBytes 4 j.desc.tag ++ leBytes 4 (st + cause * 256 + ch / 32 * 65536 + ch % 32 * 2 ^ 19 + phase * 2 ^ 31) ++
    leBytes 8 j.done ++ leBytes 8 ((j.desc.len - j.done) + j.seq * 2 ^ 40) ++ leBytes 4 (j.crc ^^^ 0xFFFFFFFF) ++ leBytes 4 time

/-- The notice that a channel sends (R318): to a core, or to the die channel `sel` of memory die `die` on module `dev`. -/
def noticeTo (s : State) (dev x y slot arg st cause idx : Nat) : Msg :=
  { destDev := BitVec.ofNat 14 dev, destX := BitVec.ofNat 6 x, destY := BitVec.ofNat 6 y, channel := 0xFD#8, tc := 0#2
    slot := BitVec.ofNat 2 slot, seq := 0#16, srcDev := s.modId, srcX := 0x3F#6, srcY := 0x3F#6, kind := 2#4, rsd := false
    endf := false, nf := false, arg := BitVec.ofNat 12 arg, hcheck := 0#16
    payload := [BitVec.ofNat 32 (st + cause * 256 + idx * 65536)] }

/-- The oldest op in flight that awaits a notice on a grant. -/
def Ctx.awaits (t : Ctx) (grant : Nat) : Option InFlight := t.inflight.find? (fun f => decide (f.finish = .dma grant))

/-- Tell the requester of a completed descriptor (R318): a core by a notice, and firmware's DMA_ABORT event if it failed; the
driver, with IRQ, by its vector; a mirror unit is acknowledged (R396). -/
def State.tell (s : State) (ch : Nat) (j : DmaJob) (st cause : Nat) : State :=
  match j.from' with
  | .core no g grant _ =>
    let t := (s.core no).ctx g
    let s := s.inject (noticeTo s s.modId.toNat (no % 48) (no / 48) j.slot 1 st cause grant)
    if st = 0 then s
    else
      let off := ((t.awaits grant).map (fun f => f.off)).getD 0
      s.post 0x0204 .fault (some j.slot) (unitRef 0 (coreRef no))
        (payload [(2, coreRef no), (1, b2n g), (1, j.slot), (2, t.hdr.routine), (2, off), (1, st), (1, cause), (2, 0),
          (8, j.desc.len - j.done)])
  | .firmware => if j.desc.chan = 0xF4 then s.mirrorAck (decide (st = 0)) else if j.desc.chan = 0xF3 ∧ st ≠ 0 then s.resendEntry j.desc.tag else s
  | .driver => if j.desc.irq then s.raise 0 (SMap.get {} s.host.ddma (ch / 32 * 2 + ch % 2)).vector else s

/-- Take the head of a channel's queue off, completed (R317, R319, R324); the descriptor of a bank-extension drain frees the staging area
however it ended (R127). -/
def State.completeJob (s : State) (ch : Nat) (j : DmaJob) : State :=
  let c := s.chan ch
  let (st, cause) := j.fin.getD (0, 0)
  let s := s.setChan ch { c with queue := c.queue.drop 1 }
  let s := if st = 0 ∧ j.desc.release then s.releaseTiles j.desc.src j.desc.len else s
  let s := if j.desc.op = 2 then s else s.count (ckChan Ctr.dmaBytes ch) (j.done / 256)
  let s := s.count (ckChan (if st = 0 then Ctr.dmaDescDone else if st = 3 then Ctr.dmaRefused else Ctr.dmaAborted) ch)
  let s := if j.desc.cq && c.hasCq then
      let a := c.cqBase + c.producer % 2 ^ c.cqLog2 * 32
      let q : MemReq := { who := .firmware, addr := BitVec.ofNat 64 a, len := 32, tc := 2#2 }
      let s := if s.admits q then s.devWrite a (j.record ch c.producer c.cqLog2 s.timeUs) else s.refuse q
      s.modChan ch (fun c => { c with producer := (c.producer + 1) % 2 ^ 32 })
    else s
  let s := s.tell ch j st cause
  let s := match j.from' with
    | .core no _ _ 1 => s.modCore no (fun c => { c with bxBusy := false })
    | _ => s
  s.modChan ch (fun c => if c.closing && c.queue.isEmpty then { c with valid := false, closing := false } else c)

/-- Whether the channel's completion queue has no room (R320). -/
def DmaChan.cqFull (c : DmaChan) : Bool := c.hasCq && decide (c.producer = (c.cqHead + 2 ^ c.cqLog2) % 2 ^ 32)

/-- Whether the neighbouring link die has acknowledged the last flit of a link-die SEND (R262, R315): its message is no longer on its way here, and in
the pair that it left by nothing of its class waits or is unacknowledged (log 98). -/
def State.linkAcked (s : State) (j : DmaJob) : Bool :=
  let d := j.desc
  !s.wire.any (fun m => s.leaves m && decide (m.srcX = 0x3F#6) && decide (m.destDev.toNat = d.dev % 2 ^ 14) && decide (m.channel.toNat = d.chan % 2 ^ 8)) &&
    (match s.nextHop (d.dev % 2 ^ 14) with
     | .out k e =>
       let x := s.lpair (2 * k + e)
       let mine (f : Flit) : Bool := decide (f.ftype = 1#4) && decide (f.cls.toNat = min 2 d.tc)
       x.out.all (fun o => decide (o.1 / 2 ≠ min 2 d.tc) || o.2.bytes.isEmpty) && !x.waiting.any (fun w => mine w.flit) &&
         !(s.lport (4 * k + 2 * e)).replay.any mine && !(s.lport (4 * k + 2 * e + 1)).replay.any mine
     | _ => true)
/-- Whether bytes of a chest range still lie in a combining buffer on their way to the off-load region (R289, R316). -/
def State.chestBuffered (s : State) (a : ChestAddr) (n : Nat) : Bool :=
  (tilesOf a.off n).any (fun t => match s.chest.find a t with
    | some x => !x.sram && s.mem.buffered (s.stage.dramPlace x.place) 16384
    | none => false)
/-- Whether a descriptor's work has ended and every write response of its bursts has returned (R317, R324, R325). -/
def State.jobOver (s : State) (ch : Nat) (j : DmaJob) : Bool :=
  if j.fin.isNone then j.sent && decide (4 ≤ ch / 32) && s.linkAcked j
  else decide (j.desc.op = 2) || (match windowOf j.desc.dst with
    | 0 => !s.mem.buffered j.desc.dst j.done
    | 2 => !s.chestBuffered (chestAddr j.desc.dst) j.done
    | _ => true)

/-- DMA_COMPLETE (R317, R319, R320): the head of the queue completes once its work has ended and its bytes have left the
combining buffers; a full completion queue holds it. -/
def execDmaComplete (die : Fin 8) (chan : BitVec 5) (s : State) : Host.Outcome State Fault Refusal :=
  match chanKey die chan with
  | none => .next s
  | some ch =>
    let c := s.chan ch
    match c.queue with
    | [] => .next s
    | j :: _ =>
      if !s.jobOver ch j then .next s
      else if c.cqFull then .next (s.setChan ch { c with full := true })
      else .next (s.completeJob ch j)

/-- CQ_HEAD_POLL (R320): the consumer index is read again; while the queue stays full the microsecond is counted. -/
def execCqHeadPoll (die : Fin 8) (chan : BitVec 5) (s : State) : Host.Outcome State Fault Refusal :=
  match chanKey die chan with
  | none => .next s
  | some ch =>
    let c := s.chan ch
    if !c.full then .next s
    else
      let c := { c with cqHead := s.devLE c.cqHeadAddr 4 }
      if c.cqFull then .next ((s.setChan ch c).count (ckChan Ctr.dmaCqFullUs ch))
      else .next (s.setChan ch { c with full := false })

/-- DMA_CHANNEL_ABORT (R324): Yucon firmware aborts a channel. -/
def execDmaChannelAbort (die : Fin 8) (chan : BitVec 5) (s : State) : Host.Outcome State Fault Refusal :=
  match chanKey die chan with
  | none => .next s
  | some ch => .next (s.modChan ch (fun c => c.abort s.mem 0x10))

end Sys2Proof.Machine
end

