-- ==== Sys2Proof/Machine/CommOps.lean ====
section
/-! DEFINITION. SEND, RECV, RFREE, FWD, SYNC, DLOAD and DSTORE, and the messages that reach a core (R78 to R83, R184 to R191, R310,
R318). -/

namespace Sys2Proof.Machine

/-- The core that a message is for. -/
def msgCore (m : Msg) : Nat := coreNo m.destX.toNat m.destY.toNat
/-- The site of a core's context. -/
def siteOf (no : Nat) (guest : Bool) : Site := { x := Fin.ofNat 48 (no % 48), y := Fin.ofNat 48 (no / 48), guest := guest }
/-- The context of a core that a slot is bound to (R185). -/
def State.boundCtx (s : State) (no k : Nat) : Option Bool :=
  if !(s.slot k).st.loaded then none
  else if (s.slot k).bound.contains (no, false) then some false
  else if (s.slot k).bound.contains (no, true) then some true
  else none

/-- The key of a discard before a context is known (R198): slot 0's messages are the main context's, any other's the guest's (DESIGN CHOICE,
log 77). -/
def ckDrop (id : Nat) (m : Msg) : CKey := { id := id, core := some (msgCore m), ctx := some (decide (m.slot ≠ 0#2)) }
/-- A message is discarded (R185): counted, reported, and slot 0's step abandoned or the guest slot halted. -/
def State.dropMsg (s : State) (m : Msg) (key : CKey) : State :=
  let no := msgCore m
  let s := (s.count key).post 0x0203 .fault (some m.slot.toNat) (unitRef 0 (coreRef no))
    (payload [(2, coreRef no), (2, key.id), (16, msgHeader128 m)])
  if m.slot = 0#2 then s.epochClose 3 else if (s.slot m.slot.toNat).st.loaded then s.haltSlot m.slot.toNat else s

/-- Deliver a message to its core in the order of its flow (R22, R185, R186, R339, R389): the dies on its way and a core that sleeps are woken, and the message waits until they are; a quiesced slot's
message is discarded; `act` takes it up in the context that its SLOT is bound to. -/
def State.deliver (s : State) (m : Msg) (act : State → Site → State) : State :=
  if m.destDev ≠ s.modId ∨ 48 ≤ m.destX.toNat ∨ 48 ≤ m.destY.toNat ∨ !s.inOrder m then s
  else
    let no := msgCore m
    let s := s.wakePath (s.entryCore m) (msgGoal m)
    let s := if s.coreActive no then s else s.wakeCore no
    if !s.coreActive no || !s.pathAwake (s.entryCore m) (msgGoal m) then (if s.wire.contains m then s else { s with wire := s.wire ++ [m] })
    else
      let s := s.arrived m
      if m.slot = 0#2 ∧ (s.slot 0).quiesced then s.count { id := Ctr.abandonMsgDrop, core := some no }
      else if m.hcheck ≠ headerCheck m then s.dropMsg m (ckDrop Ctr.hdrCheckDrop m)
      else match s.boundCtx no m.slot.toNat with
        | none => s.dropMsg m (ckDrop Ctr.msgSlotDrop m)
        | some g => act s (siteOf no g)

/-- Change a channel of a context. -/
def State.modCh (s : State) (p : Site) (ch : Nat) (f : Chan → Chan) : State :=
  s.modCtx p (fun t => { t with chans := SMap.modify {} t.chans ch f })
/-- Change an endpoint of a context. -/
def State.modEp (s : State) (p : Site) (ep : Nat) (f : Endp → Endp) : State :=
  s.modCtx p (fun t => { t with eps := SMap.modify {} t.eps ep f })
/-- The byte offset of slot `i` of a ring (R187). -/
def Chan.slotAt (c : Chan) (i : Nat) : Nat := (c.line + i * ((c.words + 63) / 64)) * 256

/-- A DATA message on a RING channel (R188): slot i mod SLOTS is written, or the message overruns the ring (R185). -/
def State.ringData (s : State) (p : Site) (m : Msg) (ch : Chan) : State :=
  if ch.words < m.payload.length ∨ ch.slots ≤ ch.waiting.length + ch.held.length then s.dropMsg m (ckCtx Ctr.msgOverrun p)
  else
    let i := ch.arrived % max 1 ch.slots
    let s := s.modCore (Site.no p) (fun c => { c with lmem := c.lmem.writeList (ch.slotAt i) (payloadBytes m) })
    let h : Held :=
      { slot := i, srcDev := m.srcDev, srcX := m.srcX, srcY := m.srcY, seq := m.seq, len := m.payload.length, endf := m.endf, nf := m.nf }
    ((s.modCh p m.channel.toNat (fun c => { c with arrived := c.arrived + 1, waiting := c.waiting ++ [h] })).count
      (ckCtx Ctr.msgReceived p)).coreWritten m

/-- The descriptor of a JOIN channel (R187). -/
def State.joinDesc (s : State) (p : Site) (ch : Chan) : TDesc :=
  let c := s.core (Site.no p)
  ((descAt c (c.ctx p.guest).hdr ch.desc).map (fun x => x.2)).getD (Coding.parseDesc [])
/-- A word list as bytes. -/
def wordBytes (l : List Word) (a : Nat) : Byte := BitVec.ofNat 8 ((l.getD (a / 4) 0#32).toNat / 256 ^ (a % 4))
/-- A joined tile read as a stored one: planes of 2,048 bytes, then block words, then kite words. -/
def JTile.rd (j : JTile) (a : Nat) : Byte :=
  if a < 8192 then wordBytes (SMap.get [] j.codes (a / 2048)) (a % 2048)
  else if a < 8448 then wordBytes j.blockw (a - 8192)
  else wordBytes j.kites (a - 8448)
/-- The first block's sequence number of a tile (R80). -/
def firstSeq (d : TDesc) (tile : Nat) : Nat := (d.seqBase + 128 * tile) % 65536
/-- The descriptor under which a joined tile reads as tile 0. -/
def JTile.desc (j : JTile) (d : TDesc) : TDesc :=
  { d with codes := 0, planeStride := 8, blockw := 8192, kite := 8448, seqBase := firstSeq d j.tile }
/-- The blocks of a joined tile. -/
def JTile.blocks (j : JTile) (d : TDesc) (wide : Bool) : TileRd :=
  Coding.takeBlks j.rd (j.desc d) wide (((Coding.blockWords j.rd (j.desc d) 0)).zipIdx.map (fun (bw, i) => (i, bw)))
    (j.kites.map BitVec.toNat)
/-- Planes that a joined tile needs beyond the first. -/
def JTile.pmax (j : JTile) (d : TDesc) : Nat := (Coding.tileCounts d.fmt (Coding.blockWords j.rd (j.desc d) 0)).2.2
/-- Whether the codes and block words of a tile are all there. -/
def JTile.complete (j : JTile) (d : TDesc) : Bool :=
  decide (j.blockw.length = 64) && (List.range (j.pmax d + 1)).all (fun k => decide ((SMap.get [] j.codes k).length = 512))
/-- Whether kites are called for. -/
def JTile.wantsKites (j : JTile) (d : TDesc) : Bool := !(j.blocks d true).unresolved.isEmpty
/-- The verdict on a tile after a segment (R78): joined and checked, a mismatch, or more to come (log 47). -/
def JTile.verdict (j : JTile) (d : TDesc) : Option Bool :=
  if !(j.senders.all (fun x => j.ended.contains x)) then none
  else if j.blockw.isEmpty ∨ j.codes.isEmpty ∨ (!j.kiteSeen && j.complete d && j.wantsKites d) then none
  else some (j.complete d && (j.blocks d true).unresolved.isEmpty && !(j.blocks d true).surplus)

/-- Put a joiner tile back. -/
def State.setTile (s : State) (p : Site) (j : JTile) : State :=
  s.modCore (Site.no p) (fun c => { c with joiner := c.joiner.map (fun x =>
    if x.ch = j.ch ∧ x.guest = j.guest ∧ x.tile = j.tile then j else x) })
/-- A control message of the joiner (R82, R83) to a sender of a tile; CHANNEL is the joiner's channel (log 46). -/
def jigsawMsg (s : State) (p : Site) (x : Sender) (kind ch seq : Nat) : Msg :=
  { fromCore s p x.dev.toNat x.x.toNat x.y.toNat ch 0 kind [] with seq := BitVec.ofNat 16 seq }
/-- A joiner's counter under its context and the LAYER of the JOIN descriptor (R84; DESIGN CHOICE, log 79: the consumer holds no parameter
record). -/
def ckJoin (id : Nat) (p : Site) (d : TDesc) : CKey := { ckCtx id p with layer := some d.layer }

/-- A persistent mismatch (R83): the tile goes to the wide path, its wide source asked for or re-read by address: a tile of a stored tensor is
one whose descriptor's CODES_BASE lies in device memory (DESIGN CHOICE, log 78). -/
def State.tileWide (s : State) (p : Site) (d : TDesc) (j : JTile) : State :=
  let stored := decide (windowOf d.codes = 0)
  let j' : JTile :=
    { ch := j.ch, guest := j.guest, tile := j.tile, senders := j.senders, retried := true
      mark := if stored then .wideReady else .wide }
  let s := (s.setTile p j').count (ckJoin Ctr.jigsawWide p d)
  let s := s.post 0x0701 .reconcile (some (s.ctx p).slot) (unitRef 0 (coreRef (Site.no p)))
    (payload [(1, 1), (2, coreRef (Site.no p)), (1, j.ch), (2, firstSeq d j.tile)])
  if stored then s
  else (j.senders.map (fun x => jigsawMsg s p x 4 j.ch (firstSeq d j.tile))).foldl State.inject s
/-- A tile attempt fails (R78, R82, R83). -/
def State.tileFails (s : State) (p : Site) (d : TDesc) (j : JTile) : State :=
  let s := s.count (ckJoin Ctr.jigsawMismatch p d)
  if j.retried then s.tileWide p d j
  else
    let s := s.setTile p { ch := j.ch, guest := j.guest, tile := j.tile, senders := j.senders, retried := true, mark := .resend }
    (j.senders.map (fun x => jigsawMsg s p x 3 j.ch (firstSeq d j.tile))).foldl State.inject s

/-- A segment with a wide source (R83, R190). -/
def State.wideSegment (s : State) (p : Site) (m : Msg) (j : JTile) : State :=
  let f := m.arg.toNat / 32 % 8
  let src := j.wideSrc ++ m.payload
  s.setTile p { j with wideSrc := src, wideFmt := f, mark := if 1024 * Coding.sfmtBytes f ≤ src.length then .wideReady else .wide }

/-- Join a segment to its tile (R78, R82). -/
def State.joinInto (s : State) (p : Site) (m : Msg) (d : TDesc) (j : JTile) : State :=
  let arg := m.arg.toNat
  let who : Sender := { dev := m.srcDev, x := m.srcX, y := m.srcY }
  let plane := arg / 4 % 4
  let first := firstSeq d j.tile
  let j := { j with
    senders := if j.senders.contains who then j.senders else j.senders ++ [who]
    ended := if bitOf arg 4 && !j.ended.contains who then j.ended ++ [who] else j.ended }
  let have' := SMap.get [] j.codes plane
  let seqOk (n : Nat) : Bool := decide (m.seq.toNat = (first + n) % 65536)
  let next : Option JTile := match arg % 4 with
    | 0 => if seqOk (have'.length / 4) then some { j with codes := SMap.set [] j.codes plane (have' ++ m.payload) } else none
    | 1 => if seqOk (2 * j.blockw.length) then some { j with blockw := j.blockw ++ m.payload } else none
    | _ => some { j with kites := j.kites ++ m.payload, kiteSeen := true }
  match next with
  | none => s.tileFails p d j
  | some j => match j.verdict d with
    | none => s.setTile p j
    | some false => s.tileFails p d j
    | some true =>
      let s := s.setTile p { j with mark := .ready }
      if j.retried then s.count (ckJoin Ctr.jigsawRetryOk p d) else s

/-- A discarded segment's sender is noted, so that it has its tile credit when the tile leaves (R79). -/
def State.noteSender (s : State) (p : Site) (j : JTile) (who : Sender) : State :=
  if j.senders.contains who then s else s.setTile p { j with senders := j.senders ++ [who] }
/-- A sender that a tile's resend or wide request has not asked yet is asked when its first segment comes (R82, R83). -/
def State.askLate (s : State) (p : Site) (d : TDesc) (j : JTile) (who : Sender) (kind : Nat) : State :=
  if j.senders.contains who then s
  else (s.setTile p { j with senders := j.senders ++ [who] }).inject (jigsawMsg s p who kind j.ch (firstSeq d j.tile))
/-- A DATA message on a JOIN channel (R79, R80, R82): a tile without a free slot of its channel and of the joiner's 8 keeps its segment in the
router. -/
def State.joinData (s : State) (p : Site) (m : Msg) (ch : Chan) : State :=
  let d := s.joinDesc p ch
  let no := m.channel.toNat
  let tile := (m.seq.toNat + 65536 - d.seqBase) % 65536 / 128
  let js := (s.core (Site.no p)).joiner.filter (fun j => decide (j.ch = no) && j.guest == p.guest)
  let got (s : State) : State := s.count (ckCtx Ctr.msgReceived p)
  let who : Sender := { dev := m.srcDev, x := m.srcX, y := m.srcY }
  match js.find? (fun j => decide (j.tile = tile)) with
  | none =>
    if m.arg.toNat % 4 = 3 then s
    else if ch.slots ≤ js.length ∨ 8 ≤ (s.core (Site.no p)).joiner.length then { s with wire := m :: s.wire }
    else
      let j : JTile := { ch := no, guest := p.guest, tile := tile }
      ((got s).modCore (Site.no p) (fun c => { c with joiner := c.joiner ++ [j] })).joinInto p m d j
  | some j =>
    match j.mark with
    | .joining => if m.arg.toNat % 4 = 3 then s else (got s).joinInto p m d j
    | .resend => if m.rsd && decide (m.arg.toNat % 4 ≠ 3) then (got s).joinInto p m d j else s.askLate p d j who 3
    | .wide => if m.arg.toNat % 4 = 3 then (got s).wideSegment p m j else s.askLate p d j who 4
    | .ready => s.noteSender p j who
    | .wideReady => s.noteSender p j who

/-- A DATA message (R185, R188): to its ring or to the joiner. -/
def State.dataMsg (s : State) (p : Site) (m : Msg) : State :=
  let ch := (s.ctx p).chan m.channel.toNat
  if !ch.bound then s.dropMsg m (ckCtx Ctr.msgUnboundDrop p)
  else if ch.join then s.joinData p m ch else s.ringData p m ch

/-- RING_MESSAGE (R188). -/
def execRingMessage (m : Msg) (s : State) : Host.Outcome State Fault Refusal :=
  .next (s.deliver m (fun s p => s.dataMsg p m))
/-- JOIN_SEGMENT (R78). -/
def execJoinSegment (m : Msg) (s : State) : Host.Outcome State Fault Refusal :=
  .next (s.deliver m (fun s p => s.dataMsg p m))

/-- TOKEN_MESSAGE (R191): ARG names the token and the count. -/
def execTokenMessage (m : Msg) (s : State) : Host.Outcome State Fault Refusal :=
  .next (s.deliver m (fun s p =>
    (s.count (ckCtx Ctr.msgReceived p)).addToken p (m.arg.toNat % 16) (m.arg.toNat / 16 % 16) (s.ctx p).pos 0))

/-- An op in flight is complete (R174): it leaves the context, its ST token rises, its counter counts. -/
def State.opDone (s : State) (p : Site) (f : InFlight) : State :=
  let s := s.modCtx p (fun t => { t with inflight := t.inflight.erase f })
  let s := match f.doneCtr with
    | some id => s.count (ckCtx id p)
    | none => s
  match f.tok with
  | some k => s.addToken p k 1 f.off f.word
  | none => s

/-- One credit returns to an endpoint (R189, R190): on a JOIN endpoint the oldest closed tile leaves the send log, and the TEND SEND
that waits for it completes. -/
def State.creditOne (s : State) (p : Site) (ep : Nat) : State :=
  let e := (s.ctx p).endp ep
  let s := s.modEp p ep (fun e => { e with credits := e.credits + 1 })
  if !e.join then s
  else match e.log.find? (fun l => l.closed) with
    | none => s
    | some l =>
      let s := s.modEp p ep (fun e => { e with log := e.log.erase l })
      match (s.ctx p).inflight.find? (fun f => decide (f.finish = .tileCredit ep l.first)) with
      | some f => s.opDone p f
      | none => s
/-- The endpoint whose destination and channel match a message's source and channel (R189). -/
def Ctx.endpFor (t : Ctx) (m : Msg) : Option Nat :=
  (t.eps.find? (fun e => e.2.valid && decide (e.2.dev = m.srcDev.toNat) && decide (e.2.x = m.srcX.toNat) &&
    decide (e.2.y = m.srcY.toNat) && decide (e.2.ch = m.channel.toNat))).map (fun e => e.1)

/-- CREDIT_MESSAGE (R189). -/
def execCreditMessage (m : Msg) (s : State) : Host.Outcome State Fault Refusal :=
  .next (s.deliver m (fun s p =>
    match (s.ctx p).endpFor m with
    | some ep => (List.range (m.arg.toNat % 256)).foldl (fun (s : State) _ => s.creditOne p ep) s
    | none => s))

/-- A segment of a log as a message (R190). -/
def segMsg (s : State) (p : Site) (e : Endp) (g : Seg) (rsd tend : Bool) (sfmt : Nat) : Msg :=
  let c := s.core (Site.no p)
  let pl := (List.range g.len).map (fun i => BitVec.ofNat 32 (c.lmem.readLE (4 * (g.word + i)) 4))
  { fromCore s p e.dev e.x e.y e.ch e.tc 0 pl with
    seq := g.seq, rsd := rsd, arg := BitVec.ofNat 12 (g.stream + g.plane * 4 + b2n tend * 16 + sfmt * 32) }
/-- The energy of a SEND, FWD or replay (R350). -/
def sendCost (len : Nat) : Nat := 100 + 10 * ((16 + 4 * len + 63) / 64)
/-- A replay is paid as a COMM op and does not wait (R190, R350, R353). -/
def State.payReplay (s : State) (p : Site) (cost : Nat) : State :=
  let ch := chargeAt cost (s.gov (dieOf (Site.no p))).clock
  if p.guest then s.modCtx p (fun t => { t with purse := t.purse - ch }) else s.payFloor (Site.no p) ch

/-- The logged tile that a resend or a wide request names by its first block's sequence number (R82, R190). -/
def Endp.logged (e : Endp) (seq : BitVec 16) : Option TileLog :=
  e.log.find? (fun l => l.segs.any (fun g => decide ((g.seq - seq).toNat < 128)))
/-- JIGSAW_RESEND (R82, R190): the tile's logged segments are replayed with RSD set, and so are the segments of an open tile that are sent
later. -/
def execJigsawResend (m : Msg) (s : State) : Host.Outcome State Fault Refusal :=
  .next (s.deliver m (fun s p =>
    match (s.ctx p).endpFor m with
    | none => s
    | some ep =>
      let e := (s.ctx p).endp ep
      match e.logged m.seq with
      | none => s
      | some l => l.segs.zipIdx.foldl (fun (s : State) (g, i) =>
          ((s.payReplay p (sendCost g.len)).inject (segMsg s p e g true (l.closed && decide (i + 1 = l.segs.length)) 0)).count
            (ckCtx Ctr.msgSent p))
          (s.modEp p ep (fun e => { e with log := e.log.map (fun x => if x = l then { x with resent := true } else x) }))))

/-- WIDE_REQUEST (R83, R190): the logged QUANT source is sent with STREAM 3. -/
def execWideRequest (m : Msg) (s : State) : Host.Outcome State Fault Refusal :=
  .next (s.deliver m (fun s p =>
    match (s.ctx p).endpFor m with
    | none => s
    | some ep =>
      let e := (s.ctx p).endp ep
      match (e.logged m.seq).bind (fun l => l.src) with
      | none => s
      | some (line, sfmt, _) =>
        let n := 1024 * Coding.sfmtBytes sfmt
        let g : Seg := { word := line * 64, len := n, seq := m.seq, stream := 3, plane := 0 }
        ((s.payReplay p (sendCost n)).inject (segMsg s p e g false false sfmt)).count (ckCtx Ctr.msgSent p)))

/-- JIGSAW_RESEND_TIMEOUT (R83): 65,536 cycles without a complete resend make the mismatch persistent. -/
def execJigsawResendTimeout (p : Site) (ch : BitVec 8) (tile : Nat) (s : State) : Host.Outcome State Fault Refusal :=
  match (s.core (Site.no p)).joiner.find? (fun j => decide (j.ch = ch.toNat) && j.guest == p.guest && decide (j.tile = tile)) with
  | some j => if j.mark = .resend then .next (s.tileWide p (s.joinDesc p ((s.ctx p).chan ch.toNat)) j) else .next s
  | none => .next s

/-- The endpoint checks of an op (R183, R189). -/
def epFault (t : Ctx) (ep : Nat) : Option Nat := need (t.endp ep).valid 0x09
/-- Whether a channel is a bound ring. -/
def Chan.ring (c : Chan) : Bool := c.bound && !c.join
/-- The lines of a ring slot. -/
def Chan.slotRange (c : Chan) (h : Held) : Rng := lsRange (c.slotAt h.slot) (4 * max 1 h.len)

/-- The plan of a RECV. -/
def recvPlan (t : Ctx) (h : OpHead) (ch : BitVec 8) (d l : BitVec 4) : Plan :=
  let c := t.chan ch.toNat
  { word := opWord 0x21 0 h [(88, ch.toNat), (84, d.toNat), (80, l.toNat)], regsW := [d.toNat, l.toNat], cost := 50, comm := true
    needs := some .router, hold := c.ring && c.waiting.isEmpty, on := some (.message ch.toNat), fault := need c.ring 0x09 }
/-- RECV (R188): it waits for the oldest message not yet handed over; S[D] is its first line, S[L] its LENGTH, END and NF. -/
def execRecv (p : Site) (h : OpHead) (ch : BitVec 8) (d l : BitVec 4) (s : State) : Host.Outcome State Fault Refusal :=
  let c := (s.ctx p).chan ch.toNat
  .next (s.issue p h (recvPlan (s.ctx p) h ch d l)
    (fun s => match c.waiting with
      | [] => s
      | m :: rest =>
        let s := s.modCh p ch.toNat (fun c => { c with waiting := rest, held := c.held ++ [m] })
        s.modCtx p (fun t => (t.setSreg d (BitVec.ofNat 32 (c.slotAt m.slot / 256))).setSreg l
          (BitVec.ofNat 32 (m.len + b2n m.endf * 65536 + b2n m.nf * 131072)))))

/-- Free the oldest held slot of a channel and return its credit (R188); the chest's grant gives its chunk's credit back (R209). -/
def State.freeSlot (s : State) (p : Site) (ch : Nat) : State :=
  match ((s.ctx p).chan ch).held with
  | [] => s
  | m :: rest =>
    let s := s.modCh p ch (fun c => { c with held := rest })
    if m.srcX = 0x3F#6 then s.gateCredit p.x.val p.y.val ch
    else s.inject { fromCore s p m.srcDev.toNat m.srcX.toNat m.srcY.toNat ch 0 2 [] with arg := 1#12 }

/-- The plan of an RFREE. -/
def rfreePlan (t : Ctx) (h : OpHead) (ch : BitVec 8) : Plan :=
  let c := t.chan ch.toNat
  let m := c.held[pendingFree t ch.toNat]?
  { word := opWord 0x22 0 h [(88, ch.toNat)], unit := some .router, cost := 50, comm := true, hold := c.ring && m.isNone, on := some (.held ch.toNat)
    writes := (m.map (fun x => [c.slotRange x])).getD [], finish := .freeSlot ch.toNat, fault := need c.ring 0x09 }
/-- RFREE (R188): it waits for earlier readers of the message; the slot and the credit go back when it completes. -/
def execRfree (p : Site) (h : OpHead) (ch : BitVec 8) (s : State) : Host.Outcome State Fault Refusal :=
  .next (s.issue p h (rfreePlan (s.ctx p) h ch) id)

/-- The plan of an FWD. -/
def fwdPlan (t : Ctx) (h : OpHead) (ch : BitVec 8) (ep : BitVec 6) : Plan :=
  let c := t.chan ch.toNat
  let m := c.held[pendingFree t ch.toNat]?
  { word := opWord 0x23 0 h [(88, ch.toNat), (82, ep.toNat)], unit := some .router, cost := sendCost ((m.map (fun x => x.len)).getD 0)
    comm := true, hold := c.ring && m.isNone, reads := (m.map (fun x => [c.slotRange x])).getD [], finish := .freeSlot ch.toNat
    fault := faultOf [need c.ring 0x09, epFault t ep.toNat]
    on := if m.isNone then some (.held ch.toNat) else some (.credit ep.toNat)
    wait := if (t.endp ep.toNat).credits = 0 then some Ctr.sendCreditStall else none }
/-- FWD (R188, R189): the oldest held message goes on unchanged to an endpoint; its slot is freed when the payload is sent. -/
def execFwd (p : Site) (h : OpHead) (ch : BitVec 8) (ep : BitVec 6) (s : State) : Host.Outcome State Fault Refusal :=
  let t := s.ctx p
  let c := t.chan ch.toNat
  let e := t.endp ep.toNat
  let m := c.held[pendingFree t ch.toNat]?
  .next (s.issue p h (fwdPlan t h ch ep)
    (fun s => match m with
      | none => s
      | some x =>
        let pl := (List.range x.len).map (fun i => BitVec.ofNat 32 ((s.core (Site.no p)).lmem.readLE (c.slotAt x.slot + 4 * i) 4))
        ((s.modEp p ep.toNat (fun e => { e with credits := e.credits - 1 })).inject
          { fromCore s p e.dev e.x e.y e.ch e.tc 0 pl with seq := x.seq, endf := x.endf, nf := x.nf }).count (ckCtx Ctr.msgSent p)))

/-- The QUANT source of the tile that a stream segment belongs to (R190): the op whose descriptor and tile put codes or block words
at the segment's address. -/
def srcOf (c : Core) (t : Ctx) (g : Seg) : Option (Nat × Nat × Nat) :=
  (t.qsrc.find? (fun q => match descAt c t.hdr q.desc with
    | some (_, d) =>
      let a := 4 * g.word
      let at' (base n : Nat) : Bool := decide (base % 2 ^ 32 + n * q.tile ≤ a) && decide (a < base % 2 ^ 32 + n * q.tile + n)
      (g.stream == 0 && at' (d.codes + g.plane * d.planeStride * 256) 2048) || (g.stream == 1 && at' d.blockw 256)
    | none => false)).map (fun q => (q.line, q.sfmt, q.rotN))

/-- The open tile of a JOIN endpoint's log. -/
def Endp.openTile (e : Endp) : Option TileLog := e.log.find? (fun l => !l.closed)
/-- Log a segment of a tile (R190). -/
def Endp.logSeg (e : Endp) (g : Seg) (src : Option (Nat × Nat × Nat)) (tend : Bool) : Endp :=
  match e.openTile with
  | some l => { e with log := e.log.map (fun x => if x.closed then x else
      { l with segs := l.segs ++ [g], closed := tend, src := if l.src.isSome then l.src else src }) }
  | none => { e with credits := e.credits - 1, log := e.log ++ [{ first := g.seq.toNat, segs := [g], closed := tend, src := src }] }

/-- The length of a SEND in words (R176). -/
def sendLen (t : Ctx) (a : SendArgs) : Nat := (t.sreg a.lreg + BitVec.ofNat 32 a.len.toNat).toNat
/-- A SEND's payload as a segment (R189, R190). -/
def sendSeg (t : Ctx) (a : SendArgs) : Seg :=
  { word := t.word a.src, len := sendLen t a, seq := BitVec.ofNat 16 ((t.sreg a.seqReg).toNat + a.seqOff.toNat), stream := a.stream.toNat
    plane := a.planeM1.toNat }
/-- The plan of a SEND: the message that opens a tile on a JOIN endpoint, and every other message, takes a credit. -/
def sendPlan (s : State) (p : Site) (h : OpHead) (a : SendArgs) : Plan :=
  let c := s.core (Site.no p)
  let t := c.ctx p.guest
  let e := t.endp a.ep.toNat
  let len := sendLen t a
  let w := t.word a.src
  let opens := !e.join || e.openTile.isNone
  let first := (e.openTile.map (fun l => l.first)).getD (sendSeg t a).seq.toNat
  { word := opWord 0x20 (b2n a.endf + 2 * b2n a.nf + 4 * b2n a.tend) h [(90, a.ep.toNat), (66, lwaBits a.src), (53, a.len.toNat),
      (49, a.lreg.toNat), (45, a.seqReg.toNat), (33, a.seqOff.toNat), (31, a.stream.toNat), (29, a.planeM1.toNat), (26, a.wfmt.toNat)]
    unit := some .router, reads := if len = 0 then [] else [lsRange (4 * w) (4 * len)]
    regsR := [a.src.s.toNat, a.lreg.toNat, a.seqReg.toNat], cost := sendCost len, comm := true
    finish := if e.join && a.tend then .tileCredit a.ep.toNat first else .plain
    fault := faultOf [need (a.wfmt.toNat ≤ 4) 0x01, epFault t a.ep.toNat, need (len ≤ 4096) 0x09,
      need (localOk c.chestLines p.guest false (4 * w) (4 * len)) 0x03]
    on := if opens then some (.credit a.ep.toNat) else none
    wait := if opens && decide (e.credits = 0) then some Ctr.sendCreditStall else none }
/-- The message of a SEND (R184, R190); a tile that is being resent keeps its RSD flag (R82). -/
def sendMsg (s : State) (p : Site) (a : SendArgs) (e : Endp) (g : Seg) : Msg :=
  let m := segMsg s p e g (e.join && (e.openTile.map (fun l => l.resent)).getD false) a.tend a.wfmt.toNat
  { m with endf := a.endf, nf := a.nf, arg := if e.join then m.arg else 0#12 }
/-- SEND (R189, R190). -/
def execSend (p : Site) (h : OpHead) (a : SendArgs) (s : State) : Host.Outcome State Fault Refusal :=
  let c := s.core (Site.no p)
  let t := c.ctx p.guest
  let e := t.endp a.ep.toNat
  let g := sendSeg t a
  .next (s.issue p h (sendPlan s p h a)
    (fun s =>
      let m := sendMsg s p a e g
      let s := s.modEp p a.ep.toNat (fun e =>
        if e.join then e.logSeg g (srcOf c t g) a.tend else { e with credits := e.credits - 1 })
      let s := if a.nf then s.modSlot t.slot (fun x => { x with nf := true }) else s
      (s.inject m).count (ckCtx Ctr.msgSent p)))

/-- The plan of a SYNC. -/
def syncPlan (s : State) (p : Site) (h : OpHead) (ep : BitVec 6) (token count : BitVec 4) : Plan :=
  let t := s.ctx p
  { word := opWord 0x24 0 h [(90, ep.toNat), (86, token.toNat), (82, count.toNat)], unit := some .router, cost := 50, comm := true
    fault := faultOf [need (count ≠ 0#4) 0x01, epFault t ep.toNat,
      need (!(toSelf s p (t.endp ep.toNat)) || decide ((t.takeTokens h.wmask).token token.toNat + count.toNat ≤ 15)) 0x07] }
/-- SYNC (R191): a TOKEN message, or the count added here when the endpoint is this core itself. -/
def execSync (p : Site) (h : OpHead) (ep : BitVec 6) (token count : BitVec 4) (s : State) :
    Host.Outcome State Fault Refusal :=
  let t := s.ctx p
  let e := t.endp ep.toNat
  .next (s.issue p h (syncPlan s p h ep token count)
    (fun s =>
      if toSelf s p e then s.modCtx p (fun t => t.setToken token.toNat (t.token token.toNat + count.toNat))
      else (s.inject { fromCore s p e.dev e.x e.y 0xFE 0 1 [] with arg := BitVec.ofNat 12 (token.toNat + count.toNat * 16) }).count
        (ckCtx Ctr.msgSent p)))

/-- The die channel of a grant of a routine (R308). -/
def grantChan (c : Core) (h : Hdr) (i : Nat) : Option Nat :=
  (tableAt h.grant 4 i).map (fun a => let v := c.lmem.readLE a 4; fld v 2 0 * 32 + fld v 7 3)
/-- A descriptor address with an op's offset added (R310): S[l] lines to a local one, S[m] * 256 to another. -/
def offsetAddr (t : Ctx) (a : DmaOpArgs) (x : Nat) : Nat :=
  (x + (if isLocal x then (t.sreg a.lreg).toNat else (t.sreg a.mreg).toNat) * 256) % 2 ^ 64
/-- The descriptor that a DLOAD or DSTORE submits (R310). -/
def opDesc (c : Core) (t : Ctx) (a : DmaOpArgs) : DmaDesc :=
  let d := parseDesc (rdBytes c.lmem.read (t.line a.line * 256 + a.quarter.toNat * 64) 64)
  { d with src := offsetAddr t a d.src, dst := if d.op = 2 then d.dst else offsetAddr t a d.dst, slot := t.slot }
/-- The local-store ranges that a transfer reads and writes (R173). -/
def descRange (x len : Nat) : List Rng := if isLocal x then [lsRange (x % 2 ^ 32) (min len 0x300000)] else []

/-- The issue plan of a DLOAD or DSTORE (R173, R310, R350). -/
def dmaPlan (s : State) (p : Site) (h : OpHead) (opcode : Nat) (a : DmaOpArgs) : Plan :=
  let c := s.core (Site.no p)
  let t := c.ctx p.guest
  let d := opDesc c t a
  let ch := grantChan c t.hdr a.chan.toNat
  { word := opWord opcode 0 h [(78, lsaBits a.line), (76, a.quarter.toNat), (72, a.mreg.toNat), (68, a.lreg.toNat), (62, a.chan.toNat)]
    unit := some .dieDma, readsNow := [{ sp := .ls, lo := t.line a.line, n := 1 }], reads := descRange d.src d.len
    writes := if d.op = 2 then [] else descRange d.dst d.len, regsR := [a.line.s.toNat, a.mreg.toNat, a.lreg.toNat]
    cost := dmaCost (min d.len 262144), comm := decide (d.tc ≠ 2), finish := .dma a.chan.toNat
    hold := (ch.map (fun k => decide (64 ≤ (s.chan k).queue.length))).getD false, on := ch.map .dma
    fault := faultOf [need (linesOk c.chestLines p.guest false (t.line a.line) 1) 0x03, need ch.isSome 0x09] }
/-- The submission (R310). -/
def State.dmaSubmit (s : State) (p : Site) (a : DmaOpArgs) : State :=
  let c := s.core (Site.no p)
  let t := c.ctx p.guest
  let d := opDesc c t a
  match grantChan c t.hdr a.chan.toNat with
  | some ch => s.submit ch d (.core (Site.no p) p.guest a.chan.toNat 0) t.slot (min d.len 262144)
  | none => s

/-- DLOAD (R310). -/
def execDload (p : Site) (h : OpHead) (a : DmaOpArgs) (s : State) : Host.Outcome State Fault Refusal :=
  .next (s.issue p h (dmaPlan s p h 0x10 a) (fun s => s.dmaSubmit p a))
/-- DSTORE (R310). -/
def execDstore (p : Site) (h : OpHead) (a : DmaOpArgs) (s : State) : Host.Outcome State Fault Refusal :=
  .next (s.issue p h (dmaPlan s p h 0x11 a) (fun s => s.dmaSubmit p a))

/-- A DMA notice at a core (R318): OK completes the oldest op on the grant; another STATUS stops its context. The abort of an
abandoned or halted slot (CAUSE 0x11, 0x12) halts nothing more. -/
def State.coreNotice (s : State) (p : Site) (v : Nat) : State :=
  let st := v % 256
  let cause := v / 256 % 256
  match (s.ctx p).awaits (v / 65536 % 64) with
  | none => s
  | some f =>
    if st = 0 then s.opDone p f
    else if st = 3 then s.routineFault p 0x0A f.off f.word
    else
      let s := s.modCtx p (fun t => { t with status := .faulted 0x0A })
      if cause = 0x11 ∨ cause = 0x12 then s else s.haltSlot (s.ctx p).slot
/-- A remote-write notice at a memory die (R318, R324): the first SEND of the channel that waits for the far end. -/
def State.dieNotice (s : State) (ch v : Nat) : State :=
  match (s.chan ch).queue.findIdx? (fun j => j.sent && j.fin.isNone) with
  | some i => s.modJob ch i (fun j => { j with fin := some (if v % 256 = 0 then (0, 0) else (0x01, 0x13)) })
  | none => s

/-- DMA_NOTICE (R318). -/
def execDmaNotice (m : Msg) (s : State) : Host.Outcome State Fault Refusal :=
  let v := (m.payload.headD 0#32).toNat
  if m.destX = 0x3F#6 ∧ m.destY = 0x3F#6 then
    if m.destDev ≠ s.modId ∨ !s.inOrder m then .next s
    else if m.hcheck ≠ headerCheck m then .next ((s.toAgents m).arrived m)
    else .next (((s.toAgents m).arrived m).dieNotice (m.arg.toNat % 4 * 32 + v / 65536 % 32) v)
  else .next (s.deliver m (fun s p => s.coreNotice p v))

end Sys2Proof.Machine
end

