-- ==== Sys2Proof/Machine/Contrib.lean ====
section
/-! DEFINITION. Contributions at the owner and at the contributor, landing credits, SEALs and the firmware epoch close (R225 to R246). -/

namespace Sys2Proof.Machine

/-- A message for the agents or the firmware of this module, in the order of its flow (R186, R235, R386): `act` takes it up; one with a bad HCHECK is discarded under
`bad` (log 36). A broadcast is for every module but its origin, which has delivered it to itself (R272). -/
def State.agentMsg (s : State) (m : Msg) (bad : Option Nat) (act : State → State) : State :=
  let away := if isBroadcast m then decide (m.srcDev = s.modId) else decide (m.destDev ≠ s.modId)
  if away || decide (m.destX ≠ 0x3F#6) || decide (m.destY ≠ 0x3F#6) || !s.inOrder m then s
  else
    let s := (s.toAgents m).arrived m
    if m.hcheck ≠ headerCheck m then (match bad with | some id => s.count (ckSlot id m.slot.toNat) | none => s)
    else act s

/-- A contribution header (R228). -/
structure ContribHdr where
  tag : Nat
  epoch : Nat
  member : Nat
  mode : Nat
  kLog2 : Nat
  nf : Bool
  ab : Bool
  tiles : Nat
  body : Nat
  gradVersion : Nat
  deriving DecidableEq, Repr
/-- Read a contribution header. -/
def parseContrib (b : List Byte) : ContribHdr :=
  let w := leAt b 8 4
  { tag := leAt b 0 4, epoch := leAt b 4 2, member := fld (leAt b 4 4) 29 16, mode := fld w 1 0, kLog2 := fld w 5 2, nf := bitOf w 6
    ab := bitOf w 7, tiles := fld w 16 8, body := leAt b 0xC 4, gradVersion := leAt b 0x10 4 }
/-- BUCKET of a tag. -/
def tagBucket (t : Nat) : Nat := t % 2 ^ 20

/-- The first check of R225 that a contribution fails, by its place in the table. -/
def State.contribCheck (s : State) (m : Msg) (h : ContribHdr) : Option Nat :=
  let x := s.slot 0
  let b := tagBucket h.tag
  let agent := m.arg.toNat % 4
  let dev := m.srcDev.toNat
  if !(decide (h.tag / 2 ^ 28 = 0) && s.ownsBucket b && (x.bucketDef b).any (fun d => decide (d.agent = agent))) then some 1
  else if !(decide (h.epoch = x.epoch.epoch) && decide (h.tag / 2 ^ 20 % 256 = (x.bkt b).openStep % 256)) then some 2
  else if !(x.isMember dev && decide ((x.role dev).1 = s.role.1) && decide ((x.role dev).2 = h.member)) then some 3
  else if x.quiesced || (x.bkt b).arrived.contains h.member ||
      x.landing.any (fun l => decide (tagBucket l.tag = b) && decide (l.member = h.member)) then some 4
  else none

/-- A COLL event that names a sender and a tag (R384). -/
def State.collEvent (s : State) (code : Nat) (dev member tag : Nat) : State :=
  s.post code .fault (some 0) (unitRef 8 0) (payload [(2, dev), (2, member), (4, tag)])

/-- Drop a contribution (R225): counted, its credit returned. -/
def State.dropContrib (s : State) (m : Msg) (h : ContribHdr) (check : Nat) : State :=
  let dev := m.srcDev.toNat
  let s := match check with
    | 1 => (s.count (ckSlot Ctr.collMisroute 0)).collEvent 0x0301 dev h.member h.tag
    | 2 => s.count (ckSlot Ctr.staleTagDrop 0)
    | 3 => (s.count (ckSlot Ctr.nonmemberDrop 0)).collEvent 0x0302 dev h.member h.tag
    | _ => s.count (ckSlot Ctr.dupDrop 0)
  s.returnCredit dev 1

/-- The address of a landing slot (R224, R236). -/
def CollRec.landAddr (c : CollRec) (agent member slot : Nat) : Nat :=
  c.base.getD agent 0 + (member * c.credits + slot) * c.slotBytes
/-- Write landed bytes at their offset; nothing passes the slot's end. -/
def State.landBytes (s : State) (l : Landing) (bs : List Byte) : State :=
  let c := (s.slot 0).coll
  let room := c.slotBytes - l.bytes
  let s := s.devWrite (c.landAddr l.agent l.member l.slot + l.bytes) (bs.take room)
  s.modSlot 0 (fun x => { x with landing := x.landing.map (fun e => if e = l then { e with bytes := e.bytes + min room bs.length } else e) })

/-- The landing that a later message of a contribution continues, or that has ended and is not yet checked. -/
def Slot.landingOf (x : Slot) (dev agent : Nat) (ended : Bool) : Option Landing :=
  x.landing.find? (fun l => decide (l.dev = dev) && decide (l.agent = agent) && l.ended == ended && !l.passed)
/-- The slot cursor of a sender moves as the sender's own does (R236): for every contribution of the epoch in force. -/
def State.landTurn (s : State) (dev agent : Nat) (h : ContribHdr) : State :=
  if h.epoch ≠ (s.slot 0).epoch.epoch then s
  else s.modSlot 0 (fun x => { x with
    landCur := SMap.modify 0 x.landCur (creditKey dev agent) (fun n => (n + 1) % max 1 x.coll.credits) })

/-- Land one message of a contribution (R225, R236, R237): the first one carries the header and meets the checks. -/
def State.landMessage (s : State) (m : Msg) : State :=
  let bs := payloadBytes m
  let agent := m.arg.toNat % 4
  let dev := m.srcDev.toNat
  let s :=
    if m.seq = 0#16 then
      let h := parseContrib bs
      match s.contribCheck m h with
      | some k => (s.landTurn dev agent h).dropContrib m h k
      | none =>
        let l : Landing :=
          { tag := h.tag, dev := dev, member := h.member, agent := agent
            slot := SMap.get 0 (s.slot 0).landCur (creditKey dev agent), bytes := 0 }
        ((s.landTurn dev agent h).modSlot 0 (fun x => { x with landing := x.landing ++ [l] })).landBytes l bs
    else match (s.slot 0).landingOf dev agent false with
      | some l => if l.bytes = m.seq.toNat * 16384 then s.landBytes l bs else s
      | none => s
  if !m.endf then s
  else
    let s := match (s.slot 0).landingOf dev agent false with
      | some l => s.modSlot 0 (fun x => { x with landing := x.landing.map (fun e => if e = l then { e with ended := true } else e) })
      | none => s
    s.writeNotice m 0

/-- CONTRIBUTION_RECEIVE (R225, R235). -/
def execContributionReceive (m : Msg) (s : State) : Host.Outcome State Fault Refusal :=
  if m.channel ≠ 0xF1#8 then .next s else .next (s.agentMsg m none (fun s => s.landMessage m))

/-- Take a landing out, its credit returned (R236). -/
def State.freeLanding (s : State) (l : Landing) : State :=
  (s.modSlot 0 (fun x => { x with landing := x.landing.erase l })).returnCredit l.dev 1
/-- Whether a landed contribution is malformed (R232); the tail's, and one with NF and no body, have none to check. -/
def malformed (rd : Nat → Byte) (h : ContribHdr) (d : BucketDef) (tail : Bool) (landed : Nat) : Bool :=
  if h.body = 0 ∧ (tail ∨ h.nf) then false
  else
    decide (h.mode ≠ d.mode) || decide (h.kLog2 ≠ d.kLog2) || decide (h.tiles ≠ d.tiles) ||
    decide (h.body ≠ Coll.bodyBytes d.mode d.kLog2 d.tiles) || decide (landed ≠ 40 + h.body) ||
    (Coll.hasTop d.mode && Coll.topBad rd d.kLog2 d.tiles)

/-- The members of the owner's group, by index (R225, R243). -/
def State.groupMembers (s : State) : List Nat := ((s.slot 0).group s.role.1).map (fun d => ((s.slot 0).role d).2)
/-- Close a bucket when every member of the group has arrived (R243). -/
def State.closeIfDone (s : State) (b : Nat) : State :=
  if s.groupMembers.all (fun i => ((s.slot 0).bkt b).arrived.contains i) then s.closeBucket b false else s

/-- Take a contribution into its bucket's sums (R232, R238, R239). -/
def State.takeContrib (s : State) (l : Landing) : State :=
  let x := s.slot 0
  let b := tagBucket l.tag
  let a := x.coll.landAddr l.agent l.member l.slot
  let h := parseContrib (s.devRead a 32)
  let body := s.devRead (a + 32) (l.bytes - 40)
  let rd : Nat → Byte := rdList body
  match x.bucketDef b with
  | none => s.freeLanding l
  | some d =>
    let bad := malformed rd h d (decide (b = tailBucket)) l.bytes
    let s := if bad then (s.count (ckSlot Ctr.collMalformed 0)).collEvent 0x0303 l.dev l.member l.tag else s
    let own := ((s.owned.find? (fun o => decide (o.1 = d.layer))).map (fun o => s.areaVersion o.2.2 (s.curArea o.2.2))).getD h.gradVersion
    let s := if b ≠ tailBucket ∧ h.gradVersion ≠ own then
        (s.count (ckSlot Ctr.collVersionSkew 0)).post 0x0305 .fault (some 0) (unitRef 8 0)
          (payload [(2, l.dev), (2, d.layer), (4, h.gradVersion), (4, own)])
      else s
    let adds := !bad && !h.nf && decide (b ≠ tailBucket)
    let s := s.modSlot 0 (fun x =>
      let k := x.bkt b
      { x with bkts := SMap.set {} x.bkts b { k with
          arrived := k.arrived ++ [l.member], nf := k.nf || h.nf || bad, ab := k.ab || h.ab
          acc := if adds then Coll.addInto 0 (Coll.decode rd d.mode d.kLog2 d.tiles) k.acc else k.acc } })
    (s.freeLanding l).closeIfDone b

/-- The order in which a bucket is summed in replay mode (R239): the record's, or none in a repair whose copy is missing (R401). -/
def State.replayOrder (s : State) (b : Nat) : Option (List Nat) :=
  match (s.slot 0).run with
  | none => none
  | some r =>
    if !r.replay then none
    else if r.repair then
      let copies := ((s.slot 0).layout.filter (fun e => decide (e.1 = 10))).map (fun e => e.2.2.2)
      let recs := copies.map (fun a => s.devRead (a + 32) (s.devLE (a + 32 + 0x2C) 4))
      (recs.find? (fun b => decide (leAt b 0 4 = r.step))).bind (fun c => recOrder c b)
    else (s.journalRecord 0 r.step).bind (fun c => recOrder c b)
/-- The landed contributions of a bucket that wait to be summed, in arrival order. -/
def Slot.waitingFor (x : Slot) (b : Nat) : List Landing := x.landing.filter (fun l => l.passed && decide (tagBucket l.tag = b))
/-- The contribution that a bucket sums next (R238, R239): the first to have arrived, or in replay the one whose recorded turn it is. -/
def State.turnOf (s : State) (b : Nat) : Option Landing :=
  let x := s.slot 0
  match s.replayOrder b with
  | none => (x.waitingFor b).head?
  | some l => (x.waitingFor b).find? (fun e => decide (l[(x.bkt b).arrived.length]? = some e.member))
/-- The buckets of an agent whose accumulator buffer is open (R238). -/
def Slot.buffers (x : Slot) (agent : Nat) : List Nat :=
  (x.bkts.filter (fun e => e.2.buf && (x.bucketDef e.1).any (fun d => decide (d.agent = agent)))).map (fun e => e.1)
/-- The bucket that an agent opens a buffer for (R238): the lowest-numbered one that has a landed contribution and no buffer, while fewer than
two are open. The tail bucket has no elements and needs none. -/
def Slot.bufferNext (x : Slot) (agent : Nat) : Option Nat :=
  if 2 ≤ (x.buffers agent).length then none
  else ((x.landing.filter (fun l => l.passed && decide (l.agent = agent))).map (fun l => tagBucket l.tag)).foldl (fun b n =>
    if n = tailBucket || (x.bkt n).buf then b else some (min n (b.getD n))) none
/-- The contribution that an agent sums next: the turn of a bucket that has its buffer. -/
def State.sumNext (s : State) (agent : Nat) : Option Landing :=
  (s.slot 0).landing.find? (fun l => l.passed && decide (l.agent = agent) &&
    (decide (tagBucket l.tag = tailBucket) || ((s.slot 0).bkt (tagBucket l.tag)).buf) && decide (s.turnOf (tagBucket l.tag) = some l))
/-- What an agent does with its landed contributions (R238): it opens buffers and sums, until it waits for a contribution. -/
def State.runAgent (s : State) (agent : Nat) : (fuel : Nat) → State
  | 0 => s
  | n + 1 => match (s.slot 0).bufferNext agent, s.sumNext agent with
    | some b, _ => (s.modSlot 0 (fun x => { x with bkts := SMap.modify {} x.bkts b (fun k => { k with buf := true }) })).runAgent agent n
    | none, some l => (s.takeContrib l).runAgent agent n
    | none, none => s

/-- A landed contribution fails its CRC (R237): resent once under its key, else the step is abandoned. -/
def State.crcFail (s : State) (l : Landing) : State :=
  let x := s.slot 0
  let b := tagBucket l.tag
  let key := (l.member, (x.bkt b).openStep, x.epoch.epoch)
  let s := s.freeLanding l
  if (x.bkt b).notes.contains key then
    let s := (s.count (ckSlot Ctr.collCrcPersist 0)).post 0x0304 .absorbed (some 0) (unitRef 8 0)
      (payload [(2, l.dev), (2, s.modId.toNat), (4, l.tag)])
    s.epochClose 4
  else
    let s := s.modSlot 0 (fun x => { x with bkts := SMap.modify {} x.bkts b (fun k => { k with notes := k.notes ++ [key] }) })
    (s.count (ckSlot Ctr.collCrcFail 0)).inject (collCtrl s l.dev 4 0 [BitVec.ofNat 32 l.tag])

/-- The landed contribution of a sender that END has closed (R237): once its CRC passes it has its arrival position, and the agent goes on
(R238). -/
def State.contribEnd (s : State) (dev agent : Nat) : State :=
  match (s.slot 0).landingOf dev agent true with
  | none => s
  | some l =>
    let a := (s.slot 0).coll.landAddr l.agent l.member l.slot
    let n := l.bytes - 8
    if decide (l.bytes < 40) || decide (s.devLE (a + n) 4 ≠ (crc32c (s.devRead a n)).toNat) then s.crcFail l
    else
      let s := s.modSlot 0 (fun x => { x with landing := x.landing.erase l ++ [{ l with passed := true }] })
      s.runAgent agent (2 * (s.slot 0).landing.length + 1)
/-- CONTRIBUTION_END (R237, R238, R243). -/
def execContributionEnd (dev : BitVec 14) (agent : Fin 4) (s : State) : Host.Outcome State Fault Refusal :=
  .next (s.contribEnd dev.toNat agent.val)

/-- The operation of a COLL_CTRL message (R235). -/
def collOp (m : Msg) : Nat := m.arg.toNat % 16
/-- Resend a contribution from its compression buffer (R237), the layout's buffer that begins with its tag; it needs a landing credit, for
which it waits. -/
def State.resendContrib (s : State) (dev tag : Nat) : State :=
  let x := s.slot 0
  match ((x.layout.filter (fun e => decide (e.1 = 12))).map (fun e => e.2.2.2)).find? (fun a => decide (s.devLE a 4 = tag)),
      x.bucketDef (tagBucket tag) with
  | some a, some d =>
    if x.creditFree dev d.agent then
      let bs := x.formHeader (s.devRead a (32 + s.devLE (a + 0xC) 4))
      (messagesOf (fun i last pl => { devMsg s dev 0xF1 1 6 0 d.agent pl with
        seq := BitVec.ofNat 16 i, endf := last, nf := (parseContrib bs).nf, rsd := true }) bs).foldl State.inject
          (s.modSlot 0 (fun x => x.takeCredit dev d.agent))
    else s.modSlot 0 (fun x => { x with resends := x.resends ++ [(dev, tag)] })
  | _, _ => s
/-- LAND_CREDIT (R236): credits come back to the contributor's memory die `agent` (log 35), and resends that wait go on. -/
def execLandCredit (agent : Fin 4) (m : Msg) (s : State) : Host.Outcome State Fault Refusal :=
  if m.channel ≠ 0xF0#8 ∨ collOp m ≠ 0 then .next s
  else .next (s.agentMsg m none (fun s =>
    let s := s.modSlot m.slot.toNat (fun x => { x with
      spent := SMap.modify 0 x.spent (creditKey m.srcDev.toNat agent.val) (fun n => n - m.arg.toNat / 16) })
    (s.slot 0).resends.foldl (fun (s : State) e => s.resendContrib e.1 e.2) (s.modSlot 0 (fun x => { x with resends := [] }))))
/-- CONTRIB_RESEND (R237). -/
def execContribResend (m : Msg) (s : State) : Host.Outcome State Fault Refusal :=
  if m.channel ≠ 0xF0#8 ∨ collOp m ≠ 4 then .next s else .next (s.agentMsg m none (fun s =>
    s.resendContrib m.srcDev.toNat (m.payload.headD 0#32).toNat))

/-- Whether this module may send its SEAL (R245): its owned buckets have closed and its tail has been sent. -/
def State.sealDue (s : State) : Bool :=
  let x := s.slot 0
  x.inStep && x.tailSent && !x.sealSent && s.ownedBuckets.all (fun b => !x.bktOpen b)
/-- SEAL_SEND (R245). -/
def execSealSend (s : State) : Host.Outcome State Fault Refusal :=
  let x := s.slot 0
  if !s.sealDue then .next s
  else .next (s.sendSeal (x.closedWith 30) (x.closedWith 31))

/-- Take a SEAL (R245, R246, R390): one of another epoch or step is dropped; AB makes an AB close here first. -/
def State.takeSeal (s : State) (m : Msg) : State :=
  let x := s.slot 0
  let w (i : Nat) : Nat := (m.payload.getD i 0#32).toNat
  if decide (w 0 ≠ x.step.toNat) || decide (w 1 % 65536 ≠ x.epoch.epoch) || !x.hasEpoch then s.count (ckSlot Ctr.staleTagDrop 0)
  else
    let s := if bitOf (w 1) 17 then s.epochClose 8 else s
    s.recordSeal m.srcDev.toNat (bitOf (w 1) 16) (bitOf (w 1) 17)
/-- SEAL (R245). -/
def execSeal (m : Msg) (s : State) : Host.Outcome State Fault Refusal :=
  if m.channel ≠ 0xF0#8 ∨ collOp m ≠ 1 then .next s else .next (s.agentMsg m none (fun s => s.takeSeal m))

/-- FIRMWARE_EPOCH_CLOSE (R246, R388). -/
def execFirmwareEpochClose (cause : BitVec 8) (s : State) : Host.Outcome State Fault Refusal := .next (s.epochClose cause.toNat)

end Sys2Proof.Machine
end

