-- ==== Sys2Proof/Machine/Gather.lean ====
section
/-! DEFINITION. The parameter gather (R247 to R251, R322): requests, serving, reception and backward releases. -/

namespace Sys2Proof.Machine

/-- Ask the next member of this module's node (R401). -/
def State.askNext (s : State) (g : GatherReq) : State :=
  let x := s.slot 0
  let n := x.coll.nodeN
  let me := s.modId.toNat
  match (x.group s.role.1).find? (fun d => decide (nodeOf n d = nodeOf n me) && decide (nodePos n d = (nodePos n me + 1) % max 1 n)) with
  | some d => (s.modSlot 0 (fun x => { x with greqs := x.greqs ++ [{ g with dev := d }] })).inject (collCtrl s d 2 0 (gatherReqWords g))
  | none => s
/-- The gathers of a step at its release (R23, R247): every entry of another owner that does not hold the wanted version; a row coding's
is that of the last commit before the step, a column coding's the step. In a repair nobody asks for a replaced shard: its spare takes it
from the next member of its node (R401). -/
def State.askGathers (s : State) (r : Run) : State :=
  let x := s.slot 0
  let step := r.step
  let lost : Option Nat := if r.repair then (x.stand.getLast?).map (fun e => (x.role e.2).2) else none
  (List.range x.gathers).foldl (fun (s : State) i =>
    let a := x.gatherBase + 32 * i
    let layer := s.devLE a 2
    let shard := s.devLE (a + 2) 2
    let coding := s.devLE (a + 4) 4 % 2
    let want := if coding = 1 then step else x.versionFor step
    if lost = some shard && r.owner then s.askNext { layer := layer, shard := shard, coding := coding, version := want, refetch := false, dev := 0 }
    else if decide (shard = s.role.2) || decide (lost = some shard) || (bitOf (s.devLE (a + 4) 4) 1 && decide (s.devLE (a + 0x18) 4 = want) && !x.gone.contains (layer, shard, coding)) then s
    else s.askGather { layer := layer, shard := shard, coding := coding, version := want, refetch := false, dev := 0 }) s

/-- GATHER_REQ (R248): the request waits to be served. -/
def execGatherReq (m : Msg) (s : State) : Host.Outcome State Fault Refusal :=
  if m.channel ≠ 0xF0#8 ∨ collOp m ≠ 2 then .next s
  else .next (s.agentMsg m none (fun s =>
    let w (i : Nat) : Nat := (m.payload.getD i 0#32).toNat
    s.modSlot 0 (fun x => { x with gpend := x.gpend ++ [{
      layer := w 0 % 65536, shard := w 0 / 65536, coding := w 1 % 2, version := w 2, refetch := bitOf (w 1) 1, dev := m.srcDev.toNat }] })))

/-- What a module can do with a request (R248): wait, answer that the version is not held, or send version and body. -/
inductive GatherAns where
  | wait | none | body (version : Nat) (bytes : List Byte)
  deriving DecidableEq, Repr

/-- What the owner of a shard answers (R167, R248, R397): a version from the area that holds it, once it is last committed. -/
def State.ownerAnswer (s : State) (g : GatherReq) (hdr : Nat) : GatherAns :=
  let x := s.slot 0
  let cur := s.curArea hdr
  let n := s.shardElems hdr
  let row (a : Nat) : List Byte := s.rowCoding (x.item (3 + a) g.layer g.shard) n (s.excCap hdr)
  let any := decide (g.version = 0xFFFFFFFF)
  if g.coding = 0 then
    let v := if any then s.areaVersion hdr cur else g.version
    if s.areaVersion hdr cur < v then .wait
    else if s.areaVersion hdr cur = v then (if v ≤ x.committed then .body v (row cur) else .wait)
    else if s.areaVersion hdr (1 - cur) = v then .body v (row (1 - cur))
    else .none
  else
    let v := if any then x.decided + 1 else g.version
    if x.decided + 1 < v then .wait
    else if v = x.decided + 1 ∧ x.committed < x.decided then .wait
    else if v = x.decided + 1 ∨ v = x.decided then
      let a := x.item (5 + v % 2) g.layer g.shard
      .body v (s.devRead a (s.columnBytes a n))
    else .none
/-- What another module of the node answers from its own copy (R248). -/
def State.copyAnswer (s : State) (g : GatherReq) : GatherAns :=
  match s.gatherEntry g.layer g.shard g.coding with
  | none => .none
  | some a =>
    let v := s.devLE (a + 0x18) 4
    let valid := bitOf (s.devLE (a + 4) 4) 1
    if valid && (decide (g.version = 0xFFFFFFFF) || decide (v = g.version)) then
      .body v (s.devRead (s.devLE (a + 8) 8) (SMap.get 0 (s.slot 0).glens (gatherKey g.layer g.shard g.coding)))
    else if valid && decide (g.version < v) then .none
    else .wait
/-- What this module answers. -/
def State.gatherAnswer (s : State) (g : GatherReq) : GatherAns :=
  match s.owned.find? (fun o => decide (o.1 = g.layer) && decide (o.2.1 = g.shard)) with
  | some o => s.ownerAnswer g o.2.2
  | none => s.copyAnswer g
/-- The gather header (R248). -/
def gatherHeader (g : GatherReq) (version crc bytes : Nat) : List Byte :=
  leBytes 4 (g.layer + g.shard * 65536) ++ leBytes 4 g.coding ++ leBytes 4 version ++ leBytes 4 crc ++ leBytes 8 bytes ++ leBytes 8 0
/-- SRC_CRC of a version (R248): the one noted when it was first read, or its CRC now, which is noted. -/
def State.srcCrcOf (s : State) (g : GatherReq) (version : Nat) (body : List Byte) : State × Nat :=
  let x := s.slot 0
  match x.srcCrc.find? (fun e => decide (e.1 = g.layer) && decide (e.2.1 = g.shard) && decide (e.2.2.1 = g.coding) && decide (e.2.2.2.1 = version)) with
  | some e => (s, e.2.2.2.2)
  | none =>
    let c := (crc32c body).toNat
    (s.modSlot 0 (fun x => { x with srcCrc := x.srcCrc ++ [(g.layer, g.shard, g.coding, version, c)] }), c)
/-- Send a gather transfer (R247, R315): COLL_DATA on channel 0xF2, class COLL. -/
def State.sendGather (s : State) (g : GatherReq) (bs : List Byte) : State :=
  (messagesOf (fun i last pl => { devMsg s g.dev 0xF2 1 6 0 ((g.layer + g.shard) % 4) pl with seq := BitVec.ofNat 16 i, endf := last }) bs).foldl
    State.inject s
/-- Serve one request. -/
def State.serveGather (s : State) (g : GatherReq) : State :=
  let s' := s.modSlot 0 (fun x => { x with gpend := x.gpend.erase g })
  match s.gatherAnswer g with
  | .wait => s
  | .none => (s'.count (ckSlot Ctr.gatherNoversion 0)).sendGather g (gatherHeader g 0xFFFFFFFF 0 0)
  | .body v body =>
    let r := s'.srcCrcOf g v body
    r.1.sendGather g (gatherHeader g v r.2 body.length ++ body)
/-- GATHER_SERVE (R248): the oldest request that need not wait. -/
def execGatherServe (s : State) : Host.Outcome State Fault Refusal :=
  match (s.slot 0).gpend.find? (fun g => decide (s.gatherAnswer g ≠ .wait)) with
  | some g => .next (s.serveGather g)
  | none => .next s

/-- A gather fails (R249, R251). A first gather is asked for once more with REFETCH; a re-gather is asked for again on the normal path,
then from the owner, and then the step is abandoned. -/
def State.gatherFails (s : State) (g : GatherReq) (a : Option Nat) (foundVer foundCrc : Nat) : State :=
  let s := s.modSlot 0 (fun x => { x with greqs := x.greqs.erase g })
  if g.regather then
    if g.tries = 0 then (s.count (ckSlot Ctr.shardChanged 0)).askGather { g with tries := 1, refetch := false }
    else if g.tries = 1 then s.askGather { g with tries := 2, refetch := true }
    else
      let s := s.count (ckSlot Ctr.shardChangedFail 0)
      let recCrc := (a.map (fun a => s.devLE (a + 0x1C) 4)).getD 0
      let s := s.post 0x0701 .reconcile (some 0) (unitRef 8 0)
        (payload [(1, 2), (2, g.layer), (2, g.shard), (4, g.version), (4, foundVer), (4, recCrc), (4, foundCrc)])
      s.epochClose 6
  else if g.tries = 0 then (s.count (ckSlot Ctr.gatherRetry 0)).askGather { g with tries := 1, refetch := true }
  else (s.count (ckSlot Ctr.gatherFail 0)).epochClose 5

/-- The request that a transfer answers; one that nothing asked for is a re-gather of the recorded version (R251). -/
def State.gatherReqOf (s : State) (h : List Byte) (dev : Nat) : GatherReq :=
  let layer := leAt h 0 2
  let shard := leAt h 2 2
  let coding := leAt h 4 4 % 2
  match (s.slot 0).greqs.find? (fun g => decide (g.layer = layer) && decide (g.shard = shard) && decide (g.coding = coding)) with
  | some g => g
  | none =>
    let v := ((s.gatherEntry layer shard coding).map (fun a => s.devLE (a + 0x18) 4)).getD 0
    { layer := layer, shard := shard, coding := coding, version := v, refetch := false, dev := dev, regather := true }

/-- END of a gather transfer (R249, R251, R322). -/
def State.gatherEnd (s : State) (dev : Nat) (h : List Byte) (landed trailer : Nat) : State :=
  let g := s.gatherReqOf h dev
  let entry := s.gatherEntry g.layer g.shard g.coding
  let ver := leAt h 8 4
  let n := leAt h 0x10 8
  match entry with
  | none => s.gatherFails g none ver 0
  | some a =>
    let body := s.devRead (s.devLE (a + 8) 8) n
    let crc := (crc32c body).toNat
    let same := !g.regather || decide (crc = s.devLE (a + 0x1C) 4)
    if decide (n ≤ s.devLE (a + 0x10) 8) && decide (landed = n) && decide (trailer = (crc32c (h ++ body)).toNat) &&
        decide (crc = leAt h 0xC 4) && (decide (ver = g.version) || (decide (g.version = 0xFFFFFFFF) && decide (ver ≠ g.version))) && same then
      let s := ((s.devWrite (a + 0x18) (leBytes 4 ver)).devWrite (a + 0x1C) (leBytes 4 crc)).devWrite (a + 4) (leBytes 4 (g.coding + 2))
      s.modSlot 0 (fun x => { x with greqs := x.greqs.erase g, glens := SMap.set 0 x.glens (gatherKey g.layer g.shard g.coding) n })
    else s.gatherFails g (some a) ver crc

/-- The key under which the header of a gather transfer is kept: source and agent. -/
def gatherSrc (m : Msg) : Nat := m.srcDev.toNat * 4 + m.arg.toNat % 4
/-- The body bytes of a message of a gather transfer: without the header of the first one and the trailer of the last (R248, R315). -/
def gatherData (m : Msg) : List Byte :=
  let bs := payloadBytes m
  let data := if m.endf then bs.take (bs.length - 8) else bs
  if m.seq = 0#16 then data.drop 32 else data
/-- The place of a message's bytes in the body. -/
def gatherAt (m : Msg) : Nat := if m.seq.toNat * 16384 = 0 then 0 else m.seq.toNat * 16384 - 32

/-- The gathered copies, by key, whose bytes lie in a range that the transfer into entry `a` writes (R251). -/
def State.overwritten (s : State) (a n : Nat) : List (Nat × Nat × Nat) :=
  let x := s.slot 0
  ((List.range x.gathers).map (fun i => x.gatherBase + 32 * i)).filterMap (fun e =>
    let k := (s.devLE e 2, s.devLE (e + 2) 2, s.devLE (e + 4) 4 % 2)
    if e ≠ a ∧ bitOf (s.devLE (e + 4) 4) 1 ∧
        rangesMeet (s.devLE (a + 8) 8) n (s.devLE (e + 8) 8) (SMap.get 0 x.glens (gatherKey k.1 k.2.1 k.2.2)) then some k else none)
/-- The bytes of one message land (R322): the header finds the entry, whose VALID clears before a byte is written. -/
def State.gatherLand (s : State) (m : Msg) : State :=
  let s :=
    if m.seq = 0#16 then
      let h := (payloadBytes m).take 32
      let s := s.modSlot 0 (fun x => { x with ghdr := SMap.set [] x.ghdr (gatherSrc m) h })
      match s.gatherEntry (leAt h 0 2) (leAt h 2 2) (leAt h 4 4 % 2) with
      | some a =>
        let lost := s.overwritten a (leAt h 0x10 8)
        (s.modSlot 0 (fun x => { x with gone := (x.gone.filter (fun e => decide (e ≠ (leAt h 0 2, leAt h 2 2, leAt h 4 4 % 2))) ++ lost).eraseDups })).devWrite
          (a + 4) (leBytes 4 (leAt h 4 4 % 2))
      | none => s
    else s
  let h := SMap.get [] (s.slot 0).ghdr (gatherSrc m)
  match s.gatherEntry (leAt h 0 2) (leAt h 2 2) (leAt h 4 4 % 2) with
  | some a => s.devWrite (s.devLE (a + 8) 8 + gatherAt m) ((gatherData m).take (s.devLE (a + 0x10) 8 - gatherAt m))
  | none => s
/-- One message of a gather transfer (R322); the last one ends it. -/
def State.gatherMessage (s : State) (m : Msg) : State :=
  let s := s.gatherLand m
  let bs := payloadBytes m
  if !m.endf then s
  else (s.gatherEnd m.srcDev.toNat (SMap.get [] (s.slot 0).ghdr (gatherSrc m)) (gatherAt m + (gatherData m).length)
    (leNat ((bs.drop (bs.length - 8)).take 4))).writeNotice m 0
/-- GATHER_RECEIVE (R249, R322). -/
def execGatherReceive (m : Msg) (s : State) : Host.Outcome State Fault Refusal :=
  if m.channel ≠ 0xF2#8 then .next s else .next (s.agentMsg m none (fun s => s.gatherMessage m))

/-- Whether a version's area has been released by every member (R167, R250). -/
def State.areaReleased (s : State) (version : Nat) : Bool :=
  ((s.slot 0).group s.role.1).all (fun d => (s.slot 0).releases.contains (version, d))
/-- Count a backward release (R250); its payload begins with the version (log 54). -/
def State.bwdRelease (s : State) (m : Msg) : State :=
  let x := s.slot 0
  let v := (m.payload.headD 0#32).toNat
  let dev := m.srcDev.toNat
  let held := s.owned.any (fun o => decide (s.areaVersion o.2.2 0 = v) || decide (s.areaVersion o.2.2 1 = v))
  if !(x.isMember dev && decide ((x.role dev).1 = s.role.1) && held) then s.count (ckSlot Ctr.staleTagDrop 0)
  else if x.releases.contains (v, dev) then s
  else s.modSlot 0 (fun x => { x with releases := x.releases ++ [(v, dev)] })
/-- BWD_RELEASE (R250). -/
def execBwdRelease (m : Msg) (s : State) : Host.Outcome State Fault Refusal :=
  if m.channel ≠ 0xF0#8 ∨ collOp m ≠ 3 then .next s else .next (s.agentMsg m none (fun s => s.bwdRelease m))

end Sys2Proof.Machine
end

