-- ==== Sys2Proof/Machine/StepOps.lean ====
section
/-! DEFINITION. The UPDATE and the commit of a shard (R151 to R168) and the mirror (R395, R396). -/

namespace Sys2Proof.Machine

/-- The key of an update counter of a tensor, at its updater core (R170). -/
def ckTensor (id core layer : Nat) : CKey := { id := id, slot := some 0, core := some core, layer := some layer }
/-- The core that a plan names. -/
def planSite (w : UpdPlan) : Site := { x := w.x, y := w.y, guest := false }
/-- The update record of a tensor in a step's table (R154): its entry in LAYER order. -/
def State.updRec (s : State) (r : Run) (layer : Nat) : UpdRec :=
  Upd.parse ((r.upd.drop (64 * tensorIndex (s.slot 0).image layer)).take 64)
/-- What the updater routines of a tensor shard name: as its last UPDATE had it, else as the image has it (log 14). -/
def State.planFor (s : State) (layer shard : Nat) : UpdPlan :=
  (((s.slot 0).plans.find? (fun e => decide (e.1 = layer) && decide (e.2.1 = shard))).map (fun e => e.2.2)).getD
    (Config.updPlan (s.slot 0).image layer shard)

/-- The counters that an UPDATE leaves (R170). -/
def State.countUpdate (s : State) (w : UpdPlan) (layer n : Nat) (u : UpdStats) : State :=
  s.countAll (fun id => ckTensor id (Site.no (planSite w)) layer)
    [(Ctr.updElements, n - u.frozen), (Ctr.updFrozen, u.frozen), (Ctr.updLost, u.lost), (Ctr.resSat, u.sat), (Ctr.scaleStepUp, u.up),
     (Ctr.scaleStepDown, u.down), (Ctr.scaleExcOvf, u.excOvf)]
/-- The pinwheel windows of `n` elements rotated under ROT_N (R84). -/
def windowsOf (rotN n : Nat) : Nat := if rotN = 0 then 0 else n / Rot.winLen rotN
/-- The reports of malformed tiles that the updater core read (R46), `addr` being the row coding's place. -/
def State.reportBlocks (s : State) (w : UpdPlan) (addr : Nat) (seqs : List Nat) : State :=
  let p := (planSite w)
  let d := Coding.parseDesc w.rowDesc
  seqs.foldl (fun (s : State) q => s.post 0x0101 .fault (some 0) (unitRef 0 (coreRef (Site.no p)))
    (payload [(8, addr), (2, q), (2, coreRef (Site.no p))])) (s.count (ckLayer Ctr.codingMalformed p d.layer d.axis) seqs.length)
/-- What the QUANT and PINWHEEL ops of an UPDATE leave in the updater core's main context (R36, R75, R84, R90, R161, R164, R226); `rows` says
that it coded the rows. -/
def State.countCodings (s : State) (w : UpdPlan) (n : Nat) (u : UpdStats) (rows : Bool) : State :=
  let p := (planSite w)
  let d := Coding.parseDesc w.rowDesc
  let c := Coding.parseDesc w.colDesc
  let qr := Quant.parseRec w.rowRec
  let qc := Quant.parseRec w.colRec
  let s := s.modSlot 0 (fun x =>
    let m := if rows then SMap.set 0 x.qpol qr.layer (qr.zeroPolicy + qr.satPolicy * 4) else x.qpol
    { x with nf := x.nf || u.nonfin, qpol := SMap.set 0 m qc.layer (qc.zeroPolicy + qc.satPolicy * 4) })
  let s := s.countAll (fun id => { ckCtx id p with layer := some qr.layer }) u.rowCounts
  let s := s.countAll (fun id => { ckCtx id p with layer := some qc.layer }) u.colCounts
  let s := if rows then s.countAll (fun id => ckLayer id p d.layer 0) [(Ctr.pinwheelWindows, windowsOf d.rotN n), (Ctr.pinwheelOvf, u.rowOvf)]
    else s
  s.countAll (fun id => ckLayer id p c.layer 1) [(Ctr.pinwheelWindows, windowsOf c.rotN n), (Ctr.pinwheelOvf, u.colOvf)]
/-- The update-to-weight watch (R168). -/
def State.watch (s : State) (r : UpdRec) (layer : Nat) (u : UpdStats) : State :=
  let q := Upd.uwRatio u.sumDelta u.sumOld
  if Upd.outOfBand r q then
    s.post 0x0108 .info (some 0) (unitRef 8 0) (payload [(2, layer), (2, 0), (4, u.sumDelta.toNat), (4, u.sumOld.toNat), (4, q.toNat)])
  else s

/-- Write a shard header at a commit (R153, R166): the area's VERSION, exception count, K_L, LOST and SAT, and CUR last. -/
def State.writeHeader (s : State) (hdr area step kNext : Nat) (u : UpdStats) : State :=
  let s := s.devWrite (hdr + 4 + 4 * area) (leBytes 4 step)
  let s := s.devWrite (hdr + 0x20 + 4 * area) (leBytes 4 u.exc.toNat)
  let s := s.devWrite (hdr + 0xC) (leBytes 4 kNext)
  let s := s.devWrite (hdr + 0x18) (leBytes 4 (min u.lost (2 ^ 32 - 1)))
  let s := s.devWrite (hdr + 0x1C) (leBytes 4 (min u.sat (2 ^ 32 - 1)))
  s.devWrite hdr (leBytes 4 area)

/-- Whether a layer needs its wide copy (R165): shadow-play, or wide mode in force or pinned for a product. -/
def needsWide (e : Word) : Bool := decide (fld e.toNat 11 10 ≠ 0) || decide (fld e.toNat 5 0 ≠ 0)
/-- The gradient of a shard in row-coding order (R156, R223): each tile from the accumulator of the bucket that holds it. -/
def State.shardGrads (s : State) (layer shard firstTile tiles : Nat) : List Word :=
  ((List.range tiles).map (fun t =>
    let n := firstTile + t
    match (s.slot 0).buckets.find? (fun d => decide (d.layer = layer) && decide (d.shard = shard) && decide (d.firstTile ≤ n) &&
        decide (n < d.firstTile + d.tiles)) with
    | some d => wordsOf (s.devRead (d.acc + (n - d.firstTile) * 16384) 16384)
    | none => List.replicate 4096 0#32)).flatten
/-- The scale exception list of an area (R160) at an address: ordinals and learned words. -/
def State.excList (s : State) (a n : Nat) : List (Nat × Nat) :=
  (List.range n).map (fun i => (s.devLE (a + 8 * i) 4, s.devLE (a + 8 * i + 4) 2))
/-- K_L in force for a step (R162): the header's; in a diagnostic replay the journal record's (R408). -/
def State.stepGain (s : State) (r : Run) (layer shard hdr : Nat) : Nat :=
  let k := s.devLE (hdr + 0xC) 4 % 8
  if r.diag then
    (((s.journalRecord 0 r.step).bind (fun b => (recTensors b).find? (fun e => decide (leAt e 0 2 = layer) && decide (leAt e 2 2 = shard)))).map
      (fun e => leAt e 4 4 % 8)).getD k
  else k
/-- The gain under which the residuals of an area were written (R151, R161): the one noted, else the header's. -/
def State.areaGain (s : State) (layer shard hdr area : Nat) : Nat :=
  match SMap.get 0 (s.slot 0).gains (2 * shardKey layer shard + area) with
  | 0 => s.devLE (hdr + 0xC) 4 % 8
  | k + 1 => k
/-- The area that an UPDATE reads (R167, R381): the current one; a diagnostic replay reads the held area, and writes it too. -/
def State.sourceArea (s : State) (r : Run) (hdr : Nat) : Nat := if r.diag then 1 - s.curArea hdr else s.curArea hdr
/-- What the UPDATE of a shard reads (R153, R154, R156, R160). -/
def State.updIn (s : State) (r : Run) (layer shard hdr : Nat) (w : UpdPlan) : UpdIn :=
  let src := s.sourceArea r hdr
  let base := (s.slot 0).item (3 + src) layer shard
  let cols := (Coding.parseDesc w.rowDesc).cols
  let first := s.devLE (hdr + 0x2C) 4
  let n := s.shardElems hdr
  { rec' := s.updRec r layer, plan := w, lib := libraryBytes (s.slot 0).base 0 w.lib.toNat, seed := (s.slot 0).seed, step := r.step
    layer := layer, kOld := s.areaGain layer shard hdr src, k := s.stepGain r layer shard hdr, elems := n, firstTrow := first
    excCap := s.excCap hdr, exc := s.excList (base + Upd.excAt n) (s.excCount hdr src)
    grads := s.shardGrads layer shard (first * (cols / 64)) (n / 4096) }
/-- The UPDATE of a shard (R151 to R165), or, after a SKIP, its column coding alone (R166). -/
def State.update (s : State) (r : Run) (layer shard hdr : Nat) (w : UpdPlan) (skip : Bool) : Upd.Out :=
  let rd := s.devFrom ((s.slot 0).item (3 + s.sourceArea r hdr) layer shard)
  let i := s.updIn r layer shard hdr w
  if skip then Upd.skipped i rd else Upd.shard i (needsWide (SMap.get 0x200#32 (s.slot 0).modes layer)) rd
/-- Write what an UPDATE formed (R153, R166, R167): the non-current area, and the column area of the next step; a diagnostic replay writes
only into the held area (R381). -/
def State.writeUpdate (s : State) (r : Run) (layer shard hdr : Nat) (o : Upd.Out) : State :=
  let x := s.slot 0
  let put (base : Nat) (s : State) (l : List (Nat × List Byte)) : State :=
    l.foldl (fun s e => (s.devWrite (base + e.1) e.2).chargeBulk (base + e.1) e.2.length true) s
  let s := put (x.item (3 + (1 - s.curArea hdr)) layer shard) s o.area
  if r.diag then s else put (x.item (5 + (r.step + 1) % 2) layer shard) s o.column
/-- Whether every consumer of a version has returned its backward-release token (R167, R250): every member, where a step read it. -/
def State.versionFree (s : State) (v : Nat) : Bool := s.areaReleased v || !(s.slot 0).used.any (fun e => decide (e.2 = v))
/-- Whether an UPDATE may write a shard's non-current area (R167): its version's consumers have released it, or the step before was skipped,
and no rollback of another step holds it; a diagnostic replay writes the area that is held for it. -/
def State.areaFree (s : State) (r : Run) (hdr : Nat) : Bool :=
  let cur := s.curArea hdr
  r.diag || ((decide (s.areaVersion hdr cur + 1 < r.step) || s.versionFree (s.areaVersion hdr (1 - cur))) &&
    (s.slot 0).rollback.all (fun h => decide (h = r.step)))
/-- Whether the column area of the next step may be written (R167): the consumers of the step before, which read it, have released the
version that they name. -/
def State.columnFree (s : State) (r : Run) : Bool :=
  r.diag || ((s.slot 0).used.find? (fun e => decide (e.1 + 1 = r.step))).all (fun e => s.areaReleased e.2)
/-- Whether an updater waits for its areas (R167): after a SKIP it writes the column area alone. -/
def State.areaWaits (s : State) (r : Run) (hdr : Nat) : Bool :=
  !(s.columnFree r && (decide ((s.slot 0).decision = some 1) || s.areaFree r hdr))
/-- Whether a commit of a shard has nothing to do: no decision that an updater acts on, not an updater of the step, done already, or a repair
of a shard that holds the step (R401). -/
def State.commitIdle (s : State) (r : Run) (layer shard hdr : Nat) : Bool :=
  let x := s.slot 0
  !(decide (x.decision = some 0) || (decide (x.decision = some 1) && !r.diag)) || !r.owner ||
    x.updDone.any (fun d => decide (d.layer = layer) && decide (d.shard = shard)) ||
    (r.repair && decide (s.areaVersion hdr (s.curArea hdr) = r.step))
/-- Note that a shard is done: what its routines named, the gain of the area written, its wide copy, and its tensor entry. -/
def Slot.noteShard (x : Slot) (w : UpdPlan) (d : ShardDone) (area : Option Nat) (wides : List Nat) : Slot :=
  { x with
    plans := x.plans.filter (fun e => !(decide (e.1 = d.layer) && decide (e.2.1 = d.shard))) ++ [(d.layer, d.shard, w)]
    gains := match area with
      | some a => SMap.set 0 x.gains (2 * shardKey d.layer d.shard + a) (d.k + 1)
      | none => x.gains
    wides := wides, updDone := x.updDone ++ [d] }
/-- After a SKIP (R88, R164, R166): the column coding of the next step is formed from the current row coding, and nothing else changes. -/
def State.shardSkip (s : State) (r : Run) (layer shard hdr : Nat) (w : UpdPlan) : State :=
  let x := s.slot 0
  let out := s.update r layer shard hdr w true
  let k := s.devLE (hdr + 0xC) 4 % 8
  let s := (s.writeUpdate r layer shard hdr out).countCodings w (s.shardElems hdr) out.stats false
  let s := s.reportBlocks w (x.item (3 + s.curArea hdr) layer shard) out.stats.malformed
  s.modSlot 0 (fun x => x.noteShard w { layer := layer, shard := shard, k := k, kNext := k, frozen := 0 } none x.wides)
/-- Update and commit a shard (R161, R166); a diagnostic replay leaves the header alone (R381). -/
def State.shardUpdate (s : State) (r : Run) (layer shard hdr : Nat) (w : UpdPlan) : State :=
  let x := s.slot 0
  let n := s.shardElems hdr
  let k := s.stepGain r layer shard hdr
  let src := x.item (3 + s.sourceArea r hdr) layer shard
  let out := s.update r layer shard hdr w false
  let u := out.stats
  let rec' := s.updRec r layer
  let kNext := Upd.nextK k n u.lost u.sat rec'
  let area := 1 - s.curArea hdr
  let s := ((s.writeUpdate r layer shard hdr out).countUpdate w layer n u).countCodings w n u true
  let s := s.reportBlocks w src u.malformed
  let s := if r.diag then s else (s.writeHeader hdr area r.step kNext u).watch rec' layer u
  let wides := if r.diag then x.wides else if needsWide (SMap.get 0x200#32 x.modes layer) then insNat layer x.wides
    else x.wides.filter (fun l => decide (l ≠ layer))
  s.modSlot 0 (fun x => x.noteShard w { layer := layer, shard := shard, k := k, kNext := kNext, frozen := u.frozen
                                        sums := some (u.sumDelta, u.sumOld, Upd.uwRatio u.sumDelta u.sumOld) } (some area) wides)
/-- An updater's work on a shard once the step is decided (R166): it waits for its areas (R167), ends with a descriptor fault where its
tables are refused (R33), stops its slot where a granule that it reads cannot be rebuilt (R293), and else updates and commits the shard, or after
a SKIP forms its column coding. -/
def State.shardCommit (s : State) (layer shard : Nat) (w : UpdPlan) : State :=
  match (s.slot 0).run, s.owned.find? (fun o => decide (o.1 = layer) && decide (o.2.1 = shard)) with
  | some r, some o =>
    if s.commitIdle r layer shard o.2.2 then s
    else if s.areaWaits r o.2.2 then s.count (ckTensor Ctr.updAreaWait (Site.no (planSite w)) layer)
    else if !Upd.planOk w then s.routineFault (planSite w) 0x02 (s.ctx (planSite w)).pos 0
    else
      let src := (s.slot 0).item (3 + s.sourceArea r o.2.2) layer shard
      let n := s.areaBytes src (s.shardElems o.2.2) (s.excCap o.2.2)
      match s.firstPoison src n with
      | some l => s.poisonHit l
      | none =>
        let s := s.chargeBulk src n false
        if (s.slot 0).decision = some 1 then (s.shardSkip r layer shard o.2.2 w).closeStep
        else (s.shardUpdate r layer shard o.2.2 w).closeStep
  | _, _ => s
/-- The wide copy of a shard formed from its current master (R165). -/
def State.formWideCopy (s : State) (layer shard hdr : Nat) : State :=
  let x := s.slot 0
  let w := s.planFor layer shard
  let cur := s.curArea hdr
  let base := x.item (3 + cur) layer shard
  let i := { s.updIn { step := x.step.toNat } layer shard hdr w with kOld := s.areaGain layer shard hdr cur }
  let a := ((Upd.readBlocks i (s.devFrom base)).1.map (fun b => b.a)).flatten
  (s.devWrite (base + w.wide) (Upd.wideCopy i a)).count (ckTensor Ctr.wideCopyLate (Site.no (planSite w)) layer)
/-- SHARD_COMMIT (R166): the shard's UPDATE completes and is committed; `w` is what the updater routines name (log 14). -/
def execShardCommit (layer shard : BitVec 16) (w : UpdPlan) (s : State) : Host.Outcome State Fault Refusal :=
  .next (s.shardCommit layer.toNat shard.toNat w)

/-- The firmware channel that mirrors: channel 28 of M0 (R307). -/
def mirrorChan : Nat := 28
/-- MIRROR_SEND (R395): the next unit goes to the buddy as a SEND of KIND 6, channel 0xF4, class BULK, with its trailer. -/
def execMirrorSend (s : State) : Host.Outcome State Fault Refusal :=
  let x := s.slot 0
  match x.prev, x.mirror.find? (fun u => !u.sent) with
  | some d, some u =>
    let bs := s.unitBytes u d.step
    let buddy := s.buddyOf s.modId.toNat
    let s := (messagesOf (fun i last pl => { devMsg s buddy 0xF4 2 6 0 0 pl with seq := BitVec.ofNat 16 i, endf := last }) bs).foldl
      State.inject s
    let s := s.submit mirrorChan
      { op := 2, dst := 0, len := bs.length, tc := 2, dev := buddy, core := 0xFFF, chan := 0xF4, kind := 6, trailer := true } .firmware 0 bs.length
    let s := s.modChan mirrorChan (fun c => { c with queue := c.queue.map (fun j =>
      if j.desc.chan = 0xF4 ∧ !j.started then { j with started := true, sent := true, done := j.desc.len } else j) })
    .next (s.modSlot 0 (fun x => { x with mirror := x.mirror.map (fun e => if e = u then { e with sent := true } else e) }))
  | _, _ => .next s

/-- The mirror place of a unit at the buddy (R394, R376): journal copies take the two item-10 slots in turn by step; an item-8 entry is
named by KEY, the first for a tensor and the last for error memory (log 52). -/
def Slot.mirrorPlace (x : Slot) (kind key : Nat) : Option Nat :=
  if kind = 2 then ((x.layout.filter (fun e => decide (e.1 = 10))).map (fun e => e.2.2.2))[key % 2]?
  else
    let l := (x.layout.filter (fun e => decide (e.1 = 8) && decide (e.2.1 + e.2.2.1 * 65536 = key))).map (fun e => e.2.2.2)
    if kind = 0 then l.head? else l.getLast?
/-- The staging slot in turn (R394). -/
def Slot.staging (x : Slot) : Option Nat :=
  ((x.layout.filter (fun e => decide (e.1 = 9))).map (fun e => e.2.2.2))[b2n x.mirrorTurn]?
/-- Write a unit's directory entry (R394): the entry of its key and kind, else the first empty one. -/
def State.writeDirectory (s : State) (kind key version crc : Nat) : State :=
  let x := s.slot 0
  match layoutGet x.layout 7 0 0 with
  | none => s
  | some base =>
    let n := (x.layout.filter (fun e => decide (e.1 = 8) || decide (e.1 = 10))).length
    let at' (i : Nat) : Nat := base + 16 * i
    let mine (i : Nat) : Bool := decide (s.devLE (at' i) 4 = key) && decide (s.devLE (at' i + 12) 4 = kind)
    let found := ((List.range n).find? mine).orElse (fun _ => (List.range n).find? (fun i => decide (s.devLE (at' i) 16 = 0)))
    match found with
    | some i => s.devWrite (at' i) (leBytes 4 key ++ leBytes 4 version ++ leBytes 4 crc ++ leBytes 4 kind)
    | none => s

/-- Take a mirror message (R396): it lands in the staging slot in turn; at END a unit that passes its CRC goes to its mirror place, then
to the directory, and the notice returns. -/
def State.mirrorUnit (s : State) (m : Msg) : State :=
  match (s.slot 0).staging with
  | none => s
  | some st =>
    let bs := payloadBytes m
    let at' := m.seq.toNat * 16384
    let n := at' + bs.length - 8
    let s := s.devWrite (st + at') bs
    if !m.endf then s
    else
      let s := s.modSlot 0 (fun x => { x with mirrorTurn := !x.mirrorTurn })
      let unit := s.devRead st n
      let key := leAt unit 4 4
      let kind := leAt unit 0 4 % 4
      let crc := (crc32c (unit.drop 32)).toNat
      match (s.slot 0).mirrorPlace kind key with
      | some place =>
        if s.devLE (st + n) 4 ≠ (crc32c unit).toNat ∨ crc ≠ leAt unit 0xC 4 then s.writeNotice m 0x13
        else ((s.devWrite place unit).writeDirectory kind key (leAt unit 8 4) crc).writeNotice m 0
      | none => s.writeNotice m 0x13
/-- MIRROR_UNIT_RECEIVE (R396). -/
def execMirrorUnitReceive (m : Msg) (s : State) : Host.Outcome State Fault Refusal :=
  if m.channel ≠ 0xF4#8 then .next s else .next (s.agentMsg m none (fun s => s.mirrorUnit m))

end Sys2Proof.Machine
end

