-- ==== Sys2Proof/Machine/Load.lean ====
section
/-! DEFINITION. What a checked job image puts into force: the map of a rank (R373, R376, R377) and the records of the slot. -/

namespace Sys2Proof.Machine

/-- The slot with the map sections of rank `r` in force (R376, R377). -/
def Slot.withRank (x : Slot) (r : Nat) : Slot :=
  let b := x.image
  let lay := layoutOf b r
  { x with
    rank := r, stage := parseStage (rankRec b 2 128 r), coll := parseColl (secFor b 4 r)
    buckets := (entriesOf (secFor b 5 r) 32).map parseBucket, gathers := (secFor b 6 r).length / 32, layout := lay
    gatherBase := (layoutGet lay 1 0 0).getD 0, bankExt := (layoutGet lay 0 0 0).getD 0
    bound := (coresOf b r).map (fun c => (c.no, c.guest)), succ := parseSucc (secFor b 7 r)
    lostTimeout := imgTimeout b }

/-- The record of a DMA channel granted to a slot (R307, R309): its completion queue from layout items 15 and 16. -/
def Slot.chanRecord (x : Slot) (k ch : Nat) : DmaChan :=
  let die := ch / 32
  let key (e : Nat × Nat × Nat × Nat) : Bool := decide (fld e.2.1 2 0 = die) && decide (fld e.2.1 7 3 = ch % 32)
  let cq := x.layout.find? (fun e => decide (e.1 = 15) && key e)
  let hd := x.layout.find? (fun e => decide (e.1 = 16) && key e)
  match cq with
  | some q => { owner := k, valid := true, hasCq := true, cqLog2 := q.2.2.1, cqBase := q.2.2.2, cqHeadAddr := (hd.map (fun e => e.2.2.2)).getD 0 }
  | none => { owner := k, valid := true }
/-- Grant a slot's channels (R307). -/
def State.grantChans (s : State) (k : Nat) : State :=
  let x := s.slot k
  (grantsOf x.image s.modId.toNat).foldl (fun (s : State) ch => s.setChan ch (x.chanRecord k ch)) s

/-- Put a rank of the slot-0 image into force on this module: map, chest lines, channels and gather table. A spare's rank is 0xFFFF and
binds nothing (R377). -/
def State.applyRank (s : State) (r : Nat) : State :=
  if r = 0xFFFF then s.modSlot 0 (fun x => { x with
      rank := r, spare := true, succ := parseSucc (secFor x.image 7 r), lostTimeout := imgTimeout x.image
      coll := parseColl (secFor x.image 4 r) })
  else
    let s := s.modSlot 0 (fun x => { x.withRank r with spare := false })
    let n := (s.slot 0).stage.chestLines
    let s := (List.range 2304).foldl (fun (s : State) no => s.modCore no (fun c => { c with chestLines := n })) s
    (s.grantChans 0).devWrite (s.slot 0).gatherBase (secFor (s.slot 0).image 6 r)

/-- A layer mode entry as firmware forms it at load (R97): WIDE is PIN. -/
def modeAtLoad (v : Nat) : Word := BitVec.ofNat 32 (v / 8 * 8 + fld v 5 3)
/-- The layer mode entries of an image, by layer. -/
def modesOf (b : List Byte) : SMap Word :=
  ((entriesOf (secFor b 11 0xFFFF) 4).zipIdx).foldl (fun m (e, i) => SMap.set 0x200#32 m i (modeAtLoad (leNat e))) []
/-- A fall-back policy record (R98). -/
def parsePolicy (b : List Byte) : Policy :=
  { frac := BitVec.ofNat 32 (leAt b 0 4), trigSteps := leAt b 4 2, hold := leAt b 6 2, holdMax := leAt b 8 2 }
/-- The records of an image outside its map (R373, R376). -/
def Slot.withRecords (x : Slot) : Slot :=
  let b := x.base
  let pol := if (secsOf b 12).isEmpty then {} else parsePolicy (secFor b 12 0xFFFF)
  { x with modes := modesOf b, policy := pol, hold0 := pol.hold, lprods := [] }
/-- The number of update records of a job's table (R154): one for each weight tensor. -/
def Slot.nUpd (x : Slot) : Nat := (tensorsOf x.image).length
/-- Initial K_L and EXC_CAP of the owned shard headers (R153, R162). -/
def State.initHeaders (s : State) : State :=
  let x := s.slot 0
  let ks := secFor x.base 13 0xFFFF
  s.owned.foldl (fun (s : State) o =>
    let s := s.devWrite (o.2.2 + 0xC) (leBytes 4 ((ks.getD (tensorIndex x.image o.1) 0#8).toNat % 8))
    match layoutGet x.layout 13 o.1 o.2.1 with
    | some v => s.devWrite (o.2.2 + 0x28) (leBytes 4 (v % 2 ^ 32))
    | none => s) s
/-- Every bucket open at a step, nothing arrived (R225). -/
def openBuckets (x : Slot) (step : Nat) : SMap Bucket :=
  ((List.range x.buckets.length) ++ [tailBucket]).foldl (fun m b => SMap.set {} m b { openStep := step }) []

/-- What an epoch's adoption resets in the slot (R246, R390): counts, credits, SEALs and the abandoned attempt's marks. -/
def Slot.newEpoch (x : Slot) (e : EpochRec) : Slot :=
  { x with
    epoch := e, hasEpoch := true, parts := [], quiesced := false, seals := [], sealSent := false, tailSent := false, sealTime := none
    landing := [], spent := [], cursor := [], landCur := [], resends := [], gone := [], decision := none, nf := false, ab := false, abCause := none
    greqs := [], gpend := [], ghdr := [], nextEpoch := none, lostSeen := x.lostSeen.filter e.members.contains
    st := if x.run.isSome then .ready else x.st }

end Sys2Proof.Machine
end

