-- ==== Sys2Proof/Machine/Epochs.lean ====
section
/-! DEFINITION. Membership epochs (R240 to R242, R390), PERMUTE (R252 to R254), lost members and takeovers (R398 to R401). -/

namespace Sys2Proof.Machine

/-- The signed bytes of an epoch record (R240). -/
def epochBytes (e : EpochRec) (slot : Nat) : List Byte :=
  leBytes 4 (e.epoch + slot * 65536) ++ leBytes 4 e.first ++ leBytes 4 e.master ++ leBytes 4 e.perm ++ List.replicate 48 0#8 ++
  (List.range 2048).map (fun j => BitVec.ofNat 8 ((List.range 8).foldl (fun a i => a + b2n (e.members.contains (8 * j + i)) * 2 ^ i) 0)) ++
  ((List.range 16384).map (fun d => let r := SMap.get (0, 0) e.roles d; leBytes 4 (r.1 + r.2 * 65536))).flatten
/-- An epoch record as read (R240). -/
def parseEpoch (b : List Byte) : EpochRec :=
  { epoch := leAt b 0 2, first := leAt b 4 4, master := leAt b 8 4 % 2 ^ 14, perm := leAt b 0xC 4, members := parseMembers (b.drop 0x40)
    roles := parseRoles (b.drop 0x40) }
/-- The number under which Config.keyHash holds a module's device key. -/
def deviceKey (dev : Nat) : Nat := 65536 + dev

/-- Send one entry (R253): a SEND of channel 29 of M0 whose notice tells whether it passed. -/
def State.sendEntry (s : State) (i : Nat) (e : PermEntry) : State :=
  let s := (s.injectEntry i e).submit 29
    { op := 2, len := e.bytes, tc := 2, dev := e.dst, core := 0xFFF, chan := 0xF3, kind := 6, trailer := true, tag := i } .firmware 0 e.bytes
  s.modChan 29 (fun c => { c with queue := c.queue.map (fun j =>
    if j.desc.chan = 0xF3 ∧ !j.started then { j with started := true, sent := true, done := j.desc.len } else j) })
/-- The entries that come to this module. -/
def State.incoming (s : State) (p : Perm) : List (PermEntry × Nat) := p.entries.zipIdx.filter (fun e => decide (e.1.dst = s.modId.toNat))

/-- The layout with the items that lie in a moved range at their places in staging (R253): those of one tensor shard, or all. -/
def Slot.relocate (x : Slot) (e : PermEntry) (all : Bool) : Slot :=
  let move (a : Nat) : Nat := if e.srcAddr ≤ a ∧ a < e.srcAddr + e.bytes then a + e.dstAddr - e.srcAddr else a
  let lay := x.layout.map (fun i =>
    if (all || (decide (i.2.1 = e.layer) && decide (i.2.2.1 = e.shard))) && !([13, 15, 16].contains i.1) then (i.1, i.2.1, i.2.2.1, move i.2.2.2) else i)
  { x with layout := lay, gatherBase := (layoutGet lay 1 0 0).getD x.gatherBase, bankExt := (layoutGet lay 0 0 0).getD x.bankExt }
/-- Note the VERSION of the error memory that a takeover brought for a bucket (R401). -/
def State.noteEm (s : State) (bucket version : Nat) : State := s.modSlot 0 (fun x => { x with emVer := SMap.set 0 x.emVer bucket (version + 1) })
/-- What a spare that takes over starts without (R400): piggy-bank sums and chest tiles. -/
def State.emptySpare (s : State) : State :=
  (((s.slot 0).bound.filter (fun b => !b.2)).foldl (fun (s : State) b => s.modCore b.1 clearBank) s).emptyChest false
/-- A staged region becomes current (R253, R400). A takeover's entries from the predecessor form a mirror; a mirror's copy becomes shard state or
error memory; a region that a host's table moves takes the place of the old one. -/
def State.settle (s : State) (takeover : Bool) (e : PermEntry) : State :=
  let x := s.slot 0
  let key := e.layer + e.shard * 65536
  if takeover && (e.kind = 0 || e.kind = 2 || e.kind = 4) then
    let ukind := if e.kind = 0 then 0 else if e.kind = 2 then 1 else 2
    let key := if e.kind = 4 then x.decided else key
    let n := if e.kind = 4 then s.devLE (e.dstAddr + 0x2C) 4 else e.bytes
    let body := s.devRead e.dstAddr n
    let crc := (crc32c body).toNat
    let unit := leBytes 4 ukind ++ leBytes 4 key ++ leBytes 4 x.decided ++ leBytes 4 crc ++ leBytes 8 n ++ leBytes 8 0 ++ body
    match x.mirrorPlace ukind key with
    | some p => (s.devWrite p unit).writeDirectory ukind key x.decided crc
    | none => s
  else if e.kind = 1 then
    let a := e.dstAddr + 32
    let n := s.shardElems a
    let cur := s.curArea a
    let col := a + 48 + s.areaBytes (a + 48) n (s.excCap a)
    let mine (i : Nat × Nat × Nat × Nat) : Bool :=
      decide (i.2.1 = e.layer) && decide (i.2.2.1 = e.shard) && [2, 3 + cur, 5 + (x.decided + 1) % 2].contains i.1
    let s := s.modSlot 0 (fun x => { x with
      wides := x.wides.filter (fun l => decide (l ≠ e.layer))
      gains := SMap.set 0 (SMap.set 0 x.gains (2 * key) 0) (2 * key + 1) 0
      layout := x.layout.filter (fun i => !mine i) ++ [(2, e.layer, e.shard, a), (3 + cur, e.layer, e.shard, a + 48),
        (5 + (x.decided + 1) % 2, e.layer, e.shard, col)] })
    ((x.buckets.zipIdx.filter (fun (d, _) => decide (d.layer = e.layer) && decide (d.shard = e.shard) && decide (d.mode ≠ 0))).foldl
      (fun (r : State × Nat) (d, i) =>
        let em := x.emRange x.emCur d
        ((r.1.devWrite em.1 (r.1.devRead r.2 em.2)).noteEm i (s.devLE (e.dstAddr + 8) 4), r.2 + em.2)) (s, col + s.columnBytes col n)).1
  else if e.kind = 3 then
    let i := s.devLE (e.dstAddr + 4) 4
    match x.buckets[i]? with
    | some d =>
      let em := x.emRange x.emCur d
      (s.devWrite em.1 (s.devRead (e.dstAddr + 32) em.2)).noteEm i (s.devLE (e.dstAddr + 8) 4)
    | none => s
  else if e.kind = 0 then
    s.modSlot 0 (fun x => { (x.relocate e false) with
      gains := SMap.set 0 (SMap.set 0 x.gains (2 * key) 0) (2 * key + 1) 0 })
  else if e.kind = 2 then
    let move (a : Nat) : Nat := a + e.dstAddr - e.srcAddr
    s.modSlot 0 (fun x => { x with
      coll := if x.emCur then { x.coll with emB := move x.coll.emB } else { x.coll with emA := move x.coll.emA } })
  else s.modSlot 0 (fun x => x.relocate e true)

/-- Complete the command of an opcode that waits for an adoption, if one does. -/
def State.finishActive (s : State) (opcode : Nat) : State :=
  match s.activeCmd opcode (fun _ => true) with
  | some c => s.finish c 0
  | none => s

/-- A training load ends with the job-load epoch (R242, R373): records, buckets, headers, routines. -/
def State.finishLoad (s : State) (e : EpochRec) : State :=
  let s := s.modSlot 0 (fun x => { (x.withRecords) with st := .ready, bkts := openBuckets x e.first })
  s.initHeaders

/-- A LINK_STATE notice of a ring to every other module of it (R275, R386). -/
def State.tellRing (s : State) (d : Nat) : State :=
  ((List.range (s.extent d)).filter (fun c => decide (c ≠ s.coord d))).foldl (fun (s : State) c =>
    s.inject (fwCtrl s (atCoord s.modId.toNat d c) 0 [BitVec.ofNat 32 (d + s.blockedSet d * 65536)])) s
/-- An epoch is adopted: pairs that have returned to service carry again (R275). What other modules reported before is no longer held, and
every module whose pair is still down reports it anew (DESIGN CHOICE, log 93). -/
def State.unbar (s : State) : State :=
  let s : State := { s with links := { s.links with
    blocked := [], pairs := SMap.mapVals {} (fun _ p => { p with barred := p.barred && p.down }) s.links.pairs } }
  (List.range 4).foldl (fun (s : State) d => (if s.ownBlocked d = 0 then s else s.tellRing d).refreshDetour d) s

/-- Adopt an epoch (R253, R390): an undecided attempt is abandoned, staged regions become current, and the rank's routines are loaded
anew; pairs that returned may carry again (R275); commands that waited complete. -/
def State.adopt (s : State) (e : EpochRec) : State :=
  let x0 := s.slot 0
  let s := if x0.run.isSome && x0.decision.isNone && decide (x0.st ≠ .ready) then s.abandonStep else s
  let x := s.slot 0
  let me := s.modId.toNat
  let loading := decide (x.st = .loading)
  let pm := x.perm
  let s := s.modSlot 0 (fun x => { x.newEpoch e with perm := {} })
  let role := (s.slot 0).role me
  let member := e.members.contains me
  let s := if member && (loading || x.spare || decide (x.rank ≠ role.1)) then s.applyRank role.1
    else if loading then s.applyRank 0xFFFF else s
  let s := if loading then s.finishLoad e else s
  let s := if pm.active then (s.incoming pm).foldl (fun (s : State) p => s.settle pm.takeover.isSome p.1) s else s
  let s := match pm.takeover with
    | some (lost, spare) =>
      let s := (s.modSlot 0 (fun x => { x with stand := x.stand ++ [(lost, spare)] })).count (ckSlot Ctr.takeovers 0)
      if decide (e.master = me) then s.absorbed 0x06 (unitRef 7 lost) 1 (s.timeUs - x0.sealTime.getD s.timeUs) e.first else s
    | none => s
  let s := if x0.sealTime.isSome && x0.run.isSome then s.peak (ckSlot Ctr.recoveryUsMax 0) (s.timeUs - x0.sealTime.getD 0) else s
  let s := if member then s.loadRoutines 0 (s.slot 0).rank else s
  let s := if pm.takeover.any (fun t => decide (t.2 = me)) then s.emptySpare else s
  let s := s.unbar
  ((s.finishActive 0x0140).finishActive 0x0130).finishActive 0x0100

/-- The cores marked for a swap (R391). -/
def State.toSwap (s : State) : List Nat := (s.cores.filter (fun e => e.2.swapMark)).map (fun e => e.1)
/-- Adopt an epoch, or keep it until the pending swaps are made (R391). -/
def State.tryAdopt (s : State) (e : EpochRec) : State :=
  if s.toSwap.isEmpty then s.adopt e else s.modSlot 0 (fun x => { x with nextEpoch := some e })

/-- The master issues an epoch (R240, R241): signed, sent to members and spares as five parts (R386), and adopted here. -/
def State.issueEpoch (s : State) (e : EpochRec) : State :=
  let bytes := epochBytes e 0
  let rec' := bytes ++ (Config.signature bytes ++ List.replicate 96 0#8).take 96
  let dests := (e.members ++ ((moduleMap (s.slot 0).image).filter (fun m => decide (m.2.1 = 0xFFFF))).map (fun m => m.1)).eraseDups.filter
    (fun d => decide (d ≠ s.modId.toNat))
  let part (i : Nat) : List Word := bytesToWords ((rec'.drop (16384 * i)).take 16384)
  let s := (dests.flatMap (fun d => (List.range 5).map (fun i =>
    { fwCtrl s d 1 (part i) with seq := BitVec.ofNat 16 i, endf := decide (i = 4) }))).foldl State.inject s
  let s := if e.epoch = 0xFF00 then s.post 0x0308 .info (some 0) (unitRef 8 0) (payload [(2, e.epoch), (2, 255)]) else s
  s.tryAdopt e

/-- NEXT_EPOCH_ISSUE (R390): 250 us after the last SEAL, with no member lost; MEMBERS and ROLE stay. -/
def execNextEpochIssue (s : State) : Host.Outcome State Fault Refusal :=
  let x := s.slot 0
  if !(s.isMaster && decide (x.decision = some 2) && decide (x.heldTime + 250 ≤ s.timeUs)) || x.lostSeen.any x.epoch.members.contains then .next s
  else if x.epoch.epoch = 0xFFFF then .next (s.beyond 0 0x07 [unitRef 7 s.modId.toNat])
  else .next (s.issueEpoch { x.epoch with epoch := x.epoch.epoch + 1, first := x.step.toNat, master := s.modId.toNat })

/-- Refuse an epoch record (R240). -/
def State.rejectEpoch (s : State) (dev epoch : Nat) : State :=
  (s.count (ckSlot Ctr.epochReject 0)).post 0x0306 .fault (some 0) (unitRef 8 0) (payload [(2, dev), (2, epoch)])
/-- A part of an epoch record (R240, R386); with the last one the record is verified and adopted, or refused. -/
def State.epochPart (s : State) (m : Msg) : State :=
  let s := s.modSlot 0 (fun x => { x with parts := SMap.set [] x.parts m.seq.toNat (payloadBytes m) })
  if !m.endf then s
  else
    let rec' := ((List.range 5).map (fun i => SMap.get [] (s.slot 0).parts i)).flatten
    let s := s.modSlot 0 (fun x => { x with parts := [] })
    let x := s.slot 0
    let e := parseEpoch rec'
    let bytes := rec'.take 0x10840
    let first := decide (x.st = .loading) && decide (e.epoch = 0)
    if decide (rec'.length = 0x108A0) && Config.verifies (Config.keyHash (deviceKey e.master)) bytes (rec'.drop 0x10840) &&
        (first || (x.hasEpoch && decide (e.epoch = x.epoch.epoch + 1))) then s.tryAdopt e
    else s.rejectEpoch m.srcDev.toNat e.epoch
/-- A firmware message (R386): one whose HCHECK fails, or whose slot is not loaded, is dropped; a loading slot 0 takes its epoch. -/
def State.fwMsg (s : State) (m : Msg) (op : Nat) (act : State → State) : State :=
  if m.channel ≠ 0xF8#8 ∨ m.arg.toNat / 4 % 16 ≠ op then s
  else s.agentMsg m (some Ctr.staleTagDrop) (fun s =>
    let st := (s.slot m.slot.toNat).st
    if st.loaded || decide (st = .loading) then act s else s.count (ckSlot Ctr.staleTagDrop m.slot.toNat))
/-- EPOCH_PART (R240). -/
def execEpochPart (m : Msg) (s : State) : Host.Outcome State Fault Refusal := .next (s.fwMsg m 1 (fun s => s.epochPart m))

/-- JOB_LOAD_EPOCH_TIMEOUT (R242): the load is refused and changes nothing. -/
def execJobLoadEpochTimeout (s : State) : Host.Outcome State Fault Refusal :=
  if (s.slot 0).st ≠ .loading then .next s
  else match s.activeCmd 0x0100 (fun c => decide (c.ring = 0)) with
    | some c => .next ((s.setSlot 0 {}).finish c 0x11 7)
    | none => .next s

/-- The roles after a permutation (R253): a module that takes a shard takes its owner's role; a takeover gives the spare the lost
member's role. -/
def permRoles (e : EpochRec) (p : Perm) : List Nat × SMap (Nat × Nat) :=
  match p.takeover with
  | some (lost, spare) =>
    let r := SMap.get (0, 0) e.roles lost
    ((insNat spare (e.members.filter (fun d => decide (d ≠ lost)))), SMap.set (0, 0) (SMap.set (0, 0) e.roles lost (0, 0)) spare r)
  | none =>
    let moves := ((p.entries.filter (fun x => decide (x.kind = 0))).map (fun x => (x.src, x.dst))).eraseDups
    let out := (moves.map (fun m => m.1)).filter (fun d => !moves.any (fun m => decide (m.2 = d)))
    let ms := moves.foldl (fun l m => insNat m.2 l) (e.members.filter (fun d => !out.contains d))
    let rs := out.foldl (fun r d => SMap.set (0, 0) r d (0, 0)) e.roles
    (ms, moves.foldl (fun r m => SMap.set (0, 0) r m.2 (SMap.get (0, 0) e.roles m.1)) rs)
/-- Record a module's PERMUTE_DONE; the master issues the epoch when all have reported (R253). -/
def State.recordDone (s : State) (dev : Nat) : State :=
  let s := s.modSlot 0 (fun x => { x with perm := { x.perm with dones := insNat dev x.perm.dones } })
  let x := s.slot 0
  let need := (x.epoch.members.filter (fun d => !x.lostSeen.contains d)) ++ x.perm.entries.map (fun e => e.dst)
  if s.isMaster && need.all x.perm.dones.contains then
    let (ms, rs) := permRoles x.epoch x.perm
    s.issueEpoch { epoch := x.epoch.epoch + 1, first := if x.run.isSome then x.step.toNat else x.decided + 1, master := s.modId.toNat
                   perm := x.perm.number, members := ms, roles := rs }
  else s
/-- This module's incoming entries have all passed: it tells every member (R253). -/
def State.permDone (s : State) : State :=
  let s := s.broadcast (fun d => collCtrl s d 5 0 [BitVec.ofNat 32 (s.slot 0).perm.number])
  s.recordDone s.modId.toNat
/-- Start a permutation (R253): this module's entries go out; with none to come it is done at once. -/
def State.startPerm (s : State) (number : Nat) (takeover : Option (Nat × Nat)) (entries : List PermEntry) : State :=
  let s := s.modSlot 0 (fun x => { x with perm := { active := true, number := number, takeover := takeover, entries := entries } })
  let mine := entries.zipIdx.filter (fun e => decide (e.1.src = s.modId.toNat))
  let s := mine.foldl (fun (s : State) e => s.sendEntry e.2 e.1) s
  if (s.incoming (s.slot 0).perm).isEmpty then s.permDone else s

/-- An entry has failed twice (R254): staging is freed, and a takeover's failure is beyond-model. -/
def State.permFails (s : State) (i : Nat) (e : PermEntry) : State :=
  let p := (s.slot 0).perm
  let s := s.post 0x0307 .fault (some 0) (unitRef 8 0) (payload [(4, p.number), (4, i), (2, e.src), (2, e.dst)])
  let s := s.modSlot 0 (fun x => { x with perm := {} })
  if p.takeover.isSome then s.beyond 0 0x05 [unitRef 7 e.src, unitRef 7 e.dst]
  else match s.activeCmd 0x0140 (fun _ => true) with
    | some c => s.finish c 0x23 (min i 0xFFFF)
    | none => s
/-- A message of a permutation entry (R253). -/
def State.permMessage (s : State) (m : Msg) : State :=
  let p := (s.slot 0).perm
  match (s.incoming p).find? (fun e => decide (e.1.src = m.srcDev.toNat) && decide (e.2 % 1024 = m.arg.toNat / 4 % 1024) &&
      !p.passed.contains e.2) with
  | none => s
  | some (e, i) =>
    let bs := payloadBytes m
    let at' := m.seq.toNat * 16384
    let data := if m.endf then bs.take (bs.length - 8) else bs
    let s := s.devWrite (e.dstAddr + at') data
    if !m.endf then s
    else if leNat ((bs.drop (bs.length - 8)).take 4) = (crc32c (s.devRead e.dstAddr (at' + data.length))).toNat then
      let s := (s.modSlot 0 (fun x => { x with perm := { x.perm with passed := x.perm.passed ++ [i] } })).count (ckSlot Ctr.permuteEntries 0)
      let s := s.writeNotice m 0
      if (s.incoming (s.slot 0).perm).all (fun e => (s.slot 0).perm.passed.contains e.2) then s.permDone else s
    else
      let s := s.writeNotice m 0x13
      if p.retried.contains i then
        (s.broadcast (fun d => collCtrl s d 5 0 [BitVec.ofNat 32 p.number, BitVec.ofNat 32 (i + 1)])).permFails i e
      else (s.modSlot 0 (fun x => { x with perm := { x.perm with retried := x.perm.retried ++ [i] } })).count (ckSlot Ctr.permuteRetry 0)
/-- PERMUTE_ENTRY_RECEIVE (R253, R254). -/
def execPermuteEntryReceive (m : Msg) (s : State) : Host.Outcome State Fault Refusal :=
  if m.channel ≠ 0xF3#8 then .next s else .next (s.agentMsg m none (fun s => s.permMessage m))
/-- PERMUTE_DONE (R253): a report for another permutation is not counted; a second word that is not 0 names the entry that has failed twice, plus 1
(R254, log 84). -/
def execPermuteDone (m : Msg) (s : State) : Host.Outcome State Fault Refusal :=
  if m.channel ≠ 0xF0#8 ∨ collOp m ≠ 5 then .next s
  else .next (s.agentMsg m none (fun s =>
    let p := (s.slot 0).perm
    let bad := (m.payload.getD 1 0#32).toNat
    if !(p.active && decide ((m.payload.headD 0#32).toNat = p.number)) then s
    else match bad, p.entries[bad - 1]? with
      | 0, _ => s.recordDone m.srcDev.toNat
      | _, some e => s.permFails (bad - 1) e
      | _, none => s))

/-- MEMBER_LOST (R398). -/
def execMemberLost (m : Msg) (s : State) : Host.Outcome State Fault Refusal :=
  .next (s.fwMsg m 2 (fun s =>
    let w := (m.payload.headD 0#32).toNat
    (s.count (ckSlot Ctr.memberLostSeen 0)).memberLost (w % 65536) (w / 65536 % 256)))
/-- LOST_MEMBER_TIMEOUT (R398): counted from the master's own SEAL of the step. -/
def execLostMemberTimeout (dev : BitVec 14) (s : State) : Host.Outcome State Fault Refusal :=
  let x := s.slot 0
  match x.sealTime with
  | some t =>
    if s.isMaster && decide (t + x.lostTimeout * 1000000 ≤ s.timeUs) && !x.seals.any (fun e => decide (e.1 = dev.toNat)) then
      .next (s.memberLost dev.toNat 2)
    else .next s
  | none => .next s

/-- The elements of a shard, from a rank's bucket table (R223: every tile lies in one bucket). -/
def bucketElems (bs : List BucketDef) (layer shard : Nat) : Nat :=
  ((bs.filter (fun d => decide (d.layer = layer) && decide (d.shard = shard))).map (fun d => d.tiles * 4096)).sum
/-- The greatest length of a tensor unit's body (R395), with an exception list of `cap` entries: 17 kite words for every block of both
codings (R41). -/
def unitLen (bs : List BucketDef) (layer shard cap : Nat) : Nat :=
  let n := bucketElems bs layer shard
  48 + Upd.kiteAt n cap + Upd.colKiteAt n + 2 * (n / 32 * 68) +
    ((bs.filter (fun d => decide (d.layer = layer) && decide (d.shard = shard) && decide (d.mode ≠ 0))).map (fun d => d.tiles * 8192)).sum
/-- Give entries their staging addresses, one after another. -/
def stageEntries (base : Nat) : List PermEntry → List PermEntry
  | [] => []
  | e :: t => { e with dstAddr := base } :: stageEntries (base + e.bytes) t
/-- The units of a member as permutation entries without addresses of their staging (R395, R400). -/
def unitEntries (bs : List BucketDef) (shard src dst tKind eKind head : Nat) (cap : Nat → Nat) (place : Nat → Nat → Nat) : List PermEntry :=
  let layers := ((bs.filter (fun d => decide (d.shard = shard))).map (fun d => d.layer)).eraseDups
  layers.map (fun l => { src := src, dst := dst, kind := tKind, layer := l, shard := shard, srcAddr := place 0 (l + shard * 65536), dstAddr := 0
                         bytes := Upd.up256 (head + unitLen bs l shard (cap l)) }) ++
  (bs.zipIdx.filter (fun (d, _) => decide (d.shard ≠ shard) && decide (d.mode ≠ 0))).map (fun (d, i) =>
    { src := src, dst := dst, kind := eKind, layer := i % 65536, shard := i / 65536, srcAddr := place 1 i, dstAddr := 0
      bytes := Upd.up256 (head + d.tiles * 8192) })
/-- The table of a takeover (R400): from the buddy to the spare's state, and from the predecessor to its mirror. -/
def State.takeoverTable (s : State) (lost spare : Nat) : List PermEntry :=
  let x := s.slot 0
  let img := x.image
  let bks (r : Nat) : List BucketDef := (entriesOf (secFor img 5 r) 32).map parseBucket
  let r := x.role lost
  let buddy := s.buddyOf lost
  let pred := s.predOf lost
  let rb := (x.role buddy).1
  let rp := x.role pred
  let cap (rank shard l : Nat) : Nat := (layoutGet (layoutOf img rank) 13 l shard).getD (bucketElems (bks rank) l shard / 8192)
  let mirror (k key : Nat) : Nat := (({ x with layout := layoutOf img rb } : Slot).mirrorPlace k key).getD 0
  let own (k key : Nat) : Nat :=
    if k = 0 then (layoutGet (layoutOf img rp.1) 2 (key % 65536) (key / 65536)).getD 0
    else (((bks rp.1)[key]?).map (fun d => (({ x with coll := parseColl (secFor img 4 rp.1) } : Slot).emRange x.emCur d).1)).getD 0
  stageEntries ((layoutGet (layoutOf img r.1) 11 0 0).getD 0)
    (unitEntries (bks r.1) r.2 buddy spare 1 3 32 (cap r.1 r.2) mirror ++ unitEntries (bks rp.1) rp.2 pred spare 0 2 0 (cap rp.1 rp.2) own ++
      [{ src := pred, dst := spare, kind := 4, layer := 0, shard := 0, srcAddr := 0, dstAddr := 0, bytes := 0 }])

/-- TAKEOVER (R399, R400): after the drain interval; `able` are the spares that can be reached and hold the job. Where no spare qualifies and the
buddy is lost too, the kind reported is that of the missing spare (R3; DESIGN CHOICE, log 104). -/
def execTakeover (lost : BitVec 14) (able : List (BitVec 14)) (s : State) : Host.Outcome State Fault Refusal :=
  let x := s.slot 0
  let d := lost.toNat
  if !x.hasEpoch || !x.epoch.members.contains d || x.perm.active || (s.isMaster && decide (s.timeUs < x.heldTime + 250)) ||
      (x.run.isSome && decide (x.decision = none) && !x.quiesced) then .next s
  else
    let gone (m : Nat) : Bool := x.lostSeen.contains m
    match x.spares.find? (fun m => able.contains (BitVec.ofNat 14 m) && !x.epoch.members.contains m) with
    | none => .next (s.beyond 0 0x04 [unitRef 7 d])
    | some sp =>
      if gone (s.buddyOf d) then .next (s.beyond 0 0x01 [unitRef 7 d, unitRef 7 (s.buddyOf d)])
      else if gone (s.predOf d) then .next (s.beyond 0 0x01 [unitRef 7 d, unitRef 7 (s.predOf d)])
      else if x.epoch.epoch = 0xFFFF then .next (s.beyond 0 0x07 [unitRef 7 d])
      else
        let table := s.takeoverTable d sp
        let s := if sp = s.modId.toNat then s.applyRank (x.role d).1 else s
        .next (s.startPerm (x.epoch.perm + 1) (some (d, sp)) table)

/-- Whether some unit that a takeover brought is older than a step (R401): a shard, or a bucket's error memory. -/
def State.repairDue (s : State) (step : Nat) : Bool :=
  s.owned.any (fun o => decide (s.areaVersion o.2.2 (s.curArea o.2.2) < step)) || (s.slot 0).emVer.any (fun e => decide (e.2 ≤ step))
/-- STEP_REPAIR (R401): before the abandoned step runs again, step `step` runs in replay mode to rebuild the units that the mirror did
not hold; `copies` says that every held copy of a replaced shard passes its check. -/
def execStepRepair (step : Word) (copies : Bool) (s : State) : Host.Outcome State Fault Refusal :=
  let x := s.slot 0
  match x.stand.getLast? with
  | none => .next s
  | some (lost, sp) =>
    if x.st ≠ .ready ∨ x.after.isSome || (decide (sp = s.modId.toNat) && !s.repairDue step.toNat) then .next s
    else if !copies then .next (s.beyond 0 0x06 [unitRef 7 lost])
    else
      let n := step.toNat
      let mine := decide (sp = s.modId.toNat)
      let copy := ((((x.layout.filter (fun e => decide (e.1 = 10))).map (fun e => s.devRead (e.2.2.2 + 32) (s.devLE (e.2.2.2 + 32 + 0x2C) 4))).find?
        (fun b => decide (leAt b 0 4 = n))).orElse (fun _ => s.journalRecord 0 n)).getD []
      let old (b : Nat) : Bool := match x.bucketDef b with
        | some d => s.owned.any (fun o => decide (o.1 = d.layer) && decide (s.areaVersion o.2.2 (s.curArea o.2.2) < n))
        | none => false
      let r : Run :=
        { step := n, m := leAt copy 0x18 4 % 4096 + 1, noTelem := true, upd := recUpd copy, batch := leAt copy 0x10 8, replay := true
          repair := true, owner := mine }
      .next (s.modSlot 0 (fun x => { x with
        run := some r, after := x.run, step := step, rollback := if mine then x.rollback else some n
        bkts := if mine then SMap.mapVals {} (fun b k => { k with openStep := if b = tailBucket || old b then n else n + 1 })
          (openBuckets x (n + 1)) else x.bkts }))

end Sys2Proof.Machine
end

