-- ==== Sys2Proof/Machine/VectorOps.lean ====
section
/-! DEFINITION. The vector engine, the reduction unit and the tile registers (R131 to R147). -/

namespace Sys2Proof.Machine

/-- The rows of an op (N-1 encoding). -/
def VecArgs.n (a : VecArgs) : Nat := a.nM1.toNat + 1
/-- The rows of a RED op. -/
def RedArgs.n (a : RedArgs) : Nat := a.nM1.toNat + 1

/-- Flags F2..F0 of a VEC op. -/
def vecFlags (a : VecArgs) : Nat := b2n a.sat + 2 * b2n a.pop
/-- The op word of a VEC or tile-register op (R176). -/
def vecWord (fn : Nat) (h : OpHead) (a : VecArgs) : Nat :=
  opWord 0x40 (vecFlags a) h [(88, fn), (82, a.nM1.toNat), (64, specBits a.d), (46, specBits a.a), (28, specBits a.b),
    (10, specBits a.c), (5, a.lsStride.toNat), (0, a.ext.toNat)]
/-- The op word of a RED op (R176). -/
def redWord (fn : RedFn) (tap : Bool) (h : OpHead) (a : RedArgs) : Nat :=
  opWord 0x41 (b2n a.skipNf + 2 * b2n tap + 4 * b2n a.pop) h [(93, Red.code fn), (91, a.scope.toNat), (85, a.nM1.toNat),
    (67, specBits a.d), (49, specBits a.src), (44, a.lsStride.toNat)]

/-- The core with a context's scalar registers and routine header as an earlier issue saw them (R131, R132). -/
def asIssued (c : Core) (guest : Bool) (sregs : SMap Word) (hdr : Hdr) : Core :=
  c.setCtx guest { c.ctx guest with sregs := sregs, hdr := hdr }

/-- The scalar registers that a spec reads (R173). -/
def specRegs : Spec → List Nat
  | .ls s _ => [s.toNat]
  | .sreg n _ => [n.toNat]
  | _ => []

/-- Mark the entry an op reads and take its tag into TQ_TAG (R141), and with the pop flag return it to FREE (R122). -/
def tqTouch (c : Core) (guest pop : Bool) : Core :=
  match c.tqFull guest with
  | none => c
  | some e =>
    let c := c.setCtx guest { c.ctx guest with tqTag := e.tag }
    if pop then { c with tq := c.tq.filter (fun x => x.id != e.id) }
    else { c with tq := c.tq.map (fun x => if x.id = e.id then { x with reading := true } else x) }

/-- The result of one row: 64 lanes (R131). -/
def rowLanes (fn : VecFn) (sat : Bool) (ra rb rc : List Word) : List LaneOut :=
  (List.range 64).map (fun j => Vec.lane fn sat (ra.getD j 0#32) (rb.getD j 0#32) (rc.getD j 0#32))

/-- Run rows `i`, `i+1`, ... of a VEC op: each row reads its sources after the rows before it have written (R132). The rows'
lane results are collected in order. -/
def vecRows (fn : VecFn) (sat : Bool) (d a b c : RowPlace) : (n i : Nat) → Core → Core × List (List LaneOut)
  | 0, _, k => (k, [])
  | n + 1, i, k =>
    let out := rowLanes fn sat (rowRead k a ((Vec.widenBytes fn).getD 4) i) (rowRead k b 4 i) (rowRead k c 4 i)
    let k := rowWrite k d ((Vec.narrowBytes fn).getD 4) i 0 (out.map (fun o => o.v))
    let r := vecRows fn sat d a b c n (i + 1) k
    (r.1, out :: r.2)

/-- The results of a reduction over rows, in destination order (R143): BLOCK two a row, ROW one a row, COL one a lane, SEQ
one. -/
def redResults (fn : RedFn) (scope : Nat) (skipNf : Bool) (rows : List (List Word)) : List Word :=
  if scope = 0 then
    (rows.map (fun r => [Red.treeOf fn skipNf 5 (r.take 32), Red.treeOf fn skipNf 5 (r.drop 32)])).flatten
  else if scope = 1 then rows.map (Red.treeOf fn skipNf 6)
  else if scope = 2 then (List.range 64).map (fun j => Red.chainOf fn skipNf (rows.map (fun r => r.getD j 0#32)))
  else [Red.chainOf fn skipNf rows.flatten]

/-- Write reduction results to lanes 0, 1, ... of successive destination lines, 64 a line (R143). -/
def redWrite (d : RowPlace) : (fuel i : Nat) → List Word → Core → Core
  | 0, _, _, k => k
  | f + 1, i, vs, k => if vs.isEmpty then k else redWrite d f (i + 1) (vs.drop 64) (rowWrite k d 4 i 0 (vs.take 64))

/-- The destination lines of a RED op (R143). -/
def redLines (a : RedArgs) : Nat := if a.scope.toNat = 0 then (2 * RedArgs.n a + 63) / 64 else 1

/-- Reduce rows under a RED op's function and write its destination: all rows have been read before any is written (DESIGN CHOICE, log 72:
the spec does not say what a RED op whose destination line is among its own source rows reads). A destination of kind 0 takes nothing. -/
def redApply (fn : RedFn) (a : RedArgs) (guest : Bool) (rows : List (List Word)) (k : Core) : Core :=
  match placeOf k guest a.lsStride.toNat a.d with
  | some d => redWrite d 2 0 (redResults fn a.scope.toNat a.skipNf rows) k
  | none => k

/-- Let the TAP ops bound to a VEC op reduce the rows that it wrote (R143): all of its rows, whatever N the TAP op's own field holds, and of
a narrowing conversion the narrow bit patterns as 32-bit words (DESIGN CHOICE, log 71). -/
def tapAll (guest : Bool) (rows : List (List Word)) : List InFlight → Core → Core
  | [], k => k
  | f :: rest, k =>
    match f.finish with
    | .tapWait fn a sregs hdr =>
      let t := k.ctx guest
      tapAll guest rows rest (asIssued (redApply fn a guest rows (asIssued k guest sregs hdr)) guest t.sregs t.hdr)
    | _ => tapAll guest rows rest k

/-- The destination lines of a TAP op whose VEC op has `n` rows (R143). -/
def tapLines (a : RedArgs) (n : Nat) : Nat := if a.scope.toNat = 0 then (2 * n + 63) / 64 else 1
/-- The fault of a TAP op whose VEC op has more rows than the TAP op's own field and so fills another destination line (R139, R143): as the
TAP op's own, with its offset and word. -/
def tapFault (c : Core) (no : Nat) (guest : Bool) (n : Nat) : List InFlight → Option (Nat × Nat × Nat)
  | [] => none
  | f :: rest => match f.finish with
    | .tapWait _ a sregs hdr =>
      (match (if isNone a.d then none else specFault (asIssued c guest sregs hdr) no guest true a.lsStride.toNat 4 (tapLines a n) a.d) with
        | some code => some (code, f.off, f.word)
        | none => tapFault c no guest n rest)
    | _ => tapFault c no guest n rest
/-- The lines that TAP ops fill beyond those of their own fields when their VEC op has `n` rows (R173). -/
def tapWrites (c : Core) (guest : Bool) (n : Nat) (l : List InFlight) : List Rng :=
  (l.map (fun f => match f.finish with
    | .tapWait _ a sregs hdr =>
      if redLines a < tapLines a n then rangesOf (asIssued c guest sregs hdr) guest a.lsStride.toNat 4 (tapLines a n) a.d else []
    | _ => [])).flatten

/-- The places of a VEC op's operands; an operand that is not read is a row of zeros. -/
def vecPlaces (k : Core) (guest : Bool) (fn : VecFn) (a : VecArgs) : Option (RowPlace × RowPlace × RowPlace × RowPlace) :=
  let pl := placeOf k guest a.lsStride.toNat
  match pl a.d, pl a.a, (if Vec.readsB fn then pl a.b else some (.all 0#32)), (if Vec.readsC fn then pl a.c else some (.all 0#32)) with
  | some d, some x, some y, some z => some (d, x, y, z)
  | _, _, _, _ => none

/-- Whether a VEC op reads the tile queue. -/
def vecReadsTq (fn : VecFn) (a : VecArgs) : Bool :=
  isTq a.a || (Vec.readsB fn && isTq a.b) || (Vec.readsC fn && isTq a.c)

/-- A VEC op's rows and everything that follows from them: TAP ops, TQ_TAG, the pop, the counts (R132, R141, R148). `late` says that the
op waited for a FULL entry: its TAP ops are those issued before it. -/
def vecRun (s : State) (p : Site) (fn : VecFn) (a : VecArgs) (late : Bool) : State :=
  let k := s.core (Site.no p)
  match vecPlaces k p.guest fn a with
  | none => s
  | some (d, x, y, z) =>
    let r := vecRows fn a.sat d x y z (VecArgs.n a) 0 k
    let outs := r.2.flatten
    let l := (r.1.ctx p.guest).inflight
    let k := tapAll p.guest (r.2.map (fun row => row.map (fun o => o.v))) (if late then firstTaps l else openTaps l) r.1
    let k := k.setCtx p.guest { k.ctx p.guest with inflight := if late then metFirst l else metOpen l }
    let k := if vecReadsTq fn a then tqTouch k p.guest a.pop else k
    (s.setCore (Site.no p) k).countAll (fun id => ckCtx id p)
      [(Ctr.vecRows, VecArgs.n a), (Ctr.intSat, (outs.filter (fun o => o.intSat)).length),
       (Ctr.cvtNanZero, (outs.filter (fun o => o.nanZero)).length),
       (Ctr.wideNarrowSat, (outs.filter (fun o => o.narrowSat)).length)]

/-- The faults of a VEC op (R134, R137, R139, R146, R172, R177). -/
def vecFault (s : State) (p : Site) (fn : VecFn) (a : VecArgs) : Option Nat :=
  let k := s.core (Site.no p)
  let n := VecArgs.n a
  let f := specFault k (Site.no p) p.guest
  let st := a.lsStride.toNat
  faultOf [
    need (specRsvOk a.d && specRsvOk a.a && specRsvOk a.b && specRsvOk a.c) 0x01,
    f true st ((Vec.narrowBytes fn).getD 4) n a.d,
    f false st ((Vec.widenBytes fn).getD 4) n a.a,
    if Vec.readsB fn then f false st 4 n a.b else none,
    if Vec.readsC fn then f false st 4 n a.c else none,
    need ((Vec.narrowBytes fn).isNone || isMem a.d) 0x06,
    need ((Vec.widenBytes fn).isNone || isMem a.a) 0x06,
    need (!a.pop || vecReadsTq fn a) 0x06]

/-- The plan of a VEC op (R173, R175, R350: 0.10 nJ a row), with the lines that its TAP ops fill beyond their own fields. -/
def vecPlan (s : State) (p : Site) (h : OpHead) (fn : VecFn) (a : VecArgs) : Plan :=
  let k := s.core (Site.no p)
  let n := VecArgs.n a
  let rg (w : Nat) := rangesOf k p.guest a.lsStride.toNat w n
  let taps := openTaps (k.ctx p.guest).inflight
  let own := vecFault s p fn a
  let tf := tapFault k (Site.no p) p.guest n taps
  let bs := if Vec.readsB fn then rg 4 a.b else []
  let cs := if Vec.readsC fn then rg 4 a.c else []
  { word := vecWord (Vec.code fn) h a, unit := some .vector
    reads := rg ((Vec.widenBytes fn).getD 4) a.a ++ bs ++ cs
    writes := rg ((Vec.narrowBytes fn).getD 4) a.d ++ tapWrites k p.guest n taps
    regsR := specRegs a.d ++ specRegs a.a ++ specRegs a.b ++ specRegs a.c
    regsW := if vecReadsTq fn a then [16] else []
    cost := 10, units := n
    fault := own.or (tf.map (fun x => x.1)), at' := if own.isNone then tf.map (fun x => x.2) else none
    finish := if vecReadsTq fn a && (k.tqFull p.guest).isNone then
        .deferred { op := .vec fn a, sregs := (k.ctx p.guest).sregs, hdr := (k.ctx p.guest).hdr } else .plain }

/-- A VEC op of any function: it runs at once, or waits in the vector engine for a FULL entry (R123). -/
def vecOp (s : State) (p : Site) (h : OpHead) (fn : VecFn) (a : VecArgs) : State :=
  let pl := vecPlan s p h fn a
  s.issue p h pl (fun s => if pl.finish = .plain then vecRun s p fn a false else s)

/-- A RED op's source rows (R143). -/
def redRows (k : Core) (guest : Bool) (a : RedArgs) : List (List Word) :=
  match placeOf k guest a.lsStride.toNat a.src with
  | some pl => (List.range (RedArgs.n a)).map (rowRead k pl 4)
  | none => []

/-- A RED op that reads its own source (R143, R144). -/
def redRun (s : State) (p : Site) (fn : RedFn) (a : RedArgs) : State :=
  let k := s.core (Site.no p)
  let k1 := redApply fn a p.guest (redRows k p.guest a) k
  s.setCore (Site.no p) (if isTq a.src then tqTouch k1 p.guest a.pop else k1)

/-- The faults of a RED op (R139, R146, R172, R177); a destination of kind 0 is none of them. -/
def redFault (s : State) (p : Site) (tap : Bool) (a : RedArgs) : Option Nat :=
  let f := specFault (s.core (Site.no p)) (Site.no p) p.guest
  faultOf [
    need (specRsvOk a.d && specRsvOk a.src) 0x01,
    if isNone a.d then none else f true a.lsStride.toNat 4 (redLines a) a.d,
    if tap then none else f false a.lsStride.toNat 4 (RedArgs.n a) a.src,
    need (!a.pop || (!tap && isTq a.src)) 0x06]

/-- The plan of a RED op (R145, R173, R350: 0.05 nJ a row). -/
def redPlan (s : State) (p : Site) (h : OpHead) (fn : RedFn) (tap : Bool) (a : RedArgs) : Plan :=
  let k := s.core (Site.no p)
  { word := redWord fn tap h a, unit := some .reduction
    reads := if tap then [] else rangesOf k p.guest a.lsStride.toNat 4 (RedArgs.n a) a.src
    writes := rangesOf k p.guest a.lsStride.toNat 4 (redLines a) a.d
    regsR := specRegs a.d ++ specRegs a.src
    regsW := if !tap && isTq a.src then [16] else []
    cost := 5, units := RedArgs.n a, doneCtr := some Ctr.redOps
    fault := redFault s p tap a
    finish := if tap then .tapWait fn a (k.ctx p.guest).sregs (k.ctx p.guest).hdr
      else if isTq a.src && (k.tqFull p.guest).isNone then
        .deferred { op := .red fn a, sregs := (k.ctx p.guest).sregs, hdr := (k.ctx p.guest).hdr }
      else .plain }

/-- A RED op of any function that reads a source (R143). -/
def redOp (s : State) (p : Site) (h : OpHead) (fn : RedFn) (a : RedArgs) : State :=
  let pl := redPlan s p h fn false a
  s.issue p h pl (fun s => if pl.finish = .plain then redRun s p fn a else s)

/-- The tile register that a spec names. -/
def taOf : Spec → Option Nat
  | .ta n _ => some n.toNat
  | _ => none

/-- The fault of a tile-register operand (R146, R177). -/
def taFault (no : Nat) (guest : Bool) (sp : Spec) : Option Nat :=
  match taOf sp with
  | some n => if isAnchor no && guest == decide (12 ≤ n) then none else some 0x05
  | none => if isAnchor no then some 0x06 else some 0x05

/-- Element (i, j) of a tile register. -/
def taGet (k : Core) (n i j : Nat) : Word := BitVec.ofNat 32 (k.ta.readLE (taAddr n i j) 4)
/-- Write a tile register, 1,024 words row-major. -/
def taPut (k : Core) (n : Nat) (vs : List Word) : Core :=
  { k with ta := k.ta.writeList (taAddr n 0 0) ((vs.map (fun v => leBytes 4 v.toNat)).flatten) }

/-- TLOAD's quadrant of a 64-row source (R146). -/
def tloadRun (s : State) (p : Site) (a : VecArgs) : State :=
  let k := s.core (Site.no p)
  let q := a.ext.toNat % 4
  match taOf a.d, placeOf k p.guest a.lsStride.toNat a.a with
  | some n, some src =>
    let vs := (List.range 32).map (fun i =>
      ((rowRead k src 4 (32 * (q / 2) + i)).drop (32 * (q % 2))).take 32)
    let k := taPut k n vs.flatten
    s.setCore (Site.no p) (if isTq a.a then tqTouch k p.guest a.pop else k)
  | _, _ => s

/-- The plan of a tile-register op between two operands: unit, ranges and charge (R146, R350: 0.05 nJ a row). -/
def taPlan (h : OpHead) (fn : Nat) (a : VecArgs) (src dst : List Rng) (tq : Bool) (fault : Option Nat) : Plan :=
  { word := vecWord fn h a, unit := some .vector, reads := src, writes := dst
    regsR := specRegs a.d ++ specRegs a.a, regsW := if tq then [16] else []
    cost := 5, units := 32, doneCtr := some Ctr.taOps, fault := fault }
/-- The 32 rows of quadrant `q` of a 64-row operand as tracked ranges (R146, R173). -/
def quadRanges (c : Core) (guest : Bool) (lsStride q : Nat) : Spec → List Rng
  | .oc line st => [{ sp := .oc, lo := (c.ctx guest).hdr.ocBase + line.toNat + 32 * (q / 2) * st.toNat, n := rowSpan 4 32 st.toNat }]
  | .ls s off => [{ sp := .ls, lo := (c.ctx guest).line ⟨s, off.zeroExtend 14⟩ + 32 * (q / 2) * lsStride, n := rowSpan 4 32 lsStride }]
  | _ => []
/-- The fault of quadrant `q` of a 64-row operand (R138, R139, R146, R172, R177): only the rows of the quadrant are touched. -/
def quadFault (c : Core) (guest wr : Bool) (lsStride q : Nat) : Spec → Option Nat
  | .oc line st => need (line.toNat + 32 * (q / 2) * st.toNat + rowSpan 4 32 st.toNat ≤ (c.ctx guest).hdr.ocLines) 0x04
  | .ls s off => need (linesOk c.chestLines guest wr ((c.ctx guest).line ⟨s, off.zeroExtend 14⟩ + 32 * (q / 2) * lsStride)
      (rowSpan 4 32 lsStride)) 0x03
  | .tq row0 _ => need (!wr && decide (row0.toNat + 32 * (q / 2) + 31 ≤ 63)) 0x06
  | _ => some 0x06

/-- The plan of a TLOAD (R146, R177): with a TQ source and no FULL entry it waits in the vector engine (R123). -/
def tloadPlan (s : State) (p : Site) (h : OpHead) (a : VecArgs) : Plan :=
  let k := s.core (Site.no p)
  let q := a.ext.toNat % 4
  let pl := taPlan h 0x50 a (quadRanges k p.guest a.lsStride.toNat q a.a) (rangesOf k p.guest 0 4 1 a.d) (isTq a.a) (faultOf [
    need (specRsvOk a.d && specRsvOk a.a && specRsvOk a.b && specRsvOk a.c && decide (a.ext.toNat < 4)) 0x01,
    taFault (Site.no p) p.guest a.d, quadFault k p.guest false a.lsStride.toNat q a.a, need (!a.pop || isTq a.a) 0x06])
  if isTq a.a && (k.tqFull p.guest).isNone then
    { pl with finish := .deferred { op := .tload a, sregs := (k.ctx p.guest).sregs, hdr := (k.ctx p.guest).hdr } } else pl
/-- TLOAD (R146). -/
def tloadOp (s : State) (p : Site) (h : OpHead) (a : VecArgs) : State :=
  let pl := tloadPlan s p h a
  s.issue p h pl (fun s => if pl.finish = .plain then tloadRun s p a else s)

/-- TSTORE's quadrant of a 64-row destination; the other lanes stay (R146). -/
def tstoreRun (s : State) (p : Site) (a : VecArgs) : State :=
  let k := s.core (Site.no p)
  let q := a.ext.toNat % 4
  match taOf a.a, placeOf k p.guest a.lsStride.toNat a.d with
  | some n, some dst =>
    s.setCore (Site.no p) ((List.range 32).foldl (fun k' i =>
      rowWrite k' dst 4 (32 * (q / 2) + i) (32 * (q % 2)) ((List.range 32).map (taGet k n i))) k)
  | _, _ => s

/-- The plan of a TSTORE (R146, R177). -/
def tstorePlan (s : State) (p : Site) (h : OpHead) (a : VecArgs) : Plan :=
  let k := s.core (Site.no p)
  let q := a.ext.toNat % 4
  taPlan h 0x51 a (rangesOf k p.guest 0 4 1 a.a) (quadRanges k p.guest a.lsStride.toNat q a.d) false (faultOf [
    need (specRsvOk a.d && specRsvOk a.a && specRsvOk a.b && specRsvOk a.c && decide (a.ext.toNat < 4)) 0x01,
    taFault (Site.no p) p.guest a.a, quadFault k p.guest true a.lsStride.toNat q a.d, need (!a.pop) 0x06])
/-- TSTORE (R146). -/
def tstoreOp (s : State) (p : Site) (h : OpHead) (a : VecArgs) : State :=
  s.issue p h (tstorePlan s p h a) (fun s => tstoreRun s p a)

/-- TRED's function from EXT[2:0] (R146, R177). -/
def tredFn (ext : Nat) : Option RedFn :=
  match ext % 8 with
  | 0 => some .max
  | 1 => some .min
  | 2 => some .maxabs
  | 3 => some .sum
  | 4 => some .ssq
  | _ => none

/-- TRED's 32 results: over j within each row, or over i within each column, by the pairwise tree (R146, R147). -/
def tredResults (k : Core) (n : Nat) (fn : RedFn) (axis1 : Bool) : List Word :=
  (List.range 32).map (fun v => Red.treeOf fn false 5
    ((List.range 32).map (fun w => if axis1 then taGet k n w v else taGet k n v w)))

/-- TRED writes lanes 0-31, or with HALF lanes 32-63, of an operand-cache line (R146). -/
def tredRun (s : State) (p : Site) (a : VecArgs) : State :=
  let k := s.core (Site.no p)
  match taOf a.a, placeOf k p.guest a.lsStride.toNat a.d, tredFn a.ext.toNat with
  | some n, some dst, some fn =>
    s.setCore (Site.no p)
      (rowWrite k dst 4 0 (if a.ext.getLsbD 4 then 32 else 0) (tredResults k n fn (a.ext.getLsbD 3)))
  | _, _, _ => s

/-- Whether a spec is of kind OC. -/
def isOc : Spec → Bool
  | .oc _ _ => true
  | _ => false

/-- The plan of a TRED (R146, R177). -/
def tredPlan (s : State) (p : Site) (h : OpHead) (a : VecArgs) : Plan :=
  let k := s.core (Site.no p)
  let rg (sp : Spec) := rangesOf k p.guest 0 4 1 sp
  taPlan h 0x52 a (rg a.a) (rg a.d) false (faultOf [
    need (specRsvOk a.d && specRsvOk a.a && specRsvOk a.b && specRsvOk a.c && (tredFn a.ext.toNat).isSome) 0x01,
    taFault (Site.no p) p.guest a.a, need (isOc a.d) 0x06,
    specFault k (Site.no p) p.guest true 0 4 1 a.d, need (!a.pop) 0x06])
/-- TRED (R146). -/
def tredOp (s : State) (p : Site) (h : OpHead) (a : VecArgs) : State :=
  s.issue p h (tredPlan s p h a) (fun s => tredRun s p a)

/-- TBIN's operation from EXT[2:0] (R177). -/
def tbinOp (ext : Nat) : Option TbinOp :=
  match ext % 8 with
  | 0 => some .fadd
  | 1 => some .fsub
  | 2 => some .fmul
  | 3 => some .fmax
  | 4 => some .fmin
  | _ => none

/-- TBIN (R146): each element meets v[i] for AXIS 0, v[j] for AXIS 1, of the half that HALF names. D names the register and A, the operand
that every VEC function reads (R177), the vector (log 23). -/
def tbinRun (s : State) (p : Site) (a : VecArgs) : State :=
  let k := s.core (Site.no p)
  match taOf a.d, placeOf k p.guest 0 a.a, tbinOp a.ext.toNat with
  | some n, some src, some op =>
    let v := (rowRead k src 4 0).drop (if a.ext.getLsbD 4 then 32 else 0)
    s.setCore (Site.no p) (taPut k n (((List.range 32).map (fun i => (List.range 32).map (fun j =>
      Tbin.apply op (taGet k n i j) (v.getD (if a.ext.getLsbD 3 then j else i) 0#32)))).flatten))
  | _, _, _ => s

/-- Whether a spec is of kind IMM. -/
def isImm : Spec → Bool
  | .imm _ _ => true
  | _ => false

/-- The plan of a TBIN (R146, R177). -/
def tbinPlan (s : State) (p : Site) (h : OpHead) (a : VecArgs) : Plan :=
  let k := s.core (Site.no p)
  let rg (sp : Spec) := rangesOf k p.guest 0 4 1 sp
  taPlan h 0x53 a (rg a.d ++ rg a.a) (rg a.d) false (faultOf [
    need (specRsvOk a.d && specRsvOk a.a && specRsvOk a.b && specRsvOk a.c && (tbinOp a.ext.toNat).isSome) 0x01,
    taFault (Site.no p) p.guest a.d, need (isOc a.a || isImm a.a) 0x06,
    specFault k (Site.no p) p.guest false 0 4 1 a.a, need (!a.pop) 0x06])
/-- TBIN (R146). -/
def tbinExec (s : State) (p : Site) (h : OpHead) (a : VecArgs) : State :=
  s.issue p h (tbinPlan s p h a) (fun s => tbinRun s p a)

/-- IADD (R134). -/
def execIadd (p : Site) (h : OpHead) (v : VecArgs) (s : State) : Host.Outcome State Fault Refusal :=
  .next (vecOp s p h .iadd v)
/-- ISUB (R134). -/
def execIsub (p : Site) (h : OpHead) (v : VecArgs) (s : State) : Host.Outcome State Fault Refusal :=
  .next (vecOp s p h .isub v)
/-- IMUL (R134). -/
def execImul (p : Site) (h : OpHead) (v : VecArgs) (s : State) : Host.Outcome State Fault Refusal :=
  .next (vecOp s p h .imul v)
/-- IMIN (R134). -/
def execImin (p : Site) (h : OpHead) (v : VecArgs) (s : State) : Host.Outcome State Fault Refusal :=
  .next (vecOp s p h .imin v)
/-- IMAX (R134). -/
def execImax (p : Site) (h : OpHead) (v : VecArgs) (s : State) : Host.Outcome State Fault Refusal :=
  .next (vecOp s p h .imax v)
/-- IABS (R134). -/
def execIabs (p : Site) (h : OpHead) (v : VecArgs) (s : State) : Host.Outcome State Fault Refusal :=
  .next (vecOp s p h .iabs v)
/-- INEG (R134). -/
def execIneg (p : Site) (h : OpHead) (v : VecArgs) (s : State) : Host.Outcome State Fault Refusal :=
  .next (vecOp s p h .ineg v)
/-- ICMPEQ (R134). -/
def execIcmpeq (p : Site) (h : OpHead) (v : VecArgs) (s : State) : Host.Outcome State Fault Refusal :=
  .next (vecOp s p h .icmpeq v)
/-- ICMPLT (R134). -/
def execIcmplt (p : Site) (h : OpHead) (v : VecArgs) (s : State) : Host.Outcome State Fault Refusal :=
  .next (vecOp s p h .icmplt v)
/-- SHL (R134). -/
def execShl (p : Site) (h : OpHead) (v : VecArgs) (s : State) : Host.Outcome State Fault Refusal :=
  .next (vecOp s p h .shl v)
/-- SHR (R134). -/
def execShr (p : Site) (h : OpHead) (v : VecArgs) (s : State) : Host.Outcome State Fault Refusal :=
  .next (vecOp s p h .shr v)
/-- SRA (R134). -/
def execSra (p : Site) (h : OpHead) (v : VecArgs) (s : State) : Host.Outcome State Fault Refusal :=
  .next (vecOp s p h .sra v)
/-- AND (R134). -/
def execAndOp (p : Site) (h : OpHead) (v : VecArgs) (s : State) : Host.Outcome State Fault Refusal :=
  .next (vecOp s p h .and v)
/-- OR (R134). -/
def execOrOp (p : Site) (h : OpHead) (v : VecArgs) (s : State) : Host.Outcome State Fault Refusal :=
  .next (vecOp s p h .or v)
/-- XOR (R134). -/
def execXorOp (p : Site) (h : OpHead) (v : VecArgs) (s : State) : Host.Outcome State Fault Refusal :=
  .next (vecOp s p h .xor v)
/-- ANDN (R134). -/
def execAndn (p : Site) (h : OpHead) (v : VecArgs) (s : State) : Host.Outcome State Fault Refusal :=
  .next (vecOp s p h .andn v)
/-- SEL (R134). -/
def execSel (p : Site) (h : OpHead) (v : VecArgs) (s : State) : Host.Outcome State Fault Refusal :=
  .next (vecOp s p h .sel v)
/-- MOV (R134). -/
def execMov (p : Site) (h : OpHead) (v : VecArgs) (s : State) : Host.Outcome State Fault Refusal :=
  .next (vecOp s p h .mov v)
/-- FADD (R134). -/
def execFadd (p : Site) (h : OpHead) (v : VecArgs) (s : State) : Host.Outcome State Fault Refusal :=
  .next (vecOp s p h .fadd v)
/-- FSUB (R134). -/
def execFsub (p : Site) (h : OpHead) (v : VecArgs) (s : State) : Host.Outcome State Fault Refusal :=
  .next (vecOp s p h .fsub v)
/-- FMUL (R134). -/
def execFmul (p : Site) (h : OpHead) (v : VecArgs) (s : State) : Host.Outcome State Fault Refusal :=
  .next (vecOp s p h .fmul v)
/-- FFMA (R134). -/
def execFfma (p : Site) (h : OpHead) (v : VecArgs) (s : State) : Host.Outcome State Fault Refusal :=
  .next (vecOp s p h .ffma v)
/-- FMIN (R134). -/
def execFmin (p : Site) (h : OpHead) (v : VecArgs) (s : State) : Host.Outcome State Fault Refusal :=
  .next (vecOp s p h .fmin v)
/-- FMAX (R134). -/
def execFmax (p : Site) (h : OpHead) (v : VecArgs) (s : State) : Host.Outcome State Fault Refusal :=
  .next (vecOp s p h .fmax v)
/-- FABS (R134). -/
def execFabs (p : Site) (h : OpHead) (v : VecArgs) (s : State) : Host.Outcome State Fault Refusal :=
  .next (vecOp s p h .fabs v)
/-- FNEG (R134). -/
def execFneg (p : Site) (h : OpHead) (v : VecArgs) (s : State) : Host.Outcome State Fault Refusal :=
  .next (vecOp s p h .fneg v)
/-- FCMPEQ (R134). -/
def execFcmpeq (p : Site) (h : OpHead) (v : VecArgs) (s : State) : Host.Outcome State Fault Refusal :=
  .next (vecOp s p h .fcmpeq v)
/-- FCMPLT (R134). -/
def execFcmplt (p : Site) (h : OpHead) (v : VecArgs) (s : State) : Host.Outcome State Fault Refusal :=
  .next (vecOp s p h .fcmplt v)
/-- FCMPLE (R134). -/
def execFcmple (p : Site) (h : OpHead) (v : VecArgs) (s : State) : Host.Outcome State Fault Refusal :=
  .next (vecOp s p h .fcmple v)
/-- CVT_F32_I32 (R134). -/
def execCvtF32I32 (p : Site) (h : OpHead) (v : VecArgs) (s : State) : Host.Outcome State Fault Refusal :=
  .next (vecOp s p h .cvtF32I32 v)
/-- CVT_I32_F32 (R134). -/
def execCvtI32F32 (p : Site) (h : OpHead) (v : VecArgs) (s : State) : Host.Outcome State Fault Refusal :=
  .next (vecOp s p h .cvtI32F32 v)
/-- CVT_TO_BF16 (R134). -/
def execCvtToBf16 (p : Site) (h : OpHead) (v : VecArgs) (s : State) : Host.Outcome State Fault Refusal :=
  .next (vecOp s p h .cvtToBf16 v)
/-- CVT_TO_FP16 (R134). -/
def execCvtToFp16 (p : Site) (h : OpHead) (v : VecArgs) (s : State) : Host.Outcome State Fault Refusal :=
  .next (vecOp s p h .cvtToFp16 v)
/-- CVT_TO_E5M2 (R134). -/
def execCvtToE5m2 (p : Site) (h : OpHead) (v : VecArgs) (s : State) : Host.Outcome State Fault Refusal :=
  .next (vecOp s p h .cvtToE5m2 v)
/-- CVT_TO_E4M3 (R134). -/
def execCvtToE4m3 (p : Site) (h : OpHead) (v : VecArgs) (s : State) : Host.Outcome State Fault Refusal :=
  .next (vecOp s p h .cvtToE4m3 v)
/-- CVT_FROM_BF16 (R134). -/
def execCvtFromBf16 (p : Site) (h : OpHead) (v : VecArgs) (s : State) : Host.Outcome State Fault Refusal :=
  .next (vecOp s p h .cvtFromBf16 v)
/-- CVT_FROM_FP16 (R134). -/
def execCvtFromFp16 (p : Site) (h : OpHead) (v : VecArgs) (s : State) : Host.Outcome State Fault Refusal :=
  .next (vecOp s p h .cvtFromFp16 v)
/-- CVT_FROM_E5M2 (R134). -/
def execCvtFromE5m2 (p : Site) (h : OpHead) (v : VecArgs) (s : State) : Host.Outcome State Fault Refusal :=
  .next (vecOp s p h .cvtFromE5m2 v)
/-- CVT_FROM_E4M3 (R134). -/
def execCvtFromE4m3 (p : Site) (h : OpHead) (v : VecArgs) (s : State) : Host.Outcome State Fault Refusal :=
  .next (vecOp s p h .cvtFromE4m3 v)
/-- RED MAX (R143). -/
def execMax (p : Site) (h : OpHead) (r : RedArgs) (s : State) : Host.Outcome State Fault Refusal :=
  .next (redOp s p h .max r)
/-- RED MIN (R143). -/
def execMin (p : Site) (h : OpHead) (r : RedArgs) (s : State) : Host.Outcome State Fault Refusal :=
  .next (redOp s p h .min r)
/-- RED MAXABS (R143). -/
def execMaxabs (p : Site) (h : OpHead) (r : RedArgs) (s : State) : Host.Outcome State Fault Refusal :=
  .next (redOp s p h .maxabs r)
/-- RED SUM (R143). -/
def execSum (p : Site) (h : OpHead) (r : RedArgs) (s : State) : Host.Outcome State Fault Refusal :=
  .next (redOp s p h .sum r)
/-- RED SSQ (R143). -/
def execSsq (p : Site) (h : OpHead) (r : RedArgs) (s : State) : Host.Outcome State Fault Refusal :=
  .next (redOp s p h .ssq r)
/-- RED NORM (R143). -/
def execNorm (p : Site) (h : OpHead) (r : RedArgs) (s : State) : Host.Outcome State Fault Refusal :=
  .next (redOp s p h .norm r)
/-- RED COUNT_NF (R143). -/
def execCountNf (p : Site) (h : OpHead) (r : RedArgs) (s : State) : Host.Outcome State Fault Refusal :=
  .next (redOp s p h .countNf r)
/-- A RED op with TAP set (R143): it waits in the reduction unit for the next VEC op of its context. -/
def execTap (p : Site) (h : OpHead) (fn : RedFn) (r : RedArgs) (s : State) : Host.Outcome State Fault Refusal :=
  .next (s.issue p h (redPlan s p h fn true r) id)
/-- TLOAD (R146). -/
def execTload (p : Site) (h : OpHead) (v : VecArgs) (s : State) : Host.Outcome State Fault Refusal :=
  .next (tloadOp s p h v)
/-- TSTORE (R146). -/
def execTstore (p : Site) (h : OpHead) (v : VecArgs) (s : State) : Host.Outcome State Fault Refusal :=
  .next (tstoreOp s p h v)
/-- TRED (R146). -/
def execTred (p : Site) (h : OpHead) (v : VecArgs) (s : State) : Host.Outcome State Fault Refusal :=
  .next (tredOp s p h v)
/-- TBIN (R146). -/
def execTbin (p : Site) (h : OpHead) (v : VecArgs) (s : State) : Host.Outcome State Fault Refusal :=
  .next (tbinExec s p h v)

end Sys2Proof.Machine
end

