-- ==== Sys2Proof/Machine/ProductOps.lean ====
section
/-! DEFINITION. MATMUL and WMATMUL, the completion of ops, shadow-play, the piggy bank's clear, and guest dispatch (R101 to R106,
R109 to R130, R174, R192). -/

namespace Sys2Proof.Machine

/-- The words of a window, row-major. -/
def winList (m : SMap Word) : List Word := SMap.getList 0#32 m 0 4096
/-- A window from its words. -/
def ofWinList (l : List Word) : SMap Word := (l.zipIdx.filter (fun e => !decide (e.1 = 0#32))).map (fun e => (e.2, e.1))

/-- Pay an energy unit from the context's purse (R350, R354), or count the wait and note what it needs. -/
def State.payUnit (s : State) (p : Site) (cost : Nat) : State × Bool :=
  let d := dieOf (Site.no p)
  let ch := chargeAt cost (s.gov d).clock
  let t := s.ctx p
  if ch ≤ t.purse then
    ((s.setCtx p { t with purse := t.purse - ch, needCharge := 0 }).setGov d { s.gov d with ledger := (s.gov d).ledger + ch }, true)
  else
    ((s.setCtx p { t with needCharge := ch }).count (ckCtx (if p.guest then Ctr.guestDeniedCycles else Ctr.tokenWaitCycles) p), false)

/-- RN of the layer mode entry of a layer (R94, R97): 1 when no mode slot of the core holds it. -/
def Ctx.rnOf (t : Ctx) (layer : Nat) : Bool :=
  match t.modeLayers.findIdx? (fun l => decide (l = layer)) with
  | some i => (t.mode i).getLsbD 9
  | none => true
/-- The layer mode entry of a layer, with the reset value when no mode slot holds it (R97). -/
def Ctx.modeOf (t : Ctx) (layer : Nat) : Word :=
  match t.modeLayers.findIdx? (fun l => decide (l = layer)) with
  | some i => t.mode i
  | none => 0x200#32

/-- The descriptor index of a MATMUL operand: its own, or that of its JOIN channel (R187). -/
def matIndex (t : Ctx) (join : Bool) (i : Nat) : Nat := if join then (t.chan i).desc else i
/-- The descriptor of a MATMUL operand: a table entry, or that of a JOIN channel. -/
def matDesc (c : Core) (t : Ctx) (join : Bool) (i : Nat) : Option (Nat × TDesc) :=
  if join && !((t.chan i).bound && (t.chan i).join) then none else descAt c t.hdr (matIndex t join i)
/-- The descriptors of a product in the nibble array, by the tables of its issue (R131). -/
def MatRun.descA (m : MatRun) (c : Core) : Option (Nat × TDesc) := descAt c m.hdr m.aDesc
/-- That of the held operand. -/
def MatRun.descB (m : MatRun) (c : Core) : Option (Nat × TDesc) := descAt c m.hdr m.bDesc
/-- The byte ranges of a run of `n` stored tiles from `tile` on: of the kite words all that the directory gives the run, surplus ones too
(DESIGN CHOICE, log 73). -/
def runRanges (c : Core) (d : TDesc) (tile n : Nat) : List (Nat × Nat) :=
  let rd (a : Nat) : Byte := c.lmem.read (a % 2 ^ 32)
  let k0 := Coding.dirWord rd d tile
  (List.range ((if d.fmt = Coding.fmtS4 then d.planeLimit else 0) + 1)).map
    (fun k => (d.codes + k * d.planeStride * 256 + 2048 * tile, 2048 * n)) ++
  [(d.blockw + 256 * tile, 256 * n), (d.kiteDir + 4 * tile, 4 * n), (d.kite + 4 * k0, 4 * (Coding.dirWord rd d (tile + n) - k0))]
/-- The address checks of one operand's run (R109, R172). -/
def runFault (c : Core) (guest join : Bool) (d : TDesc) (tile n : Nat) : Option Nat :=
  faultOf [
    need (decide (tile + n ≤ Coding.tileCount d) && decide (tile % Coding.tileCols d + n ≤ Coding.tileCols d)) 0x03,
    need (join || (runRanges c d tile n).all (fun r => (localOff r.1).isSome && localOk c.chestLines guest false (r.1 % 2 ^ 32) r.2)) 0x03]

/-- Whether a window is held for a CONT op once a MATMUL has issued (R176): a HOLD op leaves one, and a CONT op to another destination
takes it; a MATMUL that does neither leaves it as it is. -/
def winAfter (t : Ctx) (a : MatmulArgs) : Bool :=
  if a.dest = 0#3 then true else if a.cont then false else t.winOpen

/-- The faults of a MATMUL (R109, R176, R177, R183). -/
def matFault (c : Core) (t : Ctx) (guest : Bool) (a : MatmulArgs) : Option Nat :=
  let n := a.nchunkM1.toNat + 1
  let dest := a.dest.toNat
  let da := matDesc c t a.aJ a.a.toNat
  let db := matDesc c t a.bJ a.b.toNat
  faultOf [
    need (dest ≤ 4) 0x01,
    need (!a.aJ || (t.chan a.a.toNat).join) 0x09, need (!a.bJ || (t.chan a.b.toNat).join) 0x09,
    need (da.isSome && db.isSome) 0x03,
    match da, db with
    | some (_, x), some (_, y) => faultOf [
        need (Coding.validDesc x && Coding.validDesc y && (y.fmt == Coding.fmtB4 || y.fmt == Coding.fmtU4) && Coding.is4bit x.fmt &&
          decide (x.cols = y.cols) && decide (x.rotN = y.rotN) && decide (x.layer = y.layer) && decide (x.axis = y.axis) &&
          !a.transpose) 0x02,
        runFault c guest a.aJ x (t.tile a.aTix) n, runFault c guest a.bJ y (t.tile a.bTix) n,
        need (decide (t.tile a.aTix % Coding.tileCols x = t.tile a.bTix % Coding.tileCols y)) 0x03]
    | _, _ => none,
    need (!a.cont || t.winOpen) 0x06, need (!(guest && decide (2 ≤ dest))) 0x06, need (decide (dest < 3) || t.hdr.bxValid) 0x06]

/-- The op word of a MATMUL (R176); a transposing flag would be the reserved flag F1. -/
def matWord (h : OpHead) (a : MatmulArgs) : Nat :=
  opWord 0x32 (b2n a.cont + 2 * b2n a.transpose) h [(88, a.a.toNat), (72, tixBits a.aTix), (64, a.b.toNat), (48, tixBits a.bTix),
    (36, a.nchunkM1.toNat), (33, a.dest.toNat), (27, a.slot.toNat), (11, tixBits a.out), (7, a.mb.toNat), (6, b2n a.aJ), (5, b2n a.bJ)]

/-- A MATMUL as it stands in the nibble array at its issue (R131): nothing formed yet. -/
def matStart (t : Ctx) (a : MatmulArgs) : MatRun :=
  { args := a, hdr := t.hdr, aDesc := matIndex t a.aJ a.a.toNat, bDesc := matIndex t a.bJ a.b.toNat, aTile := t.tile a.aTix, bTile := t.tile a.bTix, out := BitVec.ofNat 32 (t.tile a.out)
    mb := (t.sreg a.mb).truncate 16, done := 0, acc := [], wide := false }
/-- The plan of a MATMUL (R115, R173); a drain to the bank extension writes the 64 lines of the staging area (R127), and a product of slot 0
waits for its layer's gathered tensor (R23). -/
def matPlan (s : State) (p : Site) (h : OpHead) (a : MatmulArgs) : Plan :=
  let c := s.core (Site.no p)
  let t := c.ctx p.guest
  let n := a.nchunkM1.toNat + 1
  let rg (join : Bool) (i tile : Nat) : List Rng := if join then [] else
    match descAt c t.hdr i with
    | some (_, d) => (runRanges c d tile n).map (fun r => lsRange (r.1 % 2 ^ 32) r.2)
    | none => []
  { word := matWord h a, unit := some .nibble, reads := rg a.aJ a.a.toNat (t.tile a.aTix) ++ rg a.bJ a.b.toNat (t.tile a.bTix)
    writes := if 3 ≤ a.dest.toNat then [{ sp := .ls, lo := t.hdr.bxLine, n := 64 }] else []
    hold := match matDesc c t a.aJ a.a.toNat with
      | some (_, d) => decide (t.slot = 0) && (s.slot 0).gathering d.layer d.axis
      | none => false
    on := (matDesc c t a.aJ a.a.toNat).map (fun x => .gather x.2.layer x.2.axis)
    regsR := [a.aTix.s.toNat, a.bTix.s.toNat, a.out.s.toNat, a.mb.toNat], finish := .matmul (matStart t a)
    fault := matFault c t p.guest a }
/-- A product of slot 0 that can use no gathered copy of its layer, because it was discarded, has it gathered again (R251). -/
def State.regatherFor (s : State) (p : Site) (a : MatmulArgs) : State :=
  match s.runs p && decide ((s.ctx p).slot = 0), matDesc (s.core (Site.no p)) (s.ctx p) a.aJ a.a.toNat with
  | true, some (_, d) => if d.axis < 2 then s.regather d.layer d.axis else s
  | _, _ => s
/-- MATMUL (R109, R115): the op goes to the nibble array, which forms its chunks as operands arrive and energy is there. -/
def execMatmul (p : Site) (h : OpHead) (a : MatmulArgs) (s : State) : Host.Outcome State Fault Refusal :=
  let s := s.regatherFor p a
  .next (s.issue p h (matPlan s p h a) (fun s => s.modCtx p (fun t => { t with winOpen := winAfter t a })))

/-- An operand tile as the arrays take it: its blocks, the lines of a tile that came by the wide path, what it reports, and the
joiner slot it leaves. -/
structure MatIn where
  ot : OpTile
  lines : Option (List (List Word)) := none
  malformed : List Nat := []
  unresolved : Nat := 0
  from' : Option JTile := none
  deriving DecidableEq, Repr

/-- c_n of R55. -/
def foldFactor (rotN : Nat) : Word := [0x3F800000#32, 0x3E3504F3#32, 0x3E000000#32, 0x3DB504F3#32, 0x3D800000#32].getD rotN 0x3F800000#32
/-- The wide source of a joiner tile as 64 lines (R83, R190), multiplied by c_n under a rotation. -/
def JTile.wideLines (j : JTile) (d : TDesc) : List (List Word) :=
  let ls := Coding.readWide (wordBytes j.wideSrc) 0 j.wideFmt false
  if d.rotN = 0 then ls else ls.map (fun l => l.map (fun v => Fp.mulRne v (foldFactor d.rotN)))

/-- The operand tile `tile` of a MATMUL, once it is there (R79, R83, R457): from local store, or from the joiner's channel `i`. -/
def State.matIn (s : State) (p : Site) (desc : Option (Nat × TDesc)) (join : Bool) (i tile : Nat) : Option MatIn :=
  let c := s.core (Site.no p)
  match desc with
  | none => none
  | some (_, d) =>
    if !join then
      let rd (a : Nat) : Byte := c.lmem.read (a % 2 ^ 32)
      let r := Coding.readTile rd d false tile
      some { ot := { blks := r.blks, fmt := d.fmt, g := d.g, bws := Coding.blockWords rd d tile }, malformed := Coding.malformedSeqs d tile r }
    else match c.joiner.find? (fun j => decide (j.ch = i) && j.guest == p.guest && decide (j.tile = tile)) with
      | none => none
      | some j =>
        if j.mark = .ready then
          let r := j.blocks d false
          some { ot := { blks := r.blks, fmt := d.fmt, g := d.g, bws := Coding.blockWords j.rd (j.desc d) 0 }, malformed := r.malformed, from' := some j }
        else if j.mark = .wideReady then
          if j.wideSrc.isEmpty then
            let rd (a : Nat) : Byte := s.mem.at (devPart a) (devOff a)
            let r := Coding.readTile rd d true tile
            let ot : OpTile := { blks := r.blks, fmt := d.fmt, g := d.g, bws := Coding.blockWords rd d tile }
            some { ot := ot, lines := some (Prod.decodeTile ot), malformed := Coding.malformedSeqs d tile r
                   unresolved := r.unresolved.length, from' := some j }
          else some { ot := { blks := [], fmt := d.fmt, g := d.g, bws := [] }, lines := some (j.wideLines d), from' := some j }
        else none

/-- A consumed joiner tile: its slot is free and each sender has its tile credit (R79). -/
def State.dropTile (s : State) (p : Site) (d : TDesc) (j : JTile) : State :=
  let s := s.modCore (Site.no p) (fun c => { c with joiner := c.joiner.erase j })
  (j.senders.map (fun x => { jigsawMsg s p x 2 j.ch (firstSeq d j.tile) with arg := 1#12 })).foldl State.inject s
/-- The reports of an operand tile (R46, R83): malformed blocks with their events, unresolved ones. -/
def State.reportTile (s : State) (p : Site) (addr : Nat) (d : TDesc) (x : MatIn) : State :=
  let s := s.count (ckLayer Ctr.codingMalformed p d.layer d.axis) x.malformed.length
  let s := s.count (ckLayer Ctr.jigsawUnresolved p d.layer d.axis) x.unresolved
  x.malformed.foldl (fun (s : State) q => s.post 0x0101 .fault (some (s.ctx p).slot) (unitRef 0 (coreRef (Site.no p)))
    (payload [(8, addr), (2, q), (2, coreRef (Site.no p))])) s

/-- How a chunk runs (R93, R116): skipped, on the wide array, or in passes on the nibble array with its energy units in 0.01 nJ. -/
inductive ChunkKind where
  | zero | wide (tileFb : Bool) | nibble (passes side : Nat)
  deriving DecidableEq, Repr
/-- Whether an operand tile has ZERO = 128 (R116); a tile that came as its wide source has no block words and no such count. -/
def MatIn.zero (x : MatIn) : Bool := !x.ot.bws.isEmpty && Prod.allZero x.ot
/-- The kind of a chunk of two operand tiles: a chunk with a tile of ZERO = 128 is not moved to the wide array (R93, R116). -/
def chunkKind (x y : MatIn) : ChunkKind :=
  if x.zero || y.zero then .zero
  else if x.lines.isSome || y.lines.isSome then .wide false
  else if Prod.tooMany x.ot || Prod.tooMany y.ot then .wide true
  else .nibble (Prod.passes x.ot) (Prod.sideCount x.ot y.ot)
/-- The cycles of pass 1 (R117). -/
def pass1 (side : Nat) : Nat := max 64 ((side + 255) / 256)
/-- The energy units of a chunk and the cost of one (R95, R350). -/
def ChunkKind.energy : ChunkKind → Nat × Nat
  | .zero => (0, 0)
  | .wide _ => (1, 20000)
  | .nibble n side => ((pass1 side + 63) / 64 + (n - 1), 3800)

/-- Form a chunk into the window (R94, R115) with its counts (R107, R130). -/
def State.formChunk (s : State) (p : Site) (m : MatRun) (d : TDesc) (x y : MatIn) : State × MatRun :=
  let t := s.ctx p
  let ck (id : Nat) : CKey := ckLayer id p d.layer d.axis
  let base := if m.done = 0 ∧ m.args.cont then (t.win.map (fun w => w.acc)).getD [] else m.acc
  let wide0 := if m.done = 0 ∧ m.args.cont then (t.win.map (fun w => w.wide)).getD false else m.wide
  let s := if m.done = 0 ∧ m.args.cont then s.modCtx p (fun t => { t with win := none }) else s
  let next (acc : SMap Word) (w : Bool) : MatRun := { m with done := m.done + 1, acc := acc, wide := wide0 || w, owe := none }
  match chunkKind x y with
  | .zero => (s.count (ck Ctr.nibChunksZero), next base false)
  | .wide fb =>
    let r := Prod.wideChunkLines (winList base) (x.lines.getD (Prod.decodeTile x.ot)) (y.lines.getD (Prod.decodeTile y.ot)) (t.rnOf d.layer)
    let s := (s.count (ck Ctr.wideChunks)).count (ck Ctr.f19Flush) r.2
    (if fb then s.count (ck Ctr.tileFb) else s, next (ofWinList r.1) true)
  | .nibble n side =>
    let acc := Prod.nibbleChunk (winList base) x.ot y.ot (Fp.mulRne x.ot.g y.ot.g) n
    (s.countAll ck [(Ctr.nibChunks, 1), (Ctr.nibPasses, n), (Ctr.sideTerms, side), (Ctr.sideStall, pass1 side - 64)],
      next (ofWinList acc) false)

/-- Whether a context may reserve a tile-queue entry (R123). -/
def Core.tqRoom (c : Core) (guest : Bool) : Bool :=
  decide (c.tq.length < 8) && (!guest || decide ((c.tq.filter (fun e => e.guest)).length < 2))
/-- Reserve a tile-queue entry (R122): RESERVED until the tile is in it. -/
def State.tqReserve (s : State) (p : Site) : State × Nat :=
  let c := s.core (Site.no p)
  (s.setCore (Site.no p) { c with
    tq := c.tq ++ [{ id := c.tqNext, guest := p.guest, full := false, acc := [], tag := 0#64 }], tqNext := c.tqNext + 1 }, c.tqNext)
/-- The energy units of a chunk's final pass (R117, R350): all of pass 1 where there is no other, one of a later pass or of a chunk on the
wide array. -/
def ChunkKind.lastPass : ChunkKind → Nat
  | .zero => 0
  | .wide _ => 1
  | .nibble n side => if n = 1 then (pass1 side + 63) / 64 else 1
/-- Whether the final pass of a product's last chunk starts now, with no tile-queue entry reserved for it yet (R122, R123). -/
def MatRun.needsEntry (m : MatRun) (kind : ChunkKind) (owe : Nat) : Bool :=
  decide (m.args.dest = 1#3) && m.entry.isNone && decide (m.done = m.args.nchunkM1.toNat) && decide (owe ≤ kind.lastPass)

/-- Form chunks while operands and energy are there (R350: a unit for each 64 cycles of a pass). The final pass of the last chunk of an op
that sends its output to the tile queue starts once an entry is reserved for it (R122, R123). -/
def State.runChunks (s : State) (p : Site) : (fuel : Nat) → MatRun → State × MatRun
  | 0, m => (s, m)
  | k + 1, m =>
    let c := s.core (Site.no p)
    if m.args.nchunkM1.toNat < m.done then (s, m)
    else match m.descA c, m.descB c, s.matIn p (m.descA c) m.args.aJ m.args.a.toNat (m.aTile + m.done),
        s.matIn p (m.descB c) m.args.bJ m.args.b.toNat (m.bTile + m.done) with
      | some (aa, d), some (ba, e), some x, some y =>
        let kind := chunkKind x y
        let (n, cost) := kind.energy
        let owe := m.owe.getD n
        if m.needsEntry kind owe then
          (if c.tqRoom p.guest then
            let r := s.tqReserve p
            r.1.runChunks p k { m with owe := some owe, entry := some r.2 }
          else (s.count (ckLayer Ctr.tqFullStall p d.layer d.axis), { m with owe := some owe }))
        else if owe = 0 then
          let s := (s.reportTile p aa d x).reportTile p ba e y
          let s := match x.from' with
            | some j => s.dropTile p d j
            | none => s
          let s := match y.from' with
            | some j => s.dropTile p e j
            | none => s
          let (s, m) := s.formChunk p m d x y
          s.runChunks p k m
        else match s.payUnit p cost with
          | (s, true) => s.runChunks p k { m with owe := some (owe - 1) }
          | (s, false) => (s, { m with owe := some owe })
      | _, _, _, _ => (s, m)

/-- A tile-queue tag (R122). -/
def tqTag (out : Word) (mb : BitVec 16) (nf wide guest : Bool) : Long :=
  BitVec.ofNat 64 (out.toNat + mb.toNat * 2 ^ 32 + b2n nf * 2 ^ 48 + b2n wide * 2 ^ 49 + b2n guest * 2 ^ 50)
/-- Whether a window holds a non-finite element. -/
def winNf (acc : SMap Word) : Bool := acc.any (fun e => Fp.isNonFinite e.2)
/-- Write a finished tile into its entry, which is FULL from then on and the newest of the full ones (R122, log 74); a tag with NF sets
NF_STEP (R226). -/
def State.tqFill (s : State) (p : Site) (id : Nat) (acc : SMap Word) (tag : Long) : State :=
  let s := s.modCore (Site.no p) (fun c => { c with
    tq := c.tq.filter (fun e => e.id != id) ++ [{ id := id, guest := p.guest, full := true, acc := acc, tag := tag }] })
  if tag.getLsbD 48 then s.modSlot (s.ctx p).slot (fun x => { x with nf := true }) else s

/-- The local offset of a piggy-bank slot (R126, R172). -/
def bankAt (slot : Nat) : Nat := 0x400000 + slot * 16384
/-- Drain a window into a piggy-bank slot (R127). -/
def State.bankDrain (s : State) (p : Site) (d : TDesc) (slot : Nat) (acc : SMap Word) : State :=
  let c := s.core (Site.no p)
  let sum := (winList acc).zipIdx.map (fun (v, i) => Fp.addRne (BitVec.ofNat 32 (c.lmem.readLE (bankAt slot + 4 * i) 4)) v)
  let s := s.setCore (Site.no p) { c with
    lmem := c.lmem.writeList (bankAt slot) ((sum.map (fun v => leBytes 4 v.toNat)).flatten)
    bankOf := SMap.set (0xFFFF, 3) c.bankOf slot (d.layer, d.axis) }
  s.count (ckLayer Ctr.bankDrains p d.layer d.axis)
/-- Submit the drain of a window to the bank extension (R127). -/
def State.bxDrain (s : State) (p : Site) (d : TDesc) (m : MatRun) (ch : Nat) : State :=
  let t := s.ctx p
  let line := m.hdr.bxLine
  let s := s.modCore (Site.no p) (fun c => { c with
    lmem := c.lmem.writeList (line * 256) (((winList m.acc).map (fun v => leBytes 4 v.toNat)).flatten), bxBusy := true })
  let desc : DmaDesc :=
    { src := 3 * 2 ^ 62 + line * 256, dst := (s.slot t.slot).bankExt + 16384 * m.out.toNat, len := 16384
      op := if m.args.dest = 3#3 then 0 else 1, tc := 2, slot := t.slot, tag := d.layer }
  (s.submit ch desc (.core (Site.no p) p.guest m.hdr.bxGrant 1) t.slot 16384).count (ckLayer Ctr.bankextDrains p d.layer d.axis)

/-- Replace an op in flight. -/
def State.setFlight (s : State) (p : Site) (f g : InFlight) : State :=
  s.modCtx p (fun t => { t with inflight := t.inflight.map (fun x => if x = f then g else x) })

/-- Deliver a finished product (R122, R127, R176), or wait for room. -/
def State.deliverMat (s : State) (p : Site) (f : InFlight) (m : MatRun) : State :=
  let c := s.core (Site.no p)
  let d := ((m.descA c).map (fun x => x.2)).getD (Coding.parseDesc [])
  let keep (s : State) : State := s.setFlight p f { f with finish := .matmul m }
  match m.args.dest.toNat with
  | 0 => (s.modCtx p (fun t => { t with win := some { acc := m.acc, wide := m.wide, lm := (d.layer, d.axis) } })).opDone p f
  | 1 => match m.entry with
    | some id => (s.tqFill p id m.acc (tqTag m.out m.mb (winNf m.acc) m.wide p.guest)).opDone p f
    | none => keep s
  | 2 =>
    if c.bankClearing then keep (s.count (ckLayer Ctr.bankClearWait p d.layer d.axis))
    else (s.bankDrain p d m.args.slot.toNat m.acc).opDone p f
  | _ =>
    match grantChan c m.hdr m.hdr.bxGrant with
    | some ch =>
      if c.bxBusy ∨ 64 ≤ (s.chan ch).queue.length then keep s
      else (s.bxDrain p d m ch).setFlight p f { f with finish := .dma m.hdr.bxGrant }
    | none => keep s

/-- Run a deferred op, its scalar registers and its routine's header as they stood at its issue (R131, R132). -/
def State.runDeferred (s : State) (p : Site) (d : Deferred) : State :=
  let live := s.ctx p
  let s := s.modCore (Site.no p) (fun k => asIssued k p.guest d.sregs d.hdr)
  let s := match d.op with
    | .vec fn a => vecRun s p fn a true
    | .red fn a => redRun s p fn a
    | .tload a => tloadRun s p a
  s.modCore (Site.no p) (fun k => asIssued k p.guest live.sregs live.hdr)

/-- The oldest op of a context that occupies a unit. -/
def Ctx.oldest (t : Ctx) (u : OpUnit) : Option InFlight := t.inflight.find? (fun f => decide (f.unit = u) && f.occupies)

/-- Pay the energy units that an op has left (R350). -/
def State.payLater (s : State) (p : Site) (cost : Nat) : (n : Nat) → State × Nat
  | 0 => (s, 0)
  | n + 1 => match s.payUnit p cost with
    | (s, true) => s.payLater p cost n
    | (s, false) => (s, n + 1)

/-- The 64 lines of tile `i` of a run of wide tiles along the contraction. -/
def wideTileAt (c : Core) (line i sfmt : Nat) (tr : Bool) : List (List Word) :=
  Coding.readWide c.lmem.read (line * 256 + i * 4096 * Coding.sfmtBytes sfmt) sfmt tr
/-- A WMATMUL's window after its next 64 contraction indices, and the F19 flushes of their operands (R96, R119 to R121). -/
def WideRun.chunk (w : WideRun) (c : Core) : List Word × Nat :=
  let x := Prod.toF19Lines (wideTileAt c w.aLine w.done w.args.aSfmt.toNat w.args.transposeA) w.rnd
  let y := Prod.toF19Lines (wideTileAt c w.bLine w.done w.args.bSfmt.toNat w.args.transposeB) w.rnd
  (Prod.wideOn (winList w.acc) x.1 y.1, x.2 + y.2)
/-- Form one chunk of a WMATMUL with its counts (R107, R130). -/
def State.formWide (s : State) (p : Site) (w : WideRun) : State × WideRun :=
  let o := w.chunk (s.core (Site.no p))
  (s.countAll (fun id => ckLayer id p w.lm.1 w.lm.2) [(Ctr.wideChunks, 1), (Ctr.wideModeChunks, 1), (Ctr.f19Flush, o.2)],
    { w with done := w.done + 1, acc := ofWinList o.1, owe := 1 })
/-- Form a WMATMUL's chunks while energy is there (R121, R350: 160 nJ a chunk); the last one starts once a tile-queue entry is reserved for an
output that goes to the queue (R122, R123). -/
def State.runWide (s : State) (p : Site) : (fuel : Nat) → WideRun → State × WideRun
  | 0, w => (s, w)
  | k + 1, w =>
    let c := s.core (Site.no p)
    if w.args.kchM1.toNat < w.done then (s, w)
    else if w.args.dest = 0#2 ∧ w.entry = none ∧ w.done = w.args.kchM1.toNat then
      (if c.tqRoom p.guest then
        let r := s.tqReserve p
        r.1.runWide p k { w with entry := some r.2 }
      else (s.count (ckLayer Ctr.tqFullStall p w.lm.1 w.lm.2), w))
    else if w.owe = 0 then
      let r := s.formWide p w
      r.1.runWide p k r.2
    else match s.payUnit p 16000 with
      | (s, true) => s.runWide p k { w with owe := 0 }
      | (s, false) => (s, w)
/-- Deliver a finished WMATMUL (R122, R175, R176): to the tile queue, or to local store. -/
def State.deliverWide (s : State) (p : Site) (f : InFlight) (w : WideRun) : State :=
  if w.args.dest = 0#2 then
    (match w.entry with
      | some id => (s.tqFill p id w.acc (tqTag w.out w.mb (winNf w.acc) true p.guest)).opDone p f
      | none => s)
  else (s.modCore (Site.no p) (fun c => { c with
    lmem := c.lmem.writeList (w.dLine * 256) (((winList w.acc).map (fun v => leBytes 4 v.toNat)).flatten) })).opDone p f

/-- Whether a product's chunk at hand waits for the wide array (R93, R121). -/
def State.wantsWide (s : State) (p : Site) (f : InFlight) : Bool :=
  match f.finish with
  | .matmul m =>
    let c := s.core (Site.no p)
    m.owe.isSome && (match s.matIn p (m.descA c) m.args.aJ m.args.a.toNat (m.aTile + m.done),
        s.matIn p (m.descB c) m.args.bJ m.args.b.toNat (m.bTile + m.done) with
      | some x, some y => (match chunkKind x y with
        | .wide _ => true
        | _ => false)
      | _, _ => false)
  | _ => false
/-- Whether a context has a tile-fall-back chunk for the wide array (R121). -/
def State.fallBackWaits (s : State) (p : Site) : Bool := (s.ctx p).inflight.any (s.wantsWide p)
/-- Whether the wide array may go on with a context's WMATMUL (R121): its tile-fall-back chunks come first, and before a guest's work SHADOW
tiles that have begun (R106). -/
def State.wideFree (s : State) (p : Site) : Bool :=
  !s.fallBackWaits p && (!p.guest || (s.core (Site.no p)).shadowWaits.isEmpty)
/-- Whether an op in flight advances only while its context holds the core: array work (R124) and a SEQ reduction (R133). -/
def InFlight.needsCore (f : InFlight) : Bool :=
  decide (f.unit = .nibble) || decide (f.unit = .wide) || (decide (f.unit = .reduction) && decide (f.word / 2 ^ 91 % 4 = 3))

/-- Take the oldest op of a unit to its end, as far as it can go (R174, R175). -/
def State.finishOp (s : State) (p : Site) (f : InFlight) : State :=
  let (s, left) := s.payLater p f.unitCost f.units
  if 0 < left then s.setFlight p f { f with units := left }
  else
    let g := { f with units := 0 }
    let s := s.setFlight p f g
    match f.finish with
    | .plain => s.opDone p g
    | .freeSlot ch => (s.freeSlot p ch).opDone p g
    | .matmul m =>
      let (s, m) := s.runChunks p (40 * 4096) m
      if m.args.nchunkM1.toNat < m.done then s.deliverMat p g m else s.setFlight p g { g with finish := .matmul m }
    | .wide w =>
      if s.wideFree p then
        let r := s.runWide p (3 * 4096) w
        if r.2.args.kchM1.toNat < r.2.done then r.1.deliverWide p g r.2 else r.1.setFlight p g { g with finish := .wide r.2 }
      else s
    | .deferred d =>
      if ((s.core (Site.no p)).tqFull p.guest).isSome then (s.runDeferred p d).opDone p g
      else s.count (ckCtx Ctr.tqEmptyStall p)
    | .tapWait _ _ _ _ => s
    | .dma _ => s
    | .tileCredit _ _ => s

/-- OP_COMPLETE (R174): the oldest op of a unit ends, when what it waits for is there; array work and a SEQ reduction stand still while
another context holds the core (R124, R133). -/
def execOpComplete (p : Site) (unit : OpUnit) (s : State) : Host.Outcome State Fault Refusal :=
  match (s.ctx p).oldest unit with
  | some f =>
    .next (if s.coreActive (Site.no p) && (!f.needsCore || (p.guest == (s.core (Site.no p)).guestIssuing)) then s.finishOp p f else s)
  | none => .next s

/-- The op word of a WMATMUL (R176). -/
def wmatWord (h : OpHead) (a : WmatmulArgs) : Nat :=
  opWord 0x33 (b2n a.transposeA + 2 * b2n a.transposeB + 4 * b2n a.rnd) h [(78, lsaBits a.a), (60, lsaBits a.b), (57, a.aSfmt.toNat),
    (54, a.bSfmt.toNat), (42, a.kchM1.toNat), (40, a.dest.toNat), (22, lsaBits a.dst), (6, tixBits a.out), (2, a.mb.toNat)]
/-- The RND bit of a WMATMUL (R96, R120): RN of the layer mode entry that the routine's last BRANCH on a mode slot tested, which selects the
wide path; the op's own flag where no such BRANCH has run (DEDUCED, log 75). -/
def wmatRnd (t : Ctx) (a : WmatmulArgs) : Bool :=
  match t.lastMode with
  | some lm => t.rnOf lm.1
  | none => a.rnd
/-- A WMATMUL as it stands in the wide array at its issue (R131): its first chunk is paid, and nothing is formed. -/
def wideStart (t : Ctx) (a : WmatmulArgs) : WideRun :=
  { args := a, aLine := t.line a.a, bLine := t.line a.b, dLine := t.line a.dst, out := BitVec.ofNat 32 (t.tile a.out)
    mb := (t.sreg a.mb).truncate 16, lm := t.lastMode.getD (0xFFFF, 3), rnd := wmatRnd t a, done := 0, acc := [], owe := 0 }
/-- The plan of a WMATMUL (R173, R350: 160 nJ a chunk, the first at issue). -/
def wmatPlan (s : State) (p : Site) (h : OpHead) (a : WmatmulArgs) : Plan :=
  let c := s.core (Site.no p)
  let t := c.ctx p.guest
  let n := a.kchM1.toNat + 1
  let na := n * 4096 * Coding.sfmtBytes a.aSfmt.toNat
  let nb := n * 4096 * Coding.sfmtBytes a.bSfmt.toNat
  { word := wmatWord h a, unit := some .wide, reads := [lsRange (t.line a.a * 256) na, lsRange (t.line a.b * 256) nb]
    writes := if a.dest = 1#2 then [{ sp := .ls, lo := t.line a.dst, n := 64 }] else []
    regsR := [a.a.s.toNat, a.b.s.toNat, a.dst.s.toNat, a.out.s.toNat, a.mb.toNat], cost := 16000
    finish := .wide (wideStart t a)
    fault := faultOf [need (decide (a.aSfmt.toNat ≤ 4) && decide (a.bSfmt.toNat ≤ 4) && decide (a.dest.toNat ≤ 1)) 0x01,
      need (localOk c.chestLines p.guest false (t.line a.a * 256) na) 0x03,
      need (localOk c.chestLines p.guest false (t.line a.b * 256) nb) 0x03,
      need (decide (a.dest = 0#2) || linesOk c.chestLines p.guest true (t.line a.dst) 64) 0x03] }
/-- WMATMUL (R96, R119): the op goes to the wide array, which forms one output tile for the tile queue or for local store. -/
def execWmatmul (p : Site) (h : OpHead) (a : WmatmulArgs) (s : State) : Host.Outcome State Fault Refusal :=
  .next (s.issue p h (wmatPlan s p h a) id)

/-- Whether an output tile is selected for shadow-play (R103). -/
def shadowSelected (mode : Word) (seed : Long) (step : Nat) (a : ShadowArgs) : Bool :=
  let sh := fld mode.toNat 11 10
  let k := Rot.mix64 (seed ^^^ BitVec.ofNat 64 ((step * 2 ^ 24 + a.layer.toNat * 256) ||| 0x80 ||| a.product.toNat))
  if sh = 2 then true
  else if sh = 1 then decide ((Rot.mix64 (k + BitVec.ofNat 64 (a.mb.toNat * 2 ^ 32 + a.tile.toNat))).toNat % 2 ^ fld mode.toNat 15 12 = 0)
  else false
/-- The shadow record of a tile (R104). -/
def shadowRecord (step : Nat) (a : ShadowArgs) (b : List Word) : ShadowRec :=
  let z : ShadowRec :=
    { step := step, layer := a.layer.toNat, product := a.product.toNat, mb := a.mb.toNat, tile := a.tile.toNat, maxAbs := 0#32
      eNum := 0#32, eDen := 0#32, nonfin := 0 }
  (a.result.zip b).foldl (fun r (x, y) =>
    let d := Fp.subRne x y
    if Fp.isNonFinite x || Fp.isNonFinite y || Fp.isNonFinite d then { r with nonfin := r.nonfin + 1 }
    else { r with
      maxAbs := if Fp.flt r.maxAbs (Fp.fabs d) then Fp.fabs d else r.maxAbs
      eNum := Fp.addRne r.eNum (Fp.mulRne d d), eDen := Fp.addRne r.eDen (Fp.mulRne y y) }) z

/-- Whether a SHADOW unit may start on a core (R354): B is at or above the low mark, SHADOW_LOW is 1, or the main context is in WAIT STEP. -/
def State.shadowMayStart (s : State) (no : Nat) : Bool :=
  let g := s.gov (dieOf no)
  decide (g.mark g.cfg.lowPct ≤ g.b) || g.cfg.shadowLow ||
    (match (s.core no).main.status with
     | .waitStep _ _ => true
     | _ => false)
/-- Note whether a core's SHADOW work is deferred (R354). -/
def State.deferShadow (s : State) (no : Nat) (on : Bool) : State :=
  let g := s.gov (dieOf no)
  if g.deferred.contains no = on then s
  else s.setGov (dieOf no) { g with deferred := if on then g.deferred ++ [no] else g.deferred.erase no }
/-- The layer mode that a shadow tile sees: a replay that shadows everything sets SH to 2 (R381). -/
def State.shadowMode (s : State) (p : Site) (layer : Nat) : Word :=
  let mode := (s.ctx p).modeOf layer
  if ((s.slot (s.ctx p).slot).run.map (fun r => r.shadowAll)).getD false then (mode ||| 0x800#32) &&& ~~~0x400#32 else mode
/-- The tile's key among those that are part paid. -/
def ShadowWait.isOf (w : ShadowWait) (a : ShadowArgs) : Bool :=
  decide (w.layer = a.layer.toNat) && decide (w.product = a.product.toNat) && decide (w.mb = a.mb.toNat) && decide (w.tile = a.tile.toNat)
/-- The 1,024-cycle units of a shadow tile that are not paid yet: one for each 64 of its contraction length (R106, R350). -/
def Core.shadowLeft (c : Core) (a : ShadowArgs) : Nat :=
  match c.shadowWaits.find? (fun w => w.isOf a) with
  | some w => w.left
  | none => (a.a.headD []).length / 64
/-- Keep a shadow tile with units left to pay, or forget it when none is. -/
def Core.keepShadow (c : Core) (a : ShadowArgs) (left : Nat) : Core :=
  let ws := c.shadowWaits.filter (fun w => !w.isOf a)
  { c with shadowWaits := if left = 0 then ws else ws ++ [ShadowWait.mk a.layer.toNat a.product.toNat a.mb.toNat a.tile.toNat left] }

/-- A shadow tile's wide products, from the retained wide inputs, and their F19 flushes (R96, R101). -/
def shadowOut (mode : Word) (a : ShadowArgs) : List Word × Nat :=
  let x := Prod.toF19Lines a.a (mode.getLsbD 9)
  let y := Prod.toF19Lines a.b (mode.getLsbD 9)
  (Prod.wideTile x.1 y.1, x.2 + y.2)

/-- Whether the wide array is free for SHADOW work (R106, R121): the context that holds the core has no tile-fall-back chunk and no WMATMUL for
it; a guest's work gives way. -/
def State.shadowFree (s : State) (no : Nat) : Bool :=
  let c := s.core no
  c.guestIssuing || (!(c.main.inflight.any (fun f => decide (f.unit = .wide))) &&
    !s.fallBackWaits { x := Fin.ofNat 48 (no % 48), y := Fin.ofNat 48 (no / 48), guest := false })
/-- SHADOW_TILE (R101 to R106): a selected tile is recomputed in wide mode and recorded. Each of its 1,024-cycle units starts and is paid under
R354; a tile with units left to pay goes on at its next SHADOW_TILE, and one that may not start is deferred, never dropped. A layer product in
wide mode is not recomputed, and a replay counts nothing again (R106). The 4-bit result and the retained wide inputs are operands of the
command, as the producing cores sent them to the shadowing core (R102; DESIGN CHOICE, log 76). -/
def execShadowTile (p : Site) (a : ShadowArgs) (s : State) : Host.Outcome State Fault Refusal :=
  let no := Site.no p
  let t := s.ctx p
  let mode := s.shadowMode p a.layer.toNat
  let step := (s.core no).step.toNat
  let again := ((s.slot t.slot).run.map (fun r => r.replay)).getD false
  let ck (id : Nat) : CKey := ckLayer id p a.layer.toNat a.product.toNat
  if !shadowSelected mode (s.slot t.slot).seed step a then .next s
  else if mode.getLsbD a.product.toNat then .next (if again then s else s.count (ck Ctr.shadowSkippedWide))
  else if !s.shadowMayStart no then .next (s.deferShadow no true)
  else if !s.shadowFree no then .next s
  else
    let (s, left) := (s.deferShadow no false).payLater p 17000 ((s.core no).shadowLeft a)
    let s := s.modCore no (fun c => c.keepShadow a left)
    if 0 < left then .next s
    else
      let o := shadowOut mode a
      let r := shadowRecord step a o.1
      .next ((s.modSlot t.slot (fun x => { x with shadows := x.shadows ++ [r] })).countAll ck
        [(Ctr.shadowTiles, if again then 0 else 1), (Ctr.shadowNonfinite, if again then 0 else r.nonfin),
         (Ctr.wideChunks, (a.a.headD []).length / 64), (Ctr.f19Flush, o.2)])

/-- Whether the bank values of a core are still being read (R129): by an op in flight or by a DMA descriptor. -/
def State.bankRead (s : State) (no : Nat) : Bool :=
  (s.core no).main.inflight.any (fun f => f.reads.any (fun r => decide (r.sp = .ls) && decide (16384 ≤ r.lo)))

/-- BANK_CLEAR (R129): after a decision, once every read of the bank has completed; until then the clear is pending and drains wait. -/
def execBankClear (x y : Fin 48) (s : State) : Host.Outcome State Fault Refusal :=
  let no := coreNo x.val y.val
  let due := (s.core no).bankClearing || (s.slot 0).decision.isSome || decide ((s.slot 0).st = .replaying)
  if !due then .next s
  else if s.bankRead no then .next (s.modCore no (fun c => { c with bankClearing := true }))
  else .next (s.modCore no clearBank)

/-- The byte offset of a context's window save area in local store (R124, R172): the nibble array's window in its first 64 lines, the wide
array's in the next 64. -/
def saveAt (guest wide : Bool) : Nat := ((if guest then 12160 else 10112) + (if wide then 64 else 0)) * 256
/-- A partial output tile that an array of a context holds (R124): the nibble array's product under way, else the window left by a HOLD op, or
the wide array's product; with its layer and product. -/
def Ctx.partialOf (t : Ctx) (c : Core) (wide : Bool) : Option (SMap Word × Nat × Nat) :=
  if wide then t.inflight.findSome? (fun f => match f.finish with
    | .wide w => if 0 < w.done && !w.spilled then some (w.acc, w.lm) else none
    | _ => none)
  else (t.inflight.findSome? (fun f => match f.finish with
    | .matmul m => if 0 < m.done && !m.spilled then some (m.acc, ((m.descA c).map (fun x => (x.2.layer, x.2.axis))).getD (0xFFFF, 3)) else none
    | _ => none)).or (t.win.bind (fun w => if w.spilled then none else some (w.acc, w.lm)))
/-- The context with its partial output tiles of one array moved to the save area, or back from it with the words `acc` (R124). -/
def Ctx.moved (t : Ctx) (wide : Bool) (acc : Option (SMap Word)) : Ctx :=
  let out := acc.isNone
  let mat (f : InFlight) : Bool := match f.finish with
    | .matmul m => if 0 < m.done && (m.spilled != out) then true else false
    | _ => false
  let inNibble := t.inflight.any mat
  { t with
    inflight := t.inflight.map (fun f => match f.finish with
      | .matmul m => if !wide && mat f then { f with finish := .matmul { m with spilled := out, acc := acc.getD m.acc } } else f
      | .wide w => if wide && decide (0 < w.done) && (w.spilled != out) then { f with finish := .wide { w with spilled := out, acc := acc.getD w.acc } } else f
      | _ => f)
    win := if wide || inNibble then t.win
      else t.win.map (fun w => if w.spilled = out then w else { w with spilled := out, acc := acc.getD w.acc }) }
/-- Spill one array's window of a context to its save area (R124). -/
def State.spillOne (s : State) (no : Nat) (guest wide : Bool) : State :=
  let c := s.core no
  match (c.ctx guest).partialOf c wide with
  | some (acc, lm) =>
    (s.setCore no (({ c with lmem := c.lmem.writeList (saveAt guest wide) (((winList acc).map (fun (v : Word) => leBytes 4 v.toNat)).flatten) }).setCtx
      guest ((c.ctx guest).moved wide none))).count (ckLayer Ctr.windowSpill (siteOf no guest) lm.1 lm.2)
  | none => s
/-- Spill a context's windows to its save area (R124). -/
def State.spill (s : State) (no : Nat) (guest : Bool) : State := (s.spillOne no guest false).spillOne no guest true
/-- The words of one array's window in a context's save area. -/
def Core.saved (c : Core) (guest wide : Bool) : SMap Word :=
  ofWinList ((List.range 4096).map (fun i => BitVec.ofNat 32 (c.lmem.readLE (saveAt guest wide + 4 * i) 4)))
/-- Reload a context's windows from its save area (R124). -/
def State.reload (s : State) (no : Nat) (guest : Bool) : State :=
  s.modCore no (fun c => c.setCtx guest (((c.ctx guest).moved false (some (c.saved guest false))).moved true (some (c.saved guest true))))

/-- Whether a guest context has an op that can issue (R192, R219). -/
def State.guestReady (s : State) (no : Nat) : Bool := s.nextReady (siteOf no true)
/-- GUEST_ENTRY (R192): a guest context with an op that can issue takes the core while the main context's next op cannot issue or no main
routine runs, and the governor grants surplus; main windows are spilled, the guest's reloaded. Without surplus the guest's purse denies it
(R219). -/
def execGuestEntry (x y : Fin 48) (s : State) : Host.Outcome State Fault Refusal :=
  let no := coreNo x.val y.val
  let c := s.core no
  if c.guestIssuing || !s.guestReady no || s.nextReady (siteOf no false) || !s.coreActive no then .next s
  else if !(s.gov (dieOf no)).surplus then .next (s.count (ckCtx Ctr.guestDeniedCycles (siteOf no true)))
  else
    let s := ((s.spill no false).reload no true).modCore no (fun c => { c with guestIssuing := true })
    .next (s.count (ckCtx Ctr.guestEntries (siteOf no true)))
/-- GUEST_PREEMPT (R192, R193): the main context takes the core back once its next op can issue, or the guest has none that may be issued; the
latency in cycles is recorded. -/
def execGuestPreempt (x y : Fin 48) (cycles : Nat) (s : State) : Host.Outcome State Fault Refusal :=
  let no := coreNo x.val y.val
  if !(s.core no).guestIssuing || (!s.nextReady (siteOf no false) && s.guestReady no && (s.gov (dieOf no)).surplus) then .next s
  else
    let s := ((s.spill no true).reload no false).modCore no (fun c => { c with guestIssuing := false })
    .next ((s.count (ckCtx Ctr.guestPreempts (siteOf no true))).peak (ckCtx Ctr.preemptMax (siteOf no true)) cycles)

end Sys2Proof.Machine
end

