-- ==== Sys2Proof/Machine/Faults.lean ====
section
/-! DEFINITION. Core faults and their swaps, module faults and seam replays (R16, R18, R387, R388, R391 to R393). -/

namespace Sys2Proof.Machine

/-- The row of a core, as 12 * die + row (R16). -/
def rowOf (no : Nat) : Nat := 12 * dieOf no + no / 48 % 12
/-- The cores of a row. -/
def rowCores (j : Nat) : List Nat := (List.range 2304).filter (fun no => decide (rowOf no = j))
/-- The slots that bind a core, with the context. -/
def State.bindersOf (s : State) (no : Nat) : List Nat := (List.range 4).filter (fun k => (s.slot k).bound.any (fun b => decide (b.1 = no)))
/-- A core fault that no spare absorbs (R18, R391): the loaded slots that bind the core stop beyond the model; on a core that
no loaded slot binds nothing is reported (R3; DESIGN CHOICE, log 103). -/
def State.coreBeyond (s : State) (no : Nat) : State :=
  (s.bindersOf no).foldl (fun (s : State) k => if (s.slot k).st.loaded then s.beyond k 0x03 [unitRef 0 (coreRef no)] else s) s

/-- CORE_FAULT (R387, R388, R391): counted; the core is marked for a swap where its row's spare is free and no other core of the row is
faulty; slot 0's step is abandoned where it binds the core. -/
def execCoreFault (x y : Fin 48) (s : State) : Host.Outcome State Fault Refusal :=
  let no := coreNo x.val y.val
  let s := s.count { id := Ctr.coreFaults, core := some no }
  let other := s.toSwap.any (fun n => decide (n ≠ no) && decide (rowOf n = rowOf no))
  if SMap.get .plain s.rows (rowOf no) ≠ .plain || other then .next (s.coreBeyond no)
  else
    let s := s.modCore no (fun c => { c with swapMark := true })
    .next (if (s.bindersOf no).contains 0 then s.epochClose 0 else s)

/-- A module fault (R387): MEMBER_LOST with cause 1 names this module, every slot stops, and the OxLink ports stop driving. -/
def State.moduleFault (s : State) : State :=
  let me := s.modId.toNat
  let s := if (s.slot 0).isMember me && !(s.slot 0).lostSeen.contains me then
      let s := (s.modSlot 0 (fun x => { x with lostSeen := x.lostSeen ++ [me] })).count (ckSlot Ctr.memberLostSeen 0)
      s.inject (fwCtrl s (s.slot 0).masterNow 2 [BitVec.ofNat 32 (me + 65536)])
    else s
  let s := (List.range 4).foldl (fun (s : State) k => if (s.slot k).st.loaded then s.haltSlot k else s) s
  { s with links := { s.links with driving := false } }
/-- MODULE_FAULT (R387). -/
def execModuleFault (s : State) : Host.Outcome State Fault Refusal := .next s.moduleFault
/-- SEAM_REPLAY (R387): one flit is replayed `replays` times; `good` says that it then passes. Eight failed replays are a module
fault. -/
def execSeamReplay (die : Fin 25) (replays : Nat) (good : Bool) (s : State) : Host.Outcome State Fault Refusal :=
  let s := s.count { id := Ctr.seamReplay, die := some die.val } replays
  .next (if !good && decide (8 ≤ replays) then s.moduleFault else s)

/-- What a swap leaves of a core (R129, R392): its memories are undefined and its piggy bank is clear. -/
def State.swappedCore (s : State) (no : Nat) : State :=
  let s := s.modCore no (fun c => clearBank { c with
    lmem := c.lmem.lose 0 0x500000 s.free, oc := c.oc.lose 0 0x40000 (s.free + 1), ta := c.ta.lose 0 0x10000 (s.free + 2)
    tq := [], joiner := [], swapMark := false })
  { s with free := s.free + 3 }
/-- Load a slot's routines on one core again (R391, R393). -/
def State.reloadCore (s : State) (k no : Nat) : State :=
  ((coresOf (s.slot k).image (s.slot k).rank).filter (fun c => decide (c.no = no))).foldl (fun (s : State) c => s.loadCore k c) s
/-- The guest contexts of a row's core restart at routine 0 (R393). -/
def State.restartGuests (s : State) (no : Nat) : State :=
  [1, 2, 3].foldl (fun (s : State) k =>
    if (s.slot k).st.loaded && (s.slot k).bound.contains (no, true) then
      ((s.reloadCore k no).count { id := Ctr.guestRestarts, core := some no }).absorbed 0x09 (unitRef 0 (coreRef no)) 1 0 (s.slot 0).step.toNat
    else s) s
/-- Swap one marked core (R391 to R393), or find its spare bad. -/
def State.swapCore (s : State) (bad : List (Fin 12)) (no : Nat) : State :=
  let j := rowOf no
  if bad.any (fun b => decide (b.val = j % 12)) then
    let s := { s.modCore no (fun c => { c with swapMark := false }) with rows := SMap.set .plain s.rows j .noSpare }
    (s.count { id := Ctr.spareCoreUnavailable, die := some (dieOf no) }).coreBeyond no
  else
    let s := { s with rows := SMap.set .plain s.rows j (.repaired (plainColumn no)) }
    let s := (rowCores j).foldl (fun (s : State) n =>
      let s := s.swappedCore n
      let s := if (s.slot 0).bound.contains (n, false) then s.reloadCore 0 n else s
      s.restartGuests n) s
    (s.count { id := Ctr.tinSwaps, die := some (dieOf no) }).absorbed 0x02 (unitRef 0 (coreRef no)) 1
      (s.timeUs - (s.slot 0).sealTime.getD s.timeUs) (s.slot 0).step.toNat

/-- Whether slot 0 stands at a step boundary (R24, R370, R391): no step is in progress and no core holds an op of one, or the attempt has been
abandoned, which empties the cores. -/
def State.atBoundary (s : State) : Bool :=
  (s.slot 0).quiesced || ((s.slot 0).run.isNone && ((s.slot 0).bound.filter (fun b => !b.2)).all (fun b => (s.core b.1).main.drained))
/-- TIN_SOLDIER_SWAP (R391): every marked core of a die at a step boundary; `bad` are the rows whose spare fails its BIST. With the last
swap made, the epoch that waited is adopted. -/
def execTinSoldierSwap (die : Fin 16) (bad : List (Fin 12)) (s : State) : Host.Outcome State Fault Refusal :=
  let mine := s.toSwap.filter (fun n => decide (dieOf n = die.val))
  if mine.isEmpty || !s.atBoundary then .next s
  else
    let s := mine.foldl (fun (s : State) n => s.swapCore bad n) (s.arbAll die.val true)
    let s := s.arbAll die.val false
    match (s.slot 0).nextEpoch with
    | some e => .next (if s.toSwap.isEmpty then s.adopt e else s)
    | none => .next s

end Sys2Proof.Machine
end

