-- ==== Sys2Proof/Machine/Governor.lean ====
section
/-! DEFINITION. The budget governors (R346, R349 to R355, R444). Energies are in 0.01 nJ. -/

namespace Sys2Proof.Machine

/-- Change a governor. -/
def State.modGov (s : State) (d : Nat) (f : Gov → Gov) : State := s.setGov d (f (s.gov d))
/-- The key of a governor's counter. -/
def ckGov (id d : Nat) : CKey := { id := id, die := some d }

/-- cap_w * 1000 * h in whole nJ (R351, R352): h is 1 up to T_SOFT, falls by 0.75 to 103 degrees, and is 0 from there. -/
def Gov.derated (g : Gov) : Int :=
  let cap : Int := g.capNow * 1000
  let soft : Int := g.cfg.tSoft
  if g.tHot ≤ soft then cap
  else if g.tHot < 103 then cap * (4 * (103 - soft) - 3 * (g.tHot - soft)) / (4 * (103 - soft))
  else 0

/-- The refill of one microsecond (R351), with the progress minimum of 2 W while main work waits. -/
def Gov.add (g : Gov) : Int :=
  let a := g.derated * 100 - (g.cfg.floorW : Int) * 100000 - g.base + g.corr
  if a < 200000 ∧ g.reqs.any (fun r => !r.guest) then 200000 else a

/-- The lowest ceiling on the clock (R346). -/
def Gov.ceiling (g : Gov) : Nat := min g.cfg.fMax (min g.thermCeil g.memCeil)
/-- The clock in force: the chosen clock between F_MIN and the lowest ceiling (R346). -/
def Gov.clamp (g : Gov) : Gov := { g with clock := min (max g.chosen g.cfg.fMin) g.ceiling }

/-- The guest purses of a die return their energy (R354). -/
def State.returnPurses (s : State) (d : Nat) : State :=
  let nos := (s.cores.map (fun e => e.1)).filter (fun n => decide (dieOf n = d))
  nos.foldl (fun s n =>
    let c := s.core n
    (s.setCore n { c with guest := { c.guest with purse := 0 } }).modGov d (fun g => { g with b := g.b + c.guest.purse })) s
/-- When B is below the surplus mark, the guest purses are empty (R354). -/
def State.syncSurplus (s : State) (d : Nat) : State :=
  if (s.gov d).b < (s.gov d).mark (s.gov d).cfg.surplusPct then s.returnPurses d else s

/-- BUDGET_REFILL (R351 to R354): one microsecond of a die's bucket, floor, ages and microsecond counters. -/
def execBudgetRefill (die : Fin 16) (s : State) : Host.Outcome State Fault Refusal :=
  let d := die.val
  let s := s.modGov d (fun g =>
    let ceil := if 103 ≤ g.tHot then max 400 (g.thermCeil - 50) else g.thermCeil
    Gov.clamp { g with
      b := max (-g.cap) (min (g.b + g.add) g.cap), f := (g.cfg.floorW : Int) * 100000, ledger := g.ledger + g.base.toNat
      reqs := g.reqs.map (fun r => { r with age := r.age + 1 }), thermCeil := ceil })
  let g := s.gov d
  let s := if g.b < g.mark g.cfg.lowPct then s.count (ckGov Ctr.govLowUs d) else s
  let s := if g.b ≤ 0 then s.count (ckGov Ctr.govEmptyUs d) else s
  let s := if (g.cfg.tSoft : Int) < g.tHot ∧ g.tHot < 103 then s.count (ckGov Ctr.thermalDerateUs d) else s
  let s := if 103 ≤ g.tHot then s.count (ckGov Ctr.thermalCeilUs d) else s
  let s := g.deferred.foldl (fun s n => s.count { id := Ctr.shadowDeferUs, core := some n }) s
  .next (s.syncSurplus d)

/-- BUDGET_CORRECTION (R351): the IVR meter's energy of the last millisecond and the monitor's base for the next, in 0.01 nJ; the
difference is spread over the next 1,000 us, within 10 % of CAP_W. -/
def execBudgetCorrection (die : Fin 16) (measured base : Nat) (s : State) : Host.Outcome State Fault Refusal :=
  let d := die.val
  let g := s.gov d
  let lim : Int := (g.cfg.capW : Int) * 1000 * 100 / 10
  let raw : Int := Int.tdiv ((g.ledger : Int) - measured) 1000
  let corr := max (-lim) (min lim raw)
  let s := s.setGov d { g with corr := corr, base := base, ledger := 0 }
  .next (if lim ≤ raw ∨ raw ≤ -lim then s.count (ckGov Ctr.govReconcileAdj d) else s)

/-- THERMAL_SENSOR_READ (R352): the hottest of the nine junction sensors, in degrees; up to T_SOFT there is no thermal ceiling. -/
def execThermalSensorRead (die : Fin 16) (t : Int) (s : State) : Host.Outcome State Fault Refusal :=
  .next (s.modGov die.val (fun g => Gov.clamp { g with tHot := t, thermCeil := if t ≤ (g.cfg.tSoft : Int) then 1800 else g.thermCeil }))

/-- PURSE_REFILL_REQUEST (R354): the context's op waits for a charge beyond its purse; one request at a time. -/
def execPurseRefillRequest (p : Site) (s : State) : Host.Outcome State Fault Refusal :=
  let t := s.ctx p
  let no := Site.no p
  let g := s.gov (dieOf no)
  if t.needCharge = 0 ∨ g.reqs.any (fun r => decide (r.core = no) && r.guest == p.guest) then .next s
  else .next (s.modGov (dieOf no) (fun g => { g with
    reqs := g.reqs ++ [{ core := no, guest := p.guest, charge := t.needCharge, age := 0 }] }))

/-- Insert a request by charge, ties to the lower core (R354). -/
def insertReq (x : RefillReq) : List RefillReq → List RefillReq
  | [] => [x]
  | y :: t => if x.charge < y.charge ∨ (x.charge = y.charge ∧ x.core < y.core) then x :: y :: t else y :: insertReq x t

/-- The order in which main requests are served (R354): arrival order at or above the low mark; below it those that have waited
AGE_US, oldest first, then the cheapest. -/
def Gov.order (g : Gov) : List RefillReq :=
  let main := g.reqs.filter (fun r => !r.guest)
  if g.mark g.cfg.lowPct ≤ g.b then main
  else main.filter (fun r => decide (g.cfg.ageUs ≤ r.age)) ++
    (main.filter (fun r => decide (r.age < g.cfg.ageUs))).foldl (fun l x => insertReq x l) []

/-- Serve one request with a grant of at most `avail` (R354): made only when it covers the charge; a purse holds at most 1,024 nJ,
a guest's 256 nJ. -/
def State.serve (s : State) (d : Nat) (r : RefillReq) (grant : Int) : Option State :=
  if grant < r.charge then none
  else
    let c := s.core r.core
    let t := c.ctx r.guest
    let room : Int := (if r.guest then 25600 else 102400) - (t.purse : Int)
    let got := min grant room
    some ((s.setCore r.core (c.setCtx r.guest { t with purse := t.purse + got.toNat })).modGov d (fun g =>
      { g with b := g.b - got, reqs := g.reqs.erase r }))

/-- Serve main requests in order, until one is not covered. -/
def State.serveMain (s : State) (d : Nat) : List RefillReq → State
  | [] => s
  | r :: t => match s.serve d r (min 51200 (s.gov d).b) with
    | some s => s.serveMain d t
    | none => s

/-- Serve guest requests in arrival order, from the energy above the surplus mark. -/
def State.serveGuests (s : State) (d : Nat) : List RefillReq → State
  | [] => s
  | r :: t => match s.serve d r (min 25600 ((s.gov d).b - (s.gov d).mark (s.gov d).cfg.surplusPct)) with
    | some s => s.serveGuests d t
    | none => s.serveGuests d t

/-- GOVERNOR_ROUND (R354): main requests first, then, with surplus and nothing of the main contexts waiting, the guests'. -/
def execGovernorRound (die : Fin 16) (s : State) : Host.Outcome State Fault Refusal :=
  let d := die.val
  let s := (s.serveMain d (s.gov d).order).syncSurplus d
  let g := s.gov d
  if g.surplus then .next (s.serveGuests d (g.reqs.filter (fun r => r.guest)))
  else .next s

/-- The module limit in force (R349, R444): the lower of the host's MODULE_W and the SET_POWER_LIMIT. -/
def Boot.limit (b : Boot) : Nat := if b.powerLimit = 0 then b.moduleW else min b.moduleW b.powerLimit
/-- The sum of the 16 records' caps. -/
def State.capSum (s : State) : Nat := ((List.range 16).map (fun d => (s.gov d).cfg.capW)).sum
/-- The effective cap of a die (R444). -/
def State.effectiveCap (s : State) (d : Nat) : Nat :=
  let cap := (s.gov d).cfg.capW
  let sum := s.capSum
  let l := s.boot.limit
  if s.boot.powerLimit = 0 ∨ sum ≤ l - 1300 then cap
  else if sum ≤ 1600 then 100
  else 100 + (cap - 100) * (l - 2900) / (sum - 1600)

/-- The memory die whose HOT ports lower a compute die's ceiling (R303). -/
def ceilOwner (d : Nat) : Option Nat :=
  if d = 0 ∨ d = 1 then some 0 else if d = 3 ∨ d = 7 then some 1 else if d = 14 ∨ d = 15 then some 2
  else if d = 8 ∨ d = 12 then some 3 else none
/-- The clock ceiling of R303 after 100 us. -/
def State.stepMemCeil (s : State) (d : Nat) : State :=
  match ceilOwner d with
  | none => s
  | some m =>
    if s.mem.ceil.contains m then
      let s := s.modGov d (fun g => { g with memCeil := max 1000 (min g.memCeil g.clock - 50) })
      if d = 0 ∨ d = 3 ∨ d = 14 ∨ d = 8 then s.count (ckDie Ctr.memThermalCapUs (16 + m)) 100 else s
    else s.modGov d (fun g => { g with memCeil := min 1800 (g.memCeil + 50) })

/-- GOVERNOR_WINDOW (R355): the chosen clock steps; a new record and effective cap come into force for the next window. -/
def execGovernorWindow (die : Fin 16) (s : State) : Host.Outcome State Fault Refusal :=
  let d := die.val
  let g := s.gov d
  let fell := decide (g.b < g.bWindow)
  let surplus := g.mark g.cfg.surplusPct
  let down := fell && decide (g.b < surplus)
  let up := !down && (decide (g.mark g.cfg.highPct ≤ g.b) || (!fell && decide (surplus ≤ g.b)))
  let s := if down then s.count (ckGov Ctr.govClockDown d) else if up then s.count (ckGov Ctr.govClockUp d) else s
  let f := if down then g.chosen - 50 else if up then g.chosen + 50 else g.chosen
  let s := s.setGov d { g with chosen := min (max f g.cfg.fMin) g.ceiling, bWindow := g.b
                               thermCeil := if g.tHot < 103 then min 1800 (g.thermCeil + 50) else g.thermCeil }
  let s := s.stepMemCeil d
  let s := s.modGov d (fun g => match g.next with
    | some r => { g with cfg := r, next := none, b := min g.b (r.bucketUj * 100000) }
    | none => g)
  .next (s.modGov d (fun g => Gov.clamp { g with capNow := s.effectiveCap d }))

end Sys2Proof.Machine
end

