-- ==== Sys2Proof/Machine/Startup.lean ====
section
/-! DEFINITION. Start-up, its reports and the resets that clear dies (chapters 18 and 20). -/

namespace Sys2Proof.Machine

/-- Change the start-up state. -/
def State.modBoot (s : State) (f : Boot → Boot) : State := { s with boot := f s.boot }
/-- Whether BOOT_STATUS reads READY. -/
def State.ready (s : State) : Bool := decide (s.boot.result = 1)

/-- BOOT_STATUS (R420). -/
def Boot.status (b : Boot) : Nat :=
  b.stage + b.result * 16 + b2n b.linkEnded * 64 + b.cause * 256 + b.image * 65536 + b.lastRst * 2 ^ 18 + b2n b.trip * 2 ^ 21

/-- A start-up counter (R424, group 0x11). -/
def State.bootCount (s : State) (id : Nat) (n : Nat := 1) : State := s.count { id := id } n

/-- START_LOG notes READY or a failure (R422). -/
def State.logEnd (s : State) : State := s.modBoot (fun b => { b with logStatus := b.status, logTEnd := s.timeUs })

/-- Every die other than the hub at one rung. -/
def State.diesAt (s : State) (r : Nat) : State :=
  (List.range 24).foldl (fun (s : State) d => s.setDomain (dieKey d) { rung := r, target := r }) s
/-- What a failed start-up is left in (R421): it stays at its stage with its cause; every die but the hub goes to OFF and the packages to
self-refresh. -/
def State.failAt (s : State) (cause : Nat) : State :=
  ((s.modBoot (fun b => { b with result := 2, cause := cause, selfRefresh := true })).logEnd).diesAt 6
/-- A failed start-up that holds until a module reset or a power-on: it counts START_FAIL (R421). -/
def State.failStart (s : State) (cause : Nat) : State := (s.bootCount Ctr.startFail).failAt cause

/-- What a module reset, a brown-out and a thermal trip keep (R423): the always-on domain with its counters, the pins, the fuses
and the flash; the host's memory and the vectors already raised are the host's. -/
def State.clearDies (s : State) : State :=
  let b := s.boot
  { State.reset with
    pending := s.pending, free := s.free, timeQ := s.timeQ
    counters := s.counters.filter (fun e => decide (e.1.id / 256 = 0x11))
    mail := { host := s.mail.host, irqs := s.mail.irqs }
    boot := {
      aon := b.aon, crystal := b.crystal, trip := b.trip, refclk := b.refclk, perst := b.perst, memPwrGood := b.memPwrGood
      memFell := b.memFell, thermTripN := b.thermTripN, straps := b.straps, smbPins := b.smbPins, rails := b.rails
      antiRollback := b.antiRollback, keyRevoked := b.keyRevoked, dbgRevoked := b.dbgRevoked, dbgLock := b.dbgLock
      stepping := b.stepping, flash := b.flash } }

/-- DEBUG_NONCE takes a new random value (R439). -/
def State.newNonce (s : State) : State :=
  { s with free := s.free + 2, host := { s.host with nonce := Config.freeWord (s.free + 1) ++ Config.freeWord s.free } }
/-- Enter stage ROM (R411, R452): the straps are read, REFCLK_REQ rises, and a start-up that has not begun is counted. -/
def State.enterRom (s : State) : State :=
  let s := if s.boot.begun then s else s.bootCount Ctr.startCount
  let n := ctrGet s.counters { id := Ctr.startCount }
  { s.newNonce.modBoot (fun b => { b with
      stage := 1, result := 0, cause := 0, begun := true, rails := true, refReq := true, thermTripN := true, idValid := true
      smbAddr := b.smbPins, logSeq := n, memFell := false }) with modId := s.boot.straps }

/-- POWER_ON (R411, R423): the always-on domain starts; every counter and the TRIP record begin anew. -/
def execPowerOn (straps : BitVec 14) (smb : BitVec 7) (s : State) : Host.Outcome State Fault Refusal :=
  if s.boot.aon then .next s
  else
    let s := { s.clearDies with counters := [], timeQ := 0 }
    .next ((s.modBoot (fun b => { b with
      aon := true, begun := true, trip := false, crystal := false, lastRst := 0, straps := straps, smbPins := smb })).bootCount
        Ctr.startCount)

/-- POWER_LOSS (R411): below 30 V the always-on domain loses power. -/
def execPowerLoss (s : State) : Host.Outcome State Fault Refusal :=
  let s := { s.clearDies with counters := [], timeQ := 0 }
  .next (s.modBoot (fun b => { b with aon := false, rails := false, refclk := false, crystal := false, trip := false
                                      memPwrGood := false, memFell := false }))

/-- CRYSTAL_START (R344, R411): TIME_US counts from the crystal's first tick. -/
def execCrystalStart (s : State) : Host.Outcome State Fault Refusal :=
  .next (if s.boot.aon then s.modBoot (fun b => { b with crystal := true }) else s)

/-- STAGE_ROM (R411, R449): the input has stayed in range for 10 ms. After a fall of MEM_PWR_GOOD it must be high as well. -/
def execStageRom (memGood : Bool) (s : State) : Host.Outcome State Fault Refusal :=
  if !s.boot.aon || decide (s.boot.stage ≠ 0) || (s.boot.memFell && !memGood) then .next s
  else .next ((s.modBoot (fun b => { b with memPwrGood := memGood })).enterRom)

/-- REFCLK_TIMEOUT (R412): no stable reference within 10 ms; only this failure resumes by itself, and it is not counted. -/
def execRefclkTimeout (s : State) : Host.Outcome State Fault Refusal :=
  let b := s.boot
  if b.stage = 1 ∧ b.result = 0 ∧ !b.pll then
    .next (s.failAt 1)
  else .next s

/-- REFCLK_ARRIVAL (R412): the hub PLL locks, start-up resumes, and the host link comes up once PERST# is high. -/
def execRefclkArrival (s : State) : Host.Outcome State Fault Refusal :=
  let b := s.boot
  if !b.refReq then .next s
  else if b.stage = 1 ∧ !b.pll then
    .next (s.modBoot (fun b => { b with refclk := true, pll := true, result := 0, cause := 0, pcieUp := !b.perst }))
  else .next (s.modBoot (fun b => { b with refclk := true, pll := true }))

/-- REFCLK_STOP (R344, R348): the reference stops once REFCLK_REQ is released; TIME_US goes on by crystal ticks. -/
def execRefclkStop (s : State) : Host.Outcome State Fault Refusal :=
  .next (if s.boot.refReq then s else s.modBoot (fun b => { b with refclk := false, pll := false }))

/-- PERST_DEASSERT (R412). -/
def execPerstDeassert (s : State) : Host.Outcome State Fault Refusal :=
  .next (s.modBoot (fun b => { b with perst := false, pcieUp := b.pll && decide (1 ≤ b.stage) }))

/-- Whether start-up runs and its last stage was `n`. -/
def State.atStage (s : State) (n : Nat) : Bool := decide (s.boot.stage = n) && decide (s.boot.result = 0) && s.boot.pll

/-- The first byte of an image slot in the flash (R437). -/
def flashBase (slot : Nat) : Nat := slot * 0x200000

/-- The checks of R413 and R437 on an image that `rd` reads: the cause of the refusal, or none. A header word 0x00C
with a reserved bit set makes the image malformed (R12; DESIGN CHOICE, log 105). -/
def imageCause (b : Boot) (rd : Nat → Byte) : Option Nat :=
  let w (o n : Nat) : Nat := rdLE rd o n
  let zero (o n : Nat) : Bool := (rdBytes rd o n).all (fun v => decide (v = 0#8))
  let len := w 4 4
  let k := fld (w 0x0C 4) 1 0
  if !(decide (w 0 4 = 0x59434F4E) && decide (1 ≤ len) && decide (len ≤ 1835008) && decide (w 0x0C 4 < 4) && zero 0x71 7 &&
      zero 0xD8 40) then some 0x12
  else if !(decide (Config.sha384 (rdBytes rd 0x10 97) = Config.keyHash k) && !b.keyRevoked.contains k &&
      Config.verifies (Config.keyHash k) (rdBytes rd 0 0x78 ++ rdBytes rd 0x100 len) (rdBytes rd 0x78 96)) then some 0x10
  else if w 0x0A 2 < b.antiRollback then some 0x11
  else none
/-- FW_VERSION and SEC_VERSION of an image. -/
def imageVersions (rd : Nat → Byte) : Nat × Nat := (rdLE rd 8 2, rdLE rd 0x0A 2)

/-- STAGE_AUTH (R413): slot A, then slot B; `answers` says whether the boot flash answers (CAUSE 0x12). -/
def execStageAuth (answers : Bool) (s : State) : Host.Outcome State Fault Refusal :=
  if !s.atStage 1 then .next s
  else
    let s := s.modBoot (fun b => { b with stage := 2 })
    let rd (k : Nat) (a : Nat) : Byte := s.boot.flash.read (flashBase k + a)
    let cause (k : Nat) : Option Nat := if answers then imageCause s.boot (rd k) else some 0x12
    let run (s : State) (k : Nat) : State := s.modBoot (fun b => { b with
      image := k + 1, logFwVersion := (imageVersions (rd k)).1, logSecVersion := (imageVersions (rd k)).2 })
    match cause 0 with
    | none => .next (run s 0)
    | some _ =>
      let s := s.bootCount Ctr.imageFallback
      match cause 1 with
      | none => .next (run s 1)
      | some c => .next (s.failStart c)

/-- The groups in which the die regulators rise (R414): the memory dies with the hub's self-test, the link dies, the die rows. -/
def ivrGroups : List (List Nat) :=
  [[24, 16, 17, 18, 19], [20, 21, 22, 23], [0, 1, 2, 3], [4, 5, 6, 7], [8, 9, 10, 11], [12, 13, 14, 15]]

/-- Raise the groups in order until one fails (R414): the dies in regulation, and the cause. -/
def ivrRun (reg test : BitVec 25) : List (List Nat) → List Nat × Option Nat
  | [] => ([], none)
  | g :: t =>
    let good := g.filter (fun d => reg.getLsbD d && test.getLsbD d)
    if !g.all (fun d => reg.getLsbD d) then (good, some 0x20)
    else if !g.all (fun d => test.getLsbD d) then (good, some 0x21)
    else let r := ivrRun reg test t; (good ++ r.1, r.2)

/-- STAGE_IVR (R414): `reg` are the dies whose regulator reaches regulation, `test` those that pass their self-test. With all of them up
every die is ACTIVE, and the core clocks start at 1.0 GHz. -/
def execStageIvr (reg test : BitVec 25) (s : State) : Host.Outcome State Fault Refusal :=
  if !(s.atStage 2 && decide (s.boot.image ≠ 0)) then .next s
  else
    let r := ivrRun reg test ivrGroups
    let s := s.modBoot (fun b => { b with stage := 3, logDiePwr := (r.1.map (fun d => 2 ^ d)).sum })
    match r.2 with
    | some c => .next (s.failStart c)
    | none => .next ((List.range 16).foldl (fun s d => s.setGov d { s.gov d with clock := 1000, chosen := 1000 }) (s.diesAt 0))

/-- How a port and its package answer in stage MEM: the best rate at which every channel passes (R282, coded as R367), and the
package's density code, 0 and 1 those of R283. -/
def memPort (ports : List MemTrain) (p : Nat) : MemTrain := ports.getD p { rate := none, density := 0#8 }

/-- Train one port (R282, R415). -/
def State.trainPort (s : State) (ports : List MemTrain) (p : Nat) : State :=
  let t := memPort ports p
  let rate := if s.boot.memPwrGood then t.rate else none
  let s := s.modMem (fun m => { m with ports := SMap.modify {} m.ports p (fun x => { x with density := t.density.toNat }) })
  match rate with
  | none => (s.bootCount Ctr.startPortsUntrained).modMem (fun m => { m with ports := SMap.modify {} m.ports p (fun x => { x with st := 3 }) })
  | some r =>
    let s := s.modMem (fun m => { m with ports := SMap.modify {} m.ports p (fun x => { x with st := 0, rate := r.toNat }) })
    let s := s.modBoot (fun b => { b with logMemOnline := b.logMemOnline + 2 ^ p, logMemRate := b.logMemRate + r.toNat * 2 ^ (3 * p) })
    if r.toNat ≠ 0 then s.bootCount Ctr.startPortsSlow else s

/-- STAGE_MEM (R280, R282, R415). -/
def execStageMem (ports : List MemTrain) (s : State) : Host.Outcome State Fault Refusal :=
  if !s.atStage 3 then .next s
  else
    let s := s.modBoot (fun b => { b with stage := 4, selfRefresh := false })
    let all := List.range 48
    let s := all.foldl (fun s p => s.trainPort ports p) s
    let dens (p : Nat) : Nat := (memPort ports p).density.toNat
    let odd := all.filter (fun p => decide (dens p ≠ dens 0) || decide (1 < dens p))
    let s := s.modBoot (fun b => { b with logDensity := if odd.isEmpty then dens 0 else 0xFF })
    let lost := all.filter (fun p => decide ((s.mem.port p).st = 3))
    if !odd.isEmpty && s.boot.memPwrGood then
      .next ((odd.foldl (fun s p => s.post 0x0501 .fault none (unitRef 10 p) (payload [(1, p), (1, dens p)])) s).failStart 0x30)
    else
      let s := lost.foldl (fun s p =>
        (s.count (ckPort Ctr.portOffline p)).post 0x0502 .absorbed none (unitRef 10 p) (payload [(1, p), (1, 0)])) s
      if [0, 1, 2, 3].any (fun d => decide (2 ≤ (lost.filter (fun p => decide (p / 12 = d))).length)) then .next (s.failStart 0x31)
      else .next s

/-- STAGE_LINK (R416): beside BIST and PARITY; a port that does not lock stays down. -/
def execStageLink (locked : BitVec 16) (s : State) : Host.Outcome State Fault Refusal :=
  let b := s.boot
  if b.result = 0 ∧ 4 ≤ b.stage ∧ b.stage ≤ 6 ∧ !b.linkEnded then
    let ports := (List.range 16).foldl
      (fun m q => SMap.modify {} m q (fun (x : LPort) => { x with locked := locked.getLsbD q })) s.links.ports
    let s := { s with links := { s.links with ports := ports } }
    .next (s.modBoot (fun b => { b with linkEnded := true, logLinkLock := locked.toNat }))
  else .next s

/-- The map of a physical row whose BIST failed at the columns `bad` (R417); `none` stops start-up. -/
def rowOutcome (bad : List Nat) : Option RowMap :=
  match bad.filter (fun c => decide (c ≠ 6)), bad.contains 6 with
  | [], false => some .plain
  | [], true => some .noSpare
  | [f], false => some (.repaired f)
  | _, _ => none
/-- The ROW_MAP nibble of a map (R422). -/
def RowMap.nibble : RowMap → Nat
  | .plain => 0xF | .repaired f => f | .noSpare => 0xE | .unusable => 0xD

/-- Map one row, j = 12 * die + row (R417). -/
def State.mapRow (s : State) (faulty : List (Fin 192 × Fin 13)) (j : Nat) : State :=
  let bad := ((faulty.filter (fun e => decide (e.1.val = j))).map (fun e => e.2.val)).eraseDups
  let r := (rowOutcome bad).getD .unusable
  let s := { s with rows := SMap.set .plain s.rows j r }
  let s := s.modBoot (fun b => { b with logRowMap := SMap.set 0 b.logRowMap j r.nibble })
  match r with
  | .repaired _ => s.bootCount Ctr.startRemaps
  | .noSpare => (s.count { id := Ctr.spareCoreUnavailable, die := some (j / 12) }).absorbed 0x03 (unitRef 1 (j / 12)) 1 0 0
  | _ => s

/-- STAGE_BIST (R417): `faulty` are the physical cores that fail, by row and physical column. -/
def execStageBist (faulty : List (Fin 192 × Fin 13)) (s : State) : Host.Outcome State Fault Refusal :=
  if !s.atStage 4 then .next s
  else
    let s := s.modBoot (fun b => { b with stage := 5, logBistFail := faulty.eraseDups.length })
    let s := (List.range 192).foldl (fun s j => s.mapRow faulty j) s
    if (List.range 192).any (fun j => decide (SMap.get .plain s.rows j = .unusable)) then .next (s.failStart 0x40) else .next s

/-- The record of partition 0 (R418). -/
def firmwarePart : PartRec := { owner := 4, valid := true, groups := 0xFFFF, baseRow := 0, rows := 24576 }

/-- STAGE_PARITY (R418): every row is zeroed; `lost` are ports that go offline meanwhile, with the cause of R384. Partition 0 is
created. -/
def execStageParity (lost : List (Fin 48 × BitVec 8)) (s : State) : Host.Outcome State Fault Refusal :=
  if !s.atStage 5 then .next s
  else
    let s := s.modBoot (fun b => { b with stage := 6 })
    let s := s.modMem (fun m => { m with
      dram := { cells := [] }, bufs := [], bad := [], remaps := [], full := [], patrol := [], owners := [] })
    let s := lost.foldl (fun s e => if (s.mem.port e.1.val).away then s else s.portOffline e.1.val e.2.toNat) s
    let away := (List.range 48).filter (fun p => (s.mem.port p).away)
    if [0, 1, 2, 3].any (fun d => decide (2 ≤ (away.filter (fun p => decide (p / 12 = d))).length)) then .next (s.failStart 0x50)
    else .next (s.modMem (fun m => { m with parts := SMap.set {} m.parts 0 firmwarePart }.hold firmwarePart))

/-- STAGE_READY (R419): PARITY and LINK have ended. -/
def execStageReady (s : State) : Host.Outcome State Fault Refusal :=
  if !(s.atStage 6 && s.boot.linkEnded) then .next s
  else
    let s := ((List.range 20) ++ [24]).foldl (fun (s : State) d => s.arbAll d false) s
    .next (s.modBoot (fun b => { b with stage := 7, result := 1 })).logEnd

/-- Every regulator but the always-on domain's stops (R352, R419): the dies lose everything, the packages go to self-refresh,
and start-up begins again at stage ROM. -/
def State.regulatorsStop (s : State) (lastRst : Nat) : State :=
  s.clearDies.modBoot (fun b => { b with rails := false, selfRefresh := true, lastRst := lastRst })

/-- BROWN_OUT (R419): below 38 V for 100 us. -/
def execBrownOut (s : State) : Host.Outcome State Fault Refusal :=
  .next (if s.boot.rails then (s.regulatorsStop 2).bootCount Ctr.brownOuts else s)

/-- OVERVOLTAGE (R446): above 62 V for 10 us, as a brown-out. -/
def execOvervoltage (s : State) : Host.Outcome State Fault Refusal :=
  .next (if s.boot.rails then (s.regulatorsStop 2).bootCount Ctr.brownOuts else s)

/-- MEM_PWR_GOOD_FALL (R449): after stage MEM the packages have lost their contents, handled as a brown-out; before it, the pin
is low when the stage begins. -/
def execMemPwrGoodFall (s : State) : Host.Outcome State Fault Refusal :=
  let low (s : State) : State := s.modBoot (fun b => { b with memPwrGood := false })
  if s.boot.rails ∧ 4 ≤ s.boot.stage then
    .next ((low ((s.regulatorsStop 2).bootCount Ctr.brownOuts)).modBoot (fun b => { b with memFell := true }))
  else .next (low s)

/-- THERMAL_TRIP (R352, R423, R454): the record is kept, and THERMTRIP# is driven low until the next start-up. -/
def execThermalTrip (s : State) : Host.Outcome State Fault Refusal :=
  .next (if s.boot.rails then
      ((s.regulatorsStop 3).bootCount Ctr.thermalTrips).modBoot (fun b => { b with trip := true, thermTripN := false })
    else s)

/-- A module reset (R423): every die but the always-on domain is cleared and start-up restarts at ROM. -/
def State.moduleReset (s : State) : State :=
  if s.boot.rails then
    let pll := s.boot.pll
    let up := s.boot.pcieUp
    (s.clearDies.modBoot (fun b => { b with lastRst := 1, pll := pll, pcieUp := up })).enterRom
  else s

/-- MODULE_RESET (R423). -/
def execModuleReset (s : State) : Host.Outcome State Fault Refusal := .next s.moduleReset

/-- MODULE_RESET_WRITE (R434): the value written to MODULE_RESET; before READY the write is ignored (R412). -/
def execModuleResetWrite (v : Word) (s : State) : Host.Outcome State Fault Refusal :=
  .next (if s.ready && s.boot.pcieUp && decide (v.toNat % 65536 = 0xB007) then s.moduleReset else s)

/-- TEST_RESET (R423, R442): TRST resets the test logic only. -/
def execTestReset (s : State) : Host.Outcome State Fault Refusal := .next (s.modBoot (fun b => { b with jtag := [] }))

/-- START_LOG (R422). -/
def State.startLog (s : State) : List Byte :=
  let b := s.boot
  let rowByte (i : Nat) : Byte := BitVec.ofNat 8 (SMap.get 0 b.logRowMap (2 * i) + SMap.get 0 b.logRowMap (2 * i + 1) * 16)
  leBytes 4 b.logSeq ++ leBytes 4 b.logStatus ++ leBytes 8 b.logTEnd ++ leBytes 6 b.logMemOnline ++ leBytes 2 b.logLinkLock ++
    leBytes 18 b.logMemRate ++ leBytes 1 b.logDensity ++ leBytes 1 0 ++ leBytes 4 b.logDiePwr ++ leBytes 4 b.logFwVersion ++
    leBytes 2 b.logSecVersion ++ leBytes 2 0 ++ leBytes 8 0 ++ (List.range 96).map rowByte ++ leBytes 4 b.logBistFail ++
    leBytes 92 0

end Sys2Proof.Machine
end

