-- ==== Sys2Proof/Machine/Mailbox.lean ====
section
/-! DEFINITION. The ring registers, the fetch and the common checks of commands, records and interrupts, and the sweep of all units
(R357 to R371, R385). -/

namespace Sys2Proof.Machine

/-- Whether BAR0 answers at all: the host link is up and start-up has ended (R412, R419). -/
def State.hostUp (s : State) : Bool := s.ready && s.boot.pcieUp
/-- Whether a ring's block is reachable in a function's BAR0 (R362). -/
def State.ringSeen (s : State) (fn r : Nat) : Bool := s.hostUp && decide (s.ringFn r = fn)

/-- A ring error is counted and posted (R358, R359). -/
def State.ringError (s : State) (r cause : Nat) : State :=
  s.post 0x0705 .fault none (unitRef 0xFF 0) (payload [(1, r), (1, cause)])
/-- A ring stops with ERR (R358, R359). -/
def State.ringStop (s : State) (r cause : Nat) : State :=
  ((s.setRing r { s.ring r with err := true, cause := cause }).count { id := Ctr.ringErrors }).ringError r cause
/-- A write that EN = 1 makes the device ignore (R358). -/
def State.ringIgnored (s : State) (r : Nat) : State := (s.count { id := Ctr.ringWriteIgnored }).ringError r 4
/-- Whether a ring's DOORBELL count is beyond its bound (R359). -/
def Ring.badCount (x : Ring) (r : Nat) : Bool :=
  let ahead := (x.doorbell - x.index).toNat
  if r < 5 then decide (x.size < ahead) else decide (0 < ahead) && decide (ahead < 2 ^ 31)
/-- Look at a running ring's counts (R359): it stops, or the records that wait for it go out. -/
def State.ringLook (s : State) (r : Nat) : State :=
  if !(s.ring r).run then s
  else if (s.ring r).badCount r then s.ringStop r 1
  else if 5 ≤ r ∧ r ≤ 9 then s.flushRecords r s.mail.done.length
  else s

/-- A write of X_CTRL (R358). -/
def State.ringCtrl (s : State) (r v : Nat) : State :=
  let x := s.ring r
  let y := { x with ie := bitOf v 5, vector := fld v 11 6, coal := fld v 19 12, en := bitOf v 0 }
  if x.en then
    let s := s.setRing r y
    if fld v 4 1 ≠ x.sizeLog2 then s.ringIgnored r else s
  else
    let y := { y with sizeLog2 := fld v 4 1 }
    if !bitOf v 0 then s.setRing r y
    else
      let s := s.setRing r { y with doorbell := 0#32, index := 0#32, err := false, cause := 0 }
      if 4 ≤ y.sizeLog2 ∧ y.sizeLog2 ≤ 12 then s.ringLook r else s.ringStop r 3

/-- A write of X_BASE_LO or X_BASE_HI (R358). -/
def State.ringBase (s : State) (r : Nat) (high : Bool) (v : Nat) : State :=
  let x := s.ring r
  if x.en then s.ringIgnored r
  else s.setRing r (if high then { x with baseHi := v } else { x with baseLo := v / 4096 * 4096 })
/-- A write of DOORBELL_X (R359): the driver's count is stored; a count beyond its bound stops the ring (log 56). -/
def State.ringDoorbell (s : State) (r : Nat) (v : Word) : State := (s.setRing r { s.ring r with doorbell := v }).ringLook r
/-- 1 written to X_STATUS.ERR (R358) restarts the ring from its present counts. -/
def State.ringErrClear (s : State) (r : Nat) : State :=
  let x := s.ring r
  if !x.err then s
  else
    let s := s.setRing r { x with err := false, cause := 0 }
    if x.en && !(decide (4 ≤ x.sizeLog2) && decide (x.sizeLog2 ≤ 12)) then s.ringStop r 3 else s.ringLook r

/-- RING_ENABLE (R358): a write of X_CTRL with EN = 1. -/
def execRingEnable (fn : Fin 4) (ring : Fin 11) (v : Word) (s : State) : Host.Outcome State Fault Refusal :=
  .next (if s.ringSeen fn.val ring.val then s.settleBar2.ringCtrl ring.val (setFld v.toNat 0 0 1) else s)
/-- RING_DISABLE (R358): a write of X_CTRL with EN = 0. -/
def execRingDisable (fn : Fin 4) (ring : Fin 11) (v : Word) (s : State) : Host.Outcome State Fault Refusal :=
  .next (if s.ringSeen fn.val ring.val then s.settleBar2.ringCtrl ring.val (setFld v.toNat 0 0 0) else s)
/-- RING_BASE_WRITE (R358): a write of X_BASE_LO or X_BASE_HI, or of X_CTRL with EN as it is. -/
def execRingBaseWrite (fn : Fin 4) (ring : Fin 11) (reg : RingReg) (v : Word) (s : State) : Host.Outcome State Fault Refusal :=
  let r := ring.val
  if !s.ringSeen fn.val r then .next s
  else match reg with
    | .ctrl => .next (s.settleBar2.ringCtrl r (setFld v.toNat 0 0 (b2n (s.ring r).en)))
    | .baseLo => .next (s.settleBar2.ringBase r false v.toNat)
    | .baseHi => .next (s.settleBar2.ringBase r true v.toNat)
/-- DOORBELL (R359). -/
def execDoorbell (fn : Fin 4) (ring : Fin 11) (v : Word) (s : State) : Host.Outcome State Fault Refusal :=
  .next (if s.ringSeen fn.val ring.val then s.settleBar2.ringDoorbell ring.val v else s)
/-- RING_ERR_CLEAR (R358). -/
def execRingErrClear (fn : Fin 4) (ring : Fin 11) (s : State) : Host.Outcome State Fault Refusal :=
  .next (if s.ringSeen fn.val ring.val then s.settleBar2.ringErrClear ring.val else s)

/-- Where an opcode is valid and what unit it acts on (R371, R372): 0 every ring, 1 MGMT, 2 the slot rings, 3 SLOT0; the kind of its
unit, 0xFF for none, 7 or less for the power domains of POWER_SET (0x100). -/
def cmdSpec (op : Nat) : Option (Nat × Nat) :=
  if op = 0x0000 then some (0, 0xFF) else if op = 0x0001 then some (1, 0xFF) else if op = 0x0010 then some (1, 7)
  else if 0x0020 ≤ op ∧ op ≤ 0x0022 then some (1, 9) else if op = 0x0030 then some (1, 10) else if op = 0x0040 then some (1, 0x100)
  else if op = 0x0041 then some (1, 1) else if op = 0x0050 then some (0, 0xFF) else if 0x0100 ≤ op ∧ op ≤ 0x0103 then some (2, 8)
  else if op = 0x0110 ∨ op = 0x0111 then some (3, 8) else if op = 0x0120 ∨ op = 0x0121 then some (2, 8)
  else if 0x0130 ≤ op ∧ op ≤ 0x0132 ∨ op = 0x0140 then some (3, 8) else if op = 0x0150 then some (3, 0xFF)
  else if op = 0x0151 ∨ op = 0x0152 then some (3, 8) else none
/-- Whether a ring is among those of `cmdSpec`. -/
def ringIn (where' r : Nat) : Bool :=
  match where' with
  | 0 => true
  | 1 => decide (r = 4)
  | 2 => decide (r < 4)
  | _ => decide (r = 0)

/-- The bits of a descriptor that are not reserved, as (byte offset, mask) (R363, R382). -/
def cmdFields (op : Nat) : List (Nat × Nat) :=
  [(0x00, 0xFFFF), (0x04, 2 ^ 128 - 1)] ++
  (if op = 0x0010 then [(0x18, 0x3FFF)] else if op = 0x0020 then [(0x18, 2 ^ 256 - 1)] else if op = 0x0030 then [(0x18, 1)]
   else if op = 0x0040 then [(0x18, 7)] else if op = 0x0041 then [(0x18, 2 ^ 272 - 1)]
   else if op = 0x0050 then [(0x18, 0x1F), (0x1C, 2 ^ 128 - 1)]
   else if op = 0x0100 then [(0x18, 2 ^ 104 - 1), (0x28, 2 ^ 99 - 1)] else if op = 0x0102 then [(0x18, 2 ^ 104 - 1)]
   else if op = 0x0103 then [(0x18, 1), (0x20, 2 ^ 168 - 1)] else if op = 0x0110 then [(0x18, 2 ^ 46 - 1), (0x20, 2 ^ 224 - 1)]
   else if op = 0x0120 then [(0x18, 0xFFFF), (0x1C, 2 ^ 64 - 1)] else if op = 0x0121 then [(0x18, 2 ^ 128 - 1)]
   else if op = 0x0130 then [(0x18, 2 ^ 96 - 1)] else if op = 0x0132 then [(0x18, 2 ^ 71 - 1)] else if op = 0x0140 then [(0x18, 2 ^ 128 - 1)]
   else if op = 0x0150 then [(0x18, 2 ^ 160 - 1)] else if op = 0x0151 then [(0x18, 2 ^ 33 - 1), (0x20, 2 ^ 64 - 1)]
   else if op = 0x0152 then [(0x18, 2 ^ 32 - 1)] else [])
/-- The bits of byte `o` of a descriptor that are not reserved. -/
def openBits (op o : Nat) : Nat :=
  ((cmdFields op).map (fun f => if f.1 ≤ o then f.2 / 256 ^ (o - f.1) % 256 else 0)).foldl (fun a m => a ||| m) 0
/-- The first byte of a command that holds a reserved bit set. -/
def Cmd.reservedByte (c : Cmd) : Option Nat :=
  (List.range 64).find? (fun o => decide (c.fieldAt o 1 &&& (255 - openBits c.opcode o) ≠ 0))

/-- Whether an entry image would write SH = 3 under its mask (R97). -/
def modeBad (v mask : Nat) : Bool := decide (fld mask 11 10 = 3) && decide (fld v 11 10 = 3)
/-- An argument out of range (R365, R382), as the byte offset of its field; a LAYER_MODE that R97 refuses for both its MASK and its VALUE names
the MASK (DESIGN CHOICE, log 107). -/
def Cmd.badArg (c : Cmd) : Option Nat :=
  let f := c.fieldAt
  if c.opcode = 0x0040 ∧ f 0x18 1 = 7 then some 0x18
  else if c.opcode = 0x0041 ∧ 4200 < f 0x38 2 then some 0x38
  else if c.opcode = 0x0050 ∧ 7 < f 0x18 1 % 16 then some 0x18
  else if c.opcode = 0x0100 ∧ f 0x30 4 = 0 then some 0x30
  else if c.opcode = 0x0103 ∧ f 0x30 5 % 256 ≠ 0 then some 0x30
  else if c.opcode = 0x0120 ∧ (f 0x20 4 % 8 ≠ 0 ∨ f 0x20 4 / 2 ^ 16 ≠ 0) then some 0x20
  else if c.opcode = 0x0120 ∧ modeBad (f 0x1C 4) (f 0x20 4) then some 0x1C
  else if c.opcode = 0x0132 ∧ 64 < f 0x20 1 then some 0x20
  else none
/-- A field of the unit out of range (R366, R368): the kind that the command acts on, an existing unit, a slot ring's own slot, and a
mask. -/
def Cmd.badUnit (c : Cmd) (want : Nat) : Option Nat :=
  let k := c.unitKind
  if want = 0xFF ∧ k = 0xFF then (if c.unitIndex = 0 then none else some 0x09)
  else if (want = 0x100 ∧ 7 < k) ∨ (want < 0xFF ∧ k ≠ want) ∨ 12 < k then some 0x08
  else if !unitExists k c.unitIndex || (decide (want = 8) && decide (c.unitIndex ≠ c.ring)) then some 0x09
  else if c.fieldAt 0x10 4 = 0 then some 0x10
  else none
/-- The status with which a command is turned away as it is fetched (R365, R371). -/
def Cmd.refusal (c : Cmd) : Option (Nat × Nat) :=
  match cmdSpec c.opcode with
  | none => some (2, 0)
  | some (where', want) =>
    if !ringIn where' c.ring then some (2, 0)
    else ((c.reservedByte.orElse (fun _ => c.badUnit want)).orElse (fun _ => c.badArg)).map (fun d => (3, d))

/-- Complete a command that was turned away: OBSERVED is its unit's word, where it names one. -/
def State.turnAway (s : State) (c : Cmd) (status detail : Nat) : State :=
  if unitExists c.unitKind c.unitIndex then
    let s := s.observe c.unitKind c.unitIndex
    s.complete { c with observed := s.unitWord c.unitKind c.unitIndex } status detail
  else s.complete c status detail

/-- Commands of a ring fetched and not completed (R360). -/
def State.outstanding (s : State) (r : Nat) : Nat :=
  (s.mail.cmds.filter (fun c => decide (c.ring = r))).length + (s.mail.done.filter (fun e => decide (e.1 = r + 5))).length

/-- COMMAND_FETCH (R360, R365, R370, R371): the ring's next command is read and checked, while its completion ring has room; `pcie` says
that the read of the ring succeeds (X_STATUS CAUSE 2). -/
def execCommandFetch (ring : Fin 5) (pcie : Bool) (s : State) : Host.Outcome State Fault Refusal :=
  let r := ring.val
  let x := s.ring r
  let room := if (s.ring (r + 5)).run then (s.ring (r + 5)).free else 0
  if !s.hostUp || !x.run || decide (x.doorbell = x.index) || decide (room ≤ s.outstanding r) then .next s
  else if !pcie then .next (s.ringStop r 2)
  else
    let bytes := rdBytes s.mail.host.read (x.base + x.index.toNat % x.size * 64) 64
    let c : Cmd := { ring := r, bytes := bytes }
    let s := s.setRing r { x with index := x.index + 1#32 }
    match c.refusal with
    | some (st, d) => .next (s.turnAway c st d)
    | none => .next (s.modMail (fun m => { m with cmds := m.cmds ++ [c] }))

/-- IRQ_COALESCE (R361): COAL_US has passed since the first record not yet signalled. -/
def execIrqCoalesce (ring : Fin 11) (s : State) : Host.Outcome State Fault Refusal :=
  let x := s.ring ring.val
  match x.unsig with
  | some t =>
    if x.ie ∧ t + x.coal ≤ s.timeUs then .next ((s.setRing ring.val { x with unsig := none }).raise (s.ringFn ring.val) x.vector)
    else .next s
  | none => .next s

/-- Write queued events while the event ring has room (R359, R385). -/
def State.flushEvents (s : State) : (fuel : Nat) → State
  | 0 => s
  | n + 1 => match s.events with
    | [] => s
    | e :: t =>
      if (s.ring 10).run && decide (0 < (s.ring 10).free) then
        (({ s with events := t } : State).putRecord 10 0 e.bytes (decide (e.cls ≠ 0))).flushEvents n
      else s
/-- EVENT_FLUSH (R385): `pcie` says that the write of the ring succeeds (X_STATUS CAUSE 2). -/
def execEventFlush (pcie : Bool) (s : State) : Host.Outcome State Fault Refusal :=
  if s.events.isEmpty || !(s.ring 10).run || decide ((s.ring 10).free = 0) then .next s
  else if !pcie then .next (s.ringStop 10 2)
  else .next (s.flushEvents s.events.length)

/-- The units of R366, as (kind, index). -/
def allUnits : List (Nat × Nat) :=
  (List.range 2304).map (fun n => (0, coreRef n)) ++ (List.range 16).map (fun i => (1, i)) ++ (List.range 4).map (fun i => (2, 16 + i)) ++
  (List.range 4).map (fun i => (3, 20 + i)) ++ [(4, 24)] ++ (List.range 48).map (fun i => (5, i)) ++ (List.range 16).map (fun i => (6, i)) ++
  [(7, 0)] ++ (List.range 4).map (fun i => (8, i)) ++ (List.range 8).map (fun i => (9, i)) ++ (List.range 48).map (fun i => (10, i)) ++
  (List.range 8).map (fun i => (11, i)) ++ ((List.range 256).map (fun c => 512 + c)).filterMap (fun i => if unitExists 12 i then some (12, i) else none)
/-- RECONCILE_SWEEP (R369). -/
def execReconcileSweep (s : State) : Host.Outcome State Fault Refusal :=
  .next (if s.ready then allUnits.foldl (fun (s : State) u => s.observe u.1 u.2) s else s)

/-- VF_ENABLE (R362): virtual function `k` + 1 is enabled or disabled, and its ring blocks move. -/
def execVfEnable (k : Fin 3) (en : Bool) (s : State) : Host.Outcome State Fault Refusal :=
  let n := k.val + 1
  .next (if s.boot.pcieUp then
      s.modMail (fun m => { m with vfs := if en then (if m.vfs.contains n then m.vfs else m.vfs ++ [n]) else m.vfs.filter (fun x => x ≠ n) })
    else s)

end Sys2Proof.Machine
end

