-- ==== Sys2Proof/Machine/MgmtCmds.lean ====
section
/-! DEFINITION. The commands of the management ring (R295, R297, R342, R349, R372, R379). -/

namespace Sys2Proof.Machine

/-- The next command of a ring with an opcode acts, after its expected-state check (R368). -/
def State.command (s : State) (r op : Nat) (act : State → Cmd → State) : State :=
  match s.nextCmd r op with
  | some c => s.checked c act
  | none => s

/-- Whether a range lies in a partition of OWNER 6 (R382). -/
def State.inStaging (s : State) (a n : Nat) : Bool :=
  let p := s.mem.part (devPart a)
  isDev a && p.valid && decide (p.owner = 6) && decide (devOff a + n ≤ p.size)
/-- Whether any job slot is loaded. -/
def State.anyLoaded (s : State) : Bool := (List.range 4).any (fun k => (s.slot k).st.loaded)

/-- NOP (R372). -/
def execNopCommand (ring : Fin 5) (s : State) : Host.Outcome State Fault Refusal :=
  .next (s.command ring.val 0x0000 (fun s c => s.finish c 0))

/-- Rows whose spare core is usable (R16, R417). -/
def State.usableSpares (s : State) : Nat := ((List.range 192).filter (fun j => decide (SMap.get .plain s.rows j = .plain))).length
/-- IDENTIFY (R372). -/
def execIdentify (s : State) : Host.Outcome State Fault Refusal :=
  .next (s.command 4 0x0001 (fun s c =>
    s.finish c 0 0 (s.modId.toNat + s.boot.logDensity % 2 * 2 ^ 14 + s.boot.logFwVersion % 65536 * 2 ^ 16 + s.usableSpares % 256 * 2 ^ 32)))

/-- The bitmap of pairs UP or DEGRADED (R372). -/
def State.pairMap (s : State) : Nat := ((List.range 8).map (fun i => if s.pairWord i % 16 ≤ 1 then 2 ^ i else 0)).sum
/-- Complete LINK_CONFIG once every port has trained or failed (R372, R416): the link dies' arbiters leave PARKED mode. -/
def State.endLinkConfig (s : State) : State :=
  if !s.links.training || (List.range 16).any (fun q => (s.lport q).retraining) then s
  else
    let s := (List.range 4).foldl (fun (s : State) d => s.arbAll (20 + d) false) { s with links := { s.links with training := false } }
    match s.activeCmd 0x0010 (fun _ => true) with
    | some c => s.finish c 0 0 s.pairMap
    | none => s
/-- The links with new extents (R258, R277): the ports of a dimension of extent 1 are held OFF, the others train; nothing is in flight. -/
def Links.configure (l : Links) (k : List Nat) : Links :=
  { l with
    k := k, configured := true, training := true, pairs := [], detour := [], blocked := [], lost := [], ring := [], ringHeld := []
    ports := (List.range 16).foldl (fun m q => SMap.modify {} m q (fun (p : LPort) =>
      { locked := p.locked, usable := p.usable, width := p.width, retraining := p.locked && decide (1 < k.getD (q / 4) 1) })) l.ports }
/-- LINK_CONFIG (R258, R277, R372): refused while a slot is loaded; the identity training of every port begins. -/
def execLinkConfig (s : State) : Host.Outcome State Fault Refusal :=
  .next (s.command 4 0x0010 (fun s c =>
    if s.anyLoaded then s.complete c 4 1
    else
      let v := c.fieldAt 0x18 4
      let k := [fld v 3 0 + 1, fld v 7 4 + 1, fld v 10 8 + 1, fld v 13 11 + 1]
      let s := { s.startLong c with links := s.links.configure k }
      let s := (List.range 4).foldl (fun (s : State) d => s.arbAll (20 + d) true) s
      let s := (List.range 16).foldl (fun (s : State) q =>
        if k.getD (q / 4) 1 = 1 then s.setDomain (domKey 6 q) { rung := 6, target := 6 } else s) s
      s.endLinkConfig))

/-- A partition record as read (R295). -/
def parsePart (b : List Byte) : PartRec :=
  { owner := fld (leAt b 0 1) 2 0, valid := bitOf (leAt b 0 1) 3, groups := leAt b 2 2, baseRow := leAt b 4 4, rows := leAt b 8 4
    bulkRate := leAt b 0xC 2, bulkBurst := leAt b 0xE 2, lcQuota := leAt b 0x10 2 }
/-- The lowest offset at which a partition record is refused (R295), in channels of `rows` rows. -/
def State.partRefusal (s : State) (b : List Byte) (rows : Nat) : Option Nat :=
  let p := parsePart b
  let others := (List.range 8).map s.mem.part |>.filter (fun q => q.valid)
  let shares (q : PartRec) : Bool := (groupsOf p.groups).any (groupsOf q.groups).contains
  let bad : List (Nat × Bool) :=
    [(0x00, decide (fld (leAt b 0 1) 7 4 ≠ 0) || decide (p.owner = 7) || (decide (p.owner ≠ 6) && others.any (fun q => decide (q.owner = p.owner)))),
     (0x01, decide (leAt b 1 1 ≠ 0)),
     (0x02, ! [1, 2, 4, 8, 16].contains (groupsOf p.groups).length),
     (0x04, decide (p.baseRow % 1024 ≠ 0) || others.any (fun q => shares q && decide (p.baseRow < q.baseRow + q.rows) &&
       decide (q.baseRow < p.baseRow + p.rows))),
     (0x08, decide (p.rows % 1024 ≠ 0) || decide (rows < p.baseRow + p.rows))] ++
    ((List.range 14).map (fun i => (0x12 + i, decide (leAt b (0x12 + i) 1 ≠ 0))))
  (bad.find? (fun e => e.2)).map (fun e => e.1)
/-- PARTITION_CREATE (R295, R297): the record is put into force, or refused; a partition that is not FREE stays as it is (log 57). -/
def execPartitionCreate (s : State) : Host.Outcome State Fault Refusal :=
  .next (s.command 4 0x0020 (fun s c =>
    let b := (c.bytes.drop 0x18).take 32
    let p := parsePart b
    match s.partRefusal b (rowsOf s.boot.logDensity) with
    | some d => s.complete c 0x12 d
    | none =>
      if s.unitWord 9 c.unitIndex % 16 ≠ 0 then s.complete c 1
      else if s.mem.scrubDue p then s.complete c 0x13
      else
        let k := c.unitIndex
        let s := s.modMem (fun m =>
          let m := { m with parts := SMap.set {} m.parts k p }
          if p.valid then m.hold p else m)
        s.finish c 0))

/-- Whether a partition may be neither destroyed nor scrubbed (R295, R297): a loaded slot owns it, or it is the firmware's. -/
def State.partBusy (s : State) (k : Nat) : Bool := s.ownerLoaded (s.mem.part k) || ((s.mem.part k).valid && decide ((s.mem.part k).owner = 4))
/-- PARTITION_DESTROY (R372): the record becomes invalid; the contents stay (R7). -/
def execPartitionDestroy (s : State) : Host.Outcome State Fault Refusal :=
  .next (s.command 4 0x0021 (fun s c =>
    let k := c.unitIndex
    if s.partBusy k then s.complete c 4 2
    else
      (s.modMem (fun m => { m with
        parts := SMap.set {} m.parts k {}, tokens := SMap.eraseIf (fun i => decide (i % 8 = k)) m.tokens
        lcUsed := SMap.eraseIf (fun i => decide (i % 8 = k)) m.lcUsed })).finish c 0))

/-- SCRUB_PARTITION (R297): it begins; a partition that is not valid has nothing to scrub. -/
def execScrubPartition (s : State) : Host.Outcome State Fault Refusal :=
  .next (s.command 4 0x0022 (fun s c =>
    let k := c.unitIndex
    if s.partBusy k then s.complete c 4 2
    else if !(s.mem.part k).valid then s.finish c 0
    else (s.startLong c).modMem (fun m => { m with parts := SMap.modify {} m.parts k (fun p => { p with scrubbing := true }) })))

/-- Whether a granule number lies in a partition. -/
def PartRec.holds (p : PartRec) (g : Nat) : Bool :=
  (groupsOf p.groups).any (fun grp => decide (granPort g / 12 = grp / 4) && decide (granCh g = grp % 4)) &&
    decide (p.baseRow ≤ granRow g) && decide (granRow g < p.baseRow + p.rows)
/-- Zeros over a partition (R297): its granules read 0, and its rows are held by no owner until they are written again. -/
def Mem.scrub (m : Mem) (k : Nat) : Mem :=
  let p := m.part k
  let gs := groupsOf p.groups
  { m with
    dram := m.dram.clearIf (fun a => p.holds (a / 256))
    bufs := gs.foldl (fun b g => SMap.modify [] b g (fun l => l.filter (fun e => decide (e.row < p.baseRow) || decide (p.baseRow + p.rows ≤ e.row)))) m.bufs
    bad := m.bad.filter (fun g => !p.holds g)
    owners := (m.owners.map (fun e => if gs.contains e.1 then cutRows p.baseRow (p.baseRow + p.rows) e else [e])).flatten
    parts := SMap.set {} m.parts k { p with scrubbing := false, clean := true } }
/-- SCRUB_DONE (R297, R372): RESULT is the bytes of the partition; the ports in service count the granules written. -/
def execScrubDone (part : Fin 8) (s : State) : Host.Outcome State Fault Refusal :=
  let k := part.val
  let p := s.mem.part k
  if !p.scrubbing then .next s
  else
    let dies := (groupsOf p.groups).map (fun g => g / 4)
    let s := (List.range 48).foldl (fun (s : State) q =>
      if (s.mem.port q).away then s else s.count (ckPort Ctr.memWrGranules q) ((dies.filter (fun d => decide (d = q / 12))).length * p.rows)) s
    let s := s.modMem (fun m => m.scrub k)
    .next (match s.activeCmd 0x0022 (fun c => decide (c.unitIndex = k)) with
      | some c => s.finish c 0 0 p.size
      | none => s)

/-- Whether another port of the die is offline or rebuilding (R372). -/
def State.dieDegraded (s : State) (p : Nat) : Bool :=
  (List.range 12).any (fun i => decide (p / 12 * 12 + i ≠ p) && (s.mem.port (p / 12 * 12 + i)).away)
/-- MEM_PORT_SET with ACTION OFFLINE (R290, R372). -/
def execMemPortSetOffline (s : State) : Host.Outcome State Fault Refusal :=
  match s.nextCmd 4 0x0030 with
  | some c =>
    if bitOf (c.fieldAt 0x18 1) 0 then .next s
    else .next (s.checked c (fun s c =>
      let p := c.unitIndex
      if s.dieDegraded p then s.complete c 4 3
      else if (s.mem.port p).st = 1 ∨ (s.mem.port p).st = 3 then s.finish c 0
      else (s.portOffline p 4).finish c 0))
  | none => .next s
/-- MEM_PORT_SET with ACTION RETURN (R292, R372): refused while another port of the die is away or the port is not NORMAL; it retrains at
`rate`, and completes with the rebuild. A port that passes no rate stays as it is (log 58). -/
def execMemPortSetReturn (rate : Option (BitVec 3)) (s : State) : Host.Outcome State Fault Refusal :=
  match s.nextCmd 4 0x0030 with
  | some c =>
    if !bitOf (c.fieldAt 0x18 1) 0 then .next s
    else .next (s.checked c (fun s c =>
      let p := c.unitIndex
      if s.dieDegraded p then s.complete c 4 3
      else if (s.mem.port p).thermal ≠ 0 then s.complete c 4 4
      else if (s.mem.port p).st = 0 then s.finish c 0
      else if (s.mem.port p).st = 2 then s.startLong c
      else match rate with
        | some r => (s.startLong c).portReturn p (some r.toNat)
        | none => s.complete { c with observed := s.unitWord 10 p } 1))
  | none => .next s

/-- Whether R338, R339, R340, R278 or R305 forbids a domain a rung. -/
def State.rungForbidden (s : State) (kind index t : Nat) : Bool :=
  let slots := (List.range 4).filter (fun k => (s.slot k).st.loaded)
  match kind with
  | 0 => decide (4 ≤ t) && slots.any (fun k => (s.slot k).bound.any (fun b => decide (b.1 = coreOfUnit index)))
  | 4 => decide (4 ≤ t) && decide ((s.domain moduleKey).rung < 5)
  | 5 => decide (2 ≤ t) && s.dieOwned (index / 12)
  | 6 => (decide (2 ≤ t) && s.anyLoaded) || (decide (t ≠ 6) && s.heldOff (domKey 6 index))
  | 7 => decide (2 ≤ t) && s.anyLoaded
  | _ => decide (2 ≤ t) &&
    ((onDie index).any (fun k => decide ((s.domain k).rung < t)) ||
      slots.any (fun k => (s.slot k).bound.any (fun b => decide (index < 16) && decide (dieOf b.1 = index))) ||
      (decide (16 ≤ index) && decide (index < 20) && s.dieOwned (index - 16)) ||
      (List.range 32).any (fun ch => decide (16 ≤ index) && (let x := s.chan ((index - 16) * 32 + ch)
        x.valid && slots.contains x.owner)))
/-- A deeper rung is asked of a domain (R341, R342): its DRAIN begins, or its target grows, or it waits for the exit in progress. -/
def State.deepen (s : State) (kind index t : Nat) : State :=
  let k := domOf kind index
  let d := s.domain k
  if d.phase = 0 then
    let s := s.setDomain k { d with target := t, phase := 1, commanded := true }
    if kind = 6 ∧ (s.lport index).up then ((s.handOver index).ctrlNow index 0 t).linkWork
    else s.freezeFor k true
  else if d.phase = 3 then s.setDomain k { d with deeper := some (max t (d.deeper.getD 0)) }
  else s.setDomain k { d with target := max t d.target, commanded := true }
/-- POWER_SET (R342, R372): a deeper rung begins a DRAIN, a shallower one is an enable; a domain that is there already completes. A drain
that an enable cancels leaves the domain ACTIVE, and both commands complete. -/
def execPowerSet (remain : Nat) (s : State) : Host.Outcome State Fault Refusal :=
  .next (s.command 4 0x0040 (fun s c =>
    let t := c.fieldAt 0x18 1 % 8
    let kind := c.unitKind
    let i := c.unitIndex
    let d := s.domain (domOf kind i)
    if s.rungForbidden kind i t then s.complete c 4 5
    else if d.phase = 0 ∧ d.rung = t then s.finish c 0 0 t
    else
      let deep := if d.phase = 3 then decide (0 < t) else if d.phase = 0 then decide (d.rung < t) else decide (d.target ≤ t)
      let s := s.startLong c
      if deep then s.deepen kind i t
      else
        let s := s.enable (domOf kind i) remain false
        let e := s.domain (domOf kind i)
        if e.phase = 0 then s.finishPower kind i none (fun _ => e.rung) else s))

/-- A governor record as read (R349). -/
def parseGov (b : List Byte) : GovRec :=
  { capW := leAt b 0 2, floorW := leAt b 2 2, fMax := leAt b 4 2, fMin := leAt b 6 2, bucketUj := leAt b 8 2, tSoft := leAt b 0xA 1
    ageUs := leAt b 0xB 1, lowPct := leAt b 0xC 1, surplusPct := leAt b 0xD 1, highPct := leAt b 0xE 1, guestOff := bitOf (leAt b 0x10 1) 0
    shadowLow := bitOf (leAt b 0x10 1) 1 }
/-- Whether a number lies in a range. -/
def inRange (v lo hi : Nat) : Bool := decide (lo ≤ v) && decide (v ≤ hi)
/-- The offset of the first offending field of a governor record (R349, R365); `others` is the sum of the other dies' caps. -/
def govRefusal (b : List Byte) (others limit : Nat) : Option Nat :=
  let g := parseGov b
  let checks : List (Nat × Bool) :=
    [(0x00, inRange g.capW 100 260 && decide (others + g.capW + 1300 ≤ limit)), (0x02, inRange g.floorW 10 60),
     (0x04, inRange g.fMax 400 1800 && decide (g.fMax % 50 = 0)), (0x06, inRange g.fMin 400 g.fMax && decide (g.fMin % 50 = 0)),
     (0x08, inRange g.bucketUj 1000 20000), (0x0A, inRange g.tSoft 80 100), (0x0B, inRange g.ageUs 1 64), (0x0C, inRange g.lowPct 10 40),
     (0x0D, inRange g.surplusPct (g.lowPct + 10) 90), (0x0E, inRange g.highPct (g.surplusPct + 5) 95), (0x0F, decide (leAt b 0xF 1 = 0)),
     (0x10, decide (leAt b 0x10 1 < 4))] ++
    (List.range 15).map (fun i => (0x11 + i, decide (leAt b (0x11 + i) 1 = 0)))
  (checks.find? (fun e => !e.2)).map (fun e => e.1)
/-- GOVERNOR_SET (R349): the record is in force from the next window of R355. -/
def execGovernorSet (s : State) : Host.Outcome State Fault Refusal :=
  .next (s.command 4 0x0041 (fun s c =>
    let b := (c.bytes.drop 0x18).take 32
    let d := c.unitIndex
    let w := c.fieldAt 0x38 2
    let others := (((List.range 16).filter (fun i => decide (i ≠ d))).map (fun i => ((s.gov i).next.getD (s.gov i).cfg).capW)).sum
    match govRefusal b others w with
    | some o => s.complete c 0x12 o
    | none => ((s.modGov d (fun g => { g with next := some (parseGov b) })).modBoot (fun x => { x with moduleW := w })).finish c 0))

/-- Write the telemetry entries of a TELEMETRY_READ to staging (R379); with `clear`, what was read is cleared in the same access. -/
def State.readTelemetry (s : State) (c : Cmd) (clear : Bool) : State :=
  let scope := c.fieldAt 0x18 1 % 16
  let idx := c.fieldAt 0x1C 4
  let dest := c.fieldAt 0x20 8
  let mine (k : CKey) : Bool := decide (scopeIndex scope k = some (if scope = 0 then 0 else idx))
  let bytes := (telemEntries s.counters scope mine).flatten
  if c.fieldAt 0x28 4 < bytes.length then s.complete c 6
  else if !s.inStaging dest bytes.length then s.complete c 3 0x20
  else
    let s := s.devWrite dest bytes
    let s := if clear then
        let gone := s.counters.filter (fun e => mine e.1)
        { s with
          counters := s.counters.filter (fun e => !mine e.1)
          cleared := gone.foldl (fun l e => if Ctr.isPeak e.1.id then l else ctrSet l e.1 (ctrGet l e.1 + e.2)) s.cleared }
      else s
    s.finish c 0 0 bytes.length
/-- TELEMETRY_READ and its form with CLEAR (R379): the ring's next command, if its CLEAR bit is `clear`. -/
def State.telemetryRead (s : State) (r : Nat) (clear : Bool) : State :=
  match s.nextCmd r 0x0050 with
  | some c => if bitOf (c.fieldAt 0x18 1) 4 == clear then s.checked c (fun s c => s.readTelemetry c clear) else s
  | none => s
/-- TELEMETRY_READ (R379). -/
def execTelemetryRead (ring : Fin 5) (s : State) : Host.Outcome State Fault Refusal := .next (s.telemetryRead ring.val false)
/-- TELEMETRY_READ with CLEAR (R379). -/
def execTelemetryReadClear (ring : Fin 5) (s : State) : Host.Outcome State Fault Refusal := .next (s.telemetryRead ring.val true)

end Sys2Proof.Machine
end

