-- ==== Sys2Proof/Machine/JobCmds.lean ====
section
/-! DEFINITION. The commands of the slot rings (R97, R98, R154, R155, R240, R253, R372 to R378, R381, R399). -/

namespace Sys2Proof.Machine

/-- A command that its unit cannot take in the state it is in (log 57). -/
def State.wrongState (s : State) (c : Cmd) : State := s.complete c 1
/-- Change the routines of a slot on this module: those of a rank, or a guest's bound cores. -/
def State.loadSlot (s : State) (k : Nat) : State :=
  let x := s.slot k
  if k = 0 then (if x.rank = 0xFFFF then s else s.loadRoutines 0 x.rank)
  else ((coresOf x.image 0xFFFF).filter (fun c => x.bound.contains (c.no, c.guest))).foldl (fun (s : State) c => s.loadCore k c) s
/-- A slot with a guest image's map in force (R376, R377). -/
def Slot.withGuest (x : Slot) (dev : Nat) : Slot :=
  { x.withRank 0xFFFF with bound := (bindingOf x.image dev).map (fun no => (no, true)) }

/-- A training load begins (R242, R373): the slot waits for the job-load epoch, which the master issues at once. -/
def State.beginLoad (s : State) (c : Cmd) (b : List Byte) (part : Nat) : State :=
  let rank := (rankOf b s.modId.toNat).getD 0xFFFF
  let ep := secFor b 7 rank
  let start := c.fieldAt 0x30 4
  let x : Slot :=
    { st := .loading, seed := BitVec.ofNat 64 (c.fieldAt 0x28 8), part := part, step := BitVec.ofNat 32 (start - 1), decided := start - 1
      committed := start - 1, image := b, base := b, lostTimeout := imgTimeout b, coll := parseColl (secFor b 4 rank)
      succ := parseSucc ep }
  let s := (s.setSlot 0 x).startLong c
  if x.coll.master = s.modId.toNat then
    s.issueEpoch { epoch := 0, first := start, master := x.coll.master, members := parseMembers ep, roles := parseRoles ep }
  else s
/-- A job is to be loaded: a link port that is deeper than GATED is woken, since deeper rungs are for a module without a job (R278). -/
def State.wakePorts (s : State) : State :=
  (List.range 16).foldl (fun (s : State) p =>
    let d := s.domain (domKey 6 p)
    if 2 ≤ d.rung ∨ 2 ≤ d.target then s.enable (domKey 6 p) 0 false else s) s
/-- A guest load (R373, R377): the slot runs at once. -/
def State.guestLoad (s : State) (c : Cmd) (b : List Byte) (part : Nat) : State :=
  let k := c.ring
  let x : Slot := { st := .running, guest := true, seed := BitVec.ofNat 64 (c.fieldAt 0x28 8), part := part, image := b, base := b }
  let s := s.setSlot k (x.withGuest s.modId.toNat).withRecords
  ((s.grantChans k).loadSlot k).finish c 0
/-- JOB_LOAD (R373 to R377): the image is checked whole before anything changes. -/
def execJobLoad (ring : Fin 4) (s : State) : Host.Outcome State Fault Refusal :=
  .next (s.command ring.val 0x0100 (fun s c =>
    let k := c.ring
    let n := c.fieldAt 0x20 5
    let part := c.fieldAt 0x34 1 % 8
    let p := s.mem.part part
    if (s.slot k).st ≠ .empty then s.wrongState c
    else if !s.inStaging (c.fieldAt 0x18 8) n then s.complete c 3 0x18
    else if !p.valid || decide (p.owner ≠ k) then s.complete c 3 0x34
    else
      let b := s.devRead (c.fieldAt 0x18 8) n
      match imageRefusal s b n k part false with
      | some (st, d) => s.complete c st d
      | none => if k = 0 then s.wakePorts.beginLoad c b part else s.wakePorts.guestLoad c b part))

/-- Take a slot's channels away (R307, R324): queued descriptors end ABORTED first. -/
def State.revokeChans (s : State) (k : Nat) (keep : List Nat) : State :=
  { s with dma := SMap.mapVals {} (fun i c =>
      if c.valid && decide (c.owner = k) && !keep.contains i then
        (if c.queue.isEmpty then { c with valid := false } else { c.abort s.mem 0x10 with closing := true })
      else c) s.dma }
/-- The cores of a slot hold no routine of it any more. -/
def State.unbind (s : State) (k : Nat) : State :=
  (s.slot k).bound.foldl (fun (s : State) b => s.modCore b.1 (fun c =>
    let c := c.setCtx b.2 { slot := 0, purse := (c.ctx b.2).purse }
    { c with joiner := c.joiner.filter (fun j => j.guest != b.2), tq := c.tq.filter (fun e => e.guest != b.2)
             chestLines := if k = 0 then 0 else c.chestLines })) s
/-- Complete every command of a ring but one as ABORTED (R372). -/
def State.abortCmds (s : State) (r : Nat) (but : Cmd) : State :=
  (s.mail.cmds.filter (fun c => decide (c.ring = r) && decide (c ≠ but))).foldl (fun (s : State) c => s.complete c 0x21) s
/-- Unload a slot (R372, R423): its channels, cores and records are given up; the partition keeps its contents (R7). -/
def State.unloadSlot (s : State) (k : Nat) : State :=
  let cores := (s.slot k).bound.filter (fun b => b.2)
  let s := (s.revokeChans k []).unbind k
  let s := cores.foldl (fun (s : State) b => s.modCore b.1 (fun c => { c with guestBound := 0 })) s
  let s := if k = 0 then s.emptyChest false else s
  s.setSlot k {}
/-- JOB_UNLOAD (R372). -/
def execJobUnload (ring : Fin 4) (s : State) : Host.Outcome State Fault Refusal :=
  .next (s.command ring.val 0x0101 (fun s c =>
    let k := c.ring
    let st := (s.slot k).st
    if [SlotState.ready, .halted, .haltedBeyond].contains st || (decide (k ≠ 0) && decide (st = .running)) then
      ((s.startLong c).abortCmds k { c with active := true } |>.unloadSlot k).finish { c with active := true } 0
    else s.wrongState c))

/-- Put a new map into force (R376): a JOB_MAP image's sections replace the slot's. -/
def State.applyMap (s : State) (k : Nat) (b : List Byte) : State :=
  let me := s.modId.toNat
  let s := (s.revokeChans k (grantsOf b me)).unbind k
  let s := s.modSlot k (fun x => { x with image := b })
  let s := if k = 0 then
      let s := s.applyRank ((rankOf b me).getD 0xFFFF)
      s.modSlot 0 (fun x => { x with bkts := openBuckets x (x.decided + 1) })
    else (s.modSlot k (fun x => x.withGuest me)).grantChans k
  s.loadSlot k
/-- JOB_MAP as it acts (R376). -/
def State.actMap (s : State) (c : Cmd) : State :=
  let k := c.ring
  let n := c.fieldAt 0x20 5
  if !(s.slot k).st.loaded then s.wrongState c
  else if !s.inStaging (c.fieldAt 0x18 8) n then s.complete c 3 0x18
  else
    let b := s.devRead (c.fieldAt 0x18 8) n
    match imageRefusal s b n k (s.slot k).part true with
    | some (st, d) => s.complete c st d
    | none => (s.applyMap k b).finish c 0

/-- The key of a layer product. -/
def prodKey (layer product : Nat) : Nat := layer * 4 + product
/-- WIDE of an entry (R97): PIN, or the layer fall-back state. -/
def Slot.wideEntry (x : Slot) (layer : Nat) : Word :=
  let e := SMap.get 0x200#32 x.modes layer
  let w := (List.range 3).foldl (fun a p => a + b2n (e.getLsbD (3 + p) || (SMap.get {} x.lprods (prodKey layer p)).wide) * 2 ^ p) 0
  BitVec.ofNat 32 (e.toNat / 8 * 8 + w)
/-- The mode entries of a step in normal mode (R97). -/
def Slot.formModes (x : Slot) : Slot :=
  let layers := (x.modes.map (fun (e : Nat × Word) => e.1) ++ x.lprods.map (fun (e : Nat × LProd) => e.1 / 4)).eraseDups
  { x with modes := layers.foldl (fun m l => SMap.set 0x200#32 m l (x.wideEntry l)) x.modes }
/-- A changed entry takes effect (R97): slot 0's at the next step boundary, a guest's, which has no steps, at once (DEDUCED, log 80). -/
def Slot.modesChanged (x : Slot) : Slot := if x.guest then x.formModes else x
/-- An entry under VALUE and MASK (R97). -/
def modeChange (e : Word) (v mask : Nat) : Word := (e &&& ~~~(BitVec.ofNat 32 mask)) ||| (BitVec.ofNat 32 v &&& BitVec.ofNat 32 mask)
/-- LAYER_MODE as it acts (R97): 0xFFFF is every layer; an entry never holds SH = 3. -/
def State.actMode (s : State) (c : Cmd) : State :=
  let layer := c.fieldAt 0x18 2
  let v := c.fieldAt 0x1C 4
  let mask := c.fieldAt 0x20 4
  let modes := (s.slot c.ring).modes
  let change (l : Nat) : Word := modeChange (SMap.get 0x200#32 modes l) v mask
  let bad (e : Word) : Bool := decide (fld e.toNat 11 10 = 3)
  if layer = 0xFFFF then
    let new := (List.range 0xFFFF).map (fun l => (l, change l))
    if new.any (fun e => bad e.2) then s.complete c 3 0x1C
    else (s.modSlot c.ring (fun x => { x with modes := new.filter (fun e => decide (e.2 ≠ 0x200#32)) }.modesChanged)).finish c 0
  else if bad (change layer) then s.complete c 3 0x1C
  else (s.modSlot c.ring (fun x => { x with modes := SMap.set 0x200#32 x.modes layer (change layer) }.modesChanged)).finish c 0

/-- The offset of a policy record's first offending field (R98). -/
def policyRefusal (b : List Byte) : Option Nat :=
  if !inRange (leAt b 0 4) 0x3A800000 0x3F800000 then some 0
  else if !inRange (leAt b 4 2) 1 1024 then some 4
  else if leAt b 6 2 = 0 then some 6
  else if leAt b 8 2 < leAt b 6 2 then some 8
  else if leAt b 0xA 2 ≠ 0 then some 0xA
  else if leAt b 0xC 4 ≠ 0 then some 0xC
  else none
/-- FALLBACK_POLICY as it acts (R98). -/
def State.actPolicy (s : State) (c : Cmd) : State :=
  let b := (c.bytes.drop 0x18).take 16
  match policyRefusal b with
  | some d => s.complete c 0x12 d
  | none => (s.modSlot c.ring (fun x => { x with policy := parsePolicy b })).finish c 0

/-- EPOCH_ISSUE as it acts (R240, R241): the master issues an epoch, and the command completes with its adoption. -/
def State.actEpoch (s : State) (c : Cmd) : State :=
  let x := s.slot 0
  if !s.isMaster then s.complete c 4 7
  else if x.epoch.epoch = 0xFFFF then s.complete c 4 8
  else if !s.inStaging (c.fieldAt 0x18 8) 0x10800 then s.complete c 3 0x18
  else
    let b := s.devRead (c.fieldAt 0x18 8) 0x10800
    (s.startLong c).issueEpoch { epoch := x.epoch.epoch + 1, first := c.fieldAt 0x20 4, master := s.modId.toNat, perm := x.epoch.perm
                                 members := parseMembers b, roles := parseRoles b }

/-- SPARE_SET as it acts (R399): the list of spare modules, in order of preference. -/
def State.actSpares (s : State) (c : Cmd) : State :=
  let n := c.fieldAt 0x20 1
  if !s.inStaging (c.fieldAt 0x18 8) (2 * n) then s.complete c 3 0x18
  else
    let ids := (entriesOf (s.devRead (c.fieldAt 0x18 8) (2 * n)) 2).map leNat
    match ids.findIdx? (fun d => decide (16384 ≤ d)) with
    | some i => s.complete c 0x12 (2 * i)
    | none => (s.modSlot 0 (fun x => { x with spares := ids })).finish c 0

/-- A boundary command acts (R370). -/
def State.actBoundary (s : State) (c : Cmd) : State :=
  s.checked c (fun s c =>
    if c.opcode = 0x0102 then s.actMap c
    else if c.opcode = 0x0120 then s.actMode c
    else if c.opcode = 0x0121 then s.actPolicy c
    else if c.opcode = 0x0130 then s.actEpoch c
    else s.actSpares c)
/-- Whether a RUN_STEP of slot 0 follows a command in its ring, or one waits to be released (R370). -/
def State.stepFollows (s : State) (c : Cmd) : Bool :=
  let l := s.mail.cmds.filter (fun x => decide (x.ring = 0))
  ((l.drop (l.idxOf c + 1)).any (fun x => decide (x.opcode = 0x0110)))
/-- Whether every bound core of a slot stands at a routine's start, or runs none. -/
def State.atStart (s : State) (k : Nat) : Bool :=
  (s.slot k).bound.all (fun b =>
    let t := s.ctx (siteOf b.1 b.2)
    match t.status with
    | .idle => true
    | .trapped _ => true
    | .faulted _ => true
    | _ => decide (t.pos = 0) && t.inflight.isEmpty)
/-- A boundary command's own row (R370): on slot 0's ring it acts at a boundary that no RUN_STEP after it will make; on a guest's, each core takes
the changed entries at its next routine start, and a new map acts once every bound core stands at one (DEDUCED, log 80). -/
def State.boundaryRow (s : State) (r op : Nat) : State :=
  match s.nextCmd r op with
  | none => s
  | some c => if (if r = 0 then (s.slot 0).run.isSome || s.stepFollows c else decide (op = 0x0102) && !s.atStart r) then s else s.actBoundary c
/-- JOB_MAP (R376). -/
def execJobMap (ring : Fin 4) (s : State) : Host.Outcome State Fault Refusal := .next (s.boundaryRow ring.val 0x0102)
/-- LAYER_MODE (R97). -/
def execLayerMode (ring : Fin 4) (s : State) : Host.Outcome State Fault Refusal := .next (s.boundaryRow ring.val 0x0120)
/-- FALLBACK_POLICY (R98). -/
def execFallbackPolicy (ring : Fin 4) (s : State) : Host.Outcome State Fault Refusal := .next (s.boundaryRow ring.val 0x0121)
/-- EPOCH_ISSUE (R240, R241). -/
def execEpochIssue (s : State) : Host.Outcome State Fault Refusal := .next (s.boundaryRow 0 0x0130)
/-- SPARE_SET (R399). -/
def execSpareSet (s : State) : Host.Outcome State Fault Refusal := .next (s.boundaryRow 0 0x0132)

/-- STATE_COPY (R372): bytes between staging and the slot's partition (log 59). -/
def State.stateCopy (s : State) (c : Cmd) (out : Bool) : State :=
  let k := c.ring
  let sa := c.fieldAt 0x20 8
  let da := c.fieldAt 0x28 8
  let n := c.fieldAt 0x30 5
  let p (a : Nat) : PartRec := s.mem.part (devPart a)
  if !(isDev sa && (p sa).valid && decide ((p sa).owner = 6)) then s.complete c 3 0x20
  else if !(isDev da && (p da).valid && decide ((p da).owner = k)) then s.complete c 3 0x28
  else if (p sa).size < devOff sa + n ∨ (p da).size < devOff da + n then s.complete c 6
  else (if out then s.devWrite sa (s.devRead da n) else s.devWrite da (s.devRead sa n)).finish c 0 0 n
/-- The ring's next STATE_COPY, if its DIR is `out`. -/
def State.copyRow (s : State) (r : Nat) (out : Bool) : State :=
  match s.nextCmd r 0x0103 with
  | some c => if bitOf (c.fieldAt 0x18 1) 0 == out then s.checked c (fun s c => s.stateCopy c out) else s
  | none => s
/-- STATE_COPY with DIR 0 (R372). -/
def execStateCopyIn (ring : Fin 4) (s : State) : Host.Outcome State Fault Refusal := .next (s.copyRow ring.val false)
/-- STATE_COPY with DIR 1 (R372). -/
def execStateCopyOut (ring : Fin 4) (s : State) : Host.Outcome State Fault Refusal := .next (s.copyRow ring.val true)

/-- The last step that slot 0 has released or decided (R378). -/
def Slot.lastReleased (x : Slot) : Nat := max x.decided (max ((x.run.map (fun r => r.step)).getD 0) ((x.after.map (fun r => r.step)).getD 0))
/-- RUN_STEPs accepted and not yet released, in order (R378). -/
def State.acceptedSteps (s : State) : List Cmd :=
  s.mail.cmds.filter (fun c => decide (c.ring = 0) && c.active && decide (c.opcode = 0x0110) &&
    decide ((s.slot 0).lastReleased < c.fieldAt 0x18 4))
/-- RUN_STEP (R155, R378, R381): accepted when it names the slot's next step and its table passes. -/
def execRunStep (s : State) : Host.Outcome State Fault Refusal :=
  .next (s.command 0 0x0110 (fun s c =>
    let x := s.slot 0
    let next := x.lastReleased + 1 + s.acceptedSteps.length
    let ua := c.fieldAt 0x20 8
    let un := 64 * x.nUpd
    let tbl := s.devRead ua un
    if !x.st.loaded then s.wrongState c
    else if x.st = .halted then s.complete c 0x20
    else if x.st = .haltedBeyond then s.complete c 0x22
    else if x.rollback.isSome && !(x.run.any (fun r => r.repair)) then s.complete c 4 6
    else if c.fieldAt 0x18 4 ≠ next then s.complete c 5 (next % 65536)
    else if !s.inStaging ua un then s.complete c 3 0x20
    else if !bitOf (c.fieldAt 0x1C 4) 13 && !s.inStaging (c.fieldAt 0x30 8) (c.fieldAt 0x38 4) then s.complete c 3 0x30
    else match Upd.tableRefusal tbl with
      | some d => s.complete c 0x12 d
      | none => s.modMail (fun m => { m with cmds := swapCmd c { c with active := true, data := tbl } m.cmds })))
/-- CANCEL_STEPS (R372): accepted RUN_STEPs not yet released complete ABORTED. -/
def execCancelSteps (s : State) : Host.Outcome State Fault Refusal :=
  .next (s.command 0 0x0111 (fun s c =>
    let l := s.acceptedSteps
    (l.foldl (fun (s : State) e => s.complete e 0x21) s).finish c 0 0 l.length))
/-- EPOCH_CLOSE (R246, R390). -/
def execEpochClose (s : State) : Host.Outcome State Fault Refusal :=
  .next (s.command 0 0x0131 (fun s c => (s.epochClose 7).finish c 0))

/-- A permutation-table entry (R252), unless a reserved bit or value stands in it. -/
def parsePerm (e : List Byte) : Option PermEntry :=
  let w := leAt e 0 4
  let p : PermEntry :=
    { src := fld w 13 0, dst := fld w 27 14, kind := fld w 31 28, layer := leAt e 4 2, shard := leAt e 6 2, srcAddr := leAt e 8 8
      dstAddr := leAt e 0x10 8, bytes := leAt e 0x18 5 }
  if 4 < p.kind ∨ p.bytes % 256 ≠ 0 ∨ leAt e 0x1D 3 ≠ 0 then none else some p
/-- The permutation whose table was loaded starts, between the last committed step and the next (R253). -/
def State.startReshard (s : State) : State :=
  let x := s.slot 0
  match x.permNext with
  | some (number, es) =>
    if x.run.isSome || x.prev.isSome || x.perm.active then s
    else (s.modSlot 0 (fun x => { x with permNext := none })).startPerm number none es
  | none => s
/-- RESHARD (R252, R253): its table is loaded into the free table buffer, while another permutation may run, and starts between the last
committed step and the next; a table with a reserved bit or value is a bad field (log 60). -/
def execReshard (s : State) : Host.Outcome State Fault Refusal :=
  let x := s.slot 0
  if x.permNext.isSome then .next s.startReshard
  else .next (s.command 0 0x0140 (fun s c =>
    let n := 32 * c.fieldAt 0x20 4
    let a := c.fieldAt 0x18 8
    if !x.st.loaded then s.wrongState c
    else if x.epoch.epoch = 0xFFFF then s.complete c 4 8
    else if !s.inStaging a n then s.complete c 3 0x18
    else
      let es := (entriesOf (s.devRead a n) 32).map parsePerm
      if es.all Option.isSome then
        ((s.startLong c).modSlot 0 (fun x => { x with permNext := some (c.fieldAt 0x24 4, es.filterMap id) })).startReshard
      else s.complete c 3 0x18))

/-- JOURNAL_READ (R372, R405): every record of the steps named, by step; each step must have its decided record. -/
def execJournalRead (s : State) : Host.Outcome State Fault Refusal :=
  .next (s.command 0 0x0150 (fun s c =>
    let first := c.fieldAt 0x18 4
    let last := c.fieldAt 0x1C 4
    let mine := s.journal.recs.filter (fun e => decide (e.2.1 = 0) && decide (first ≤ e.1) && decide (e.1 ≤ last))
    let steps := (mine.map (fun e => e.1)).foldl (fun l n => insNat n l) []
    let read (e : Nat × Nat × Nat × Nat) : List Byte := match s.journalPart with
      | some p => s.devRead (devAddr p e.2.2.1) e.2.2.2
      | none => []
    let data := steps.flatMap (fun n => (mine.filter (fun e => decide (e.1 = n))).flatMap read)
    if (steps.filter (fun n => (s.journalRecord 0 n).isSome)).length ≠ last + 1 - first then s.complete c 0x16
    else if c.fieldAt 0x28 4 < data.length then s.complete c 6
    else if !s.inStaging (c.fieldAt 0x20 8) data.length then s.complete c 3 0x20
    else (s.devWrite (c.fieldAt 0x20 8) data).finish c 0 0 data.length))

/-- REPLAY_STEP (R381, R408): the held step waits to be released in replay mode, with what its journal record gives. -/
def execReplayStep (s : State) : Host.Outcome State Fault Refusal :=
  .next (s.command 0 0x0151 (fun s c =>
    let x := s.slot 0
    let n := c.fieldAt 0x18 4
    if x.st ≠ .ready ∨ x.run.isSome then s.wrongState c
    else if x.rollback ≠ some n then s.complete c 0x14
    else match s.journalRecord 0 n with
      | none => s.complete c 0x16
      | some b =>
        let un := 64 * leAt b 0x38 4
        let ua := c.fieldAt 0x20 8
        if !s.inStaging ua un then s.complete c 3 0x20
        else if (crc32c (s.devRead ua un)).toNat ≠ leAt b 0x28 4 then s.complete c 0x15
        else (s.startLong c).modSlot 0 (fun x => { x with
          run := some { step := n, m := leAt b 0x18 4 % 4096 + 1, noTelem := true, upd := recUpd b, batch := leAt b 0x10 8, replay := true
                        diag := true, shadowAll := bitOf (c.fieldAt 0x1C 1) 0 }
          decision := none })))
/-- ROLLBACK_RELEASE (R381). -/
def execRollbackRelease (s : State) : Host.Outcome State Fault Refusal :=
  .next (s.command 0 0x0152 (fun s c =>
    if (s.slot 0).rollback = some (c.fieldAt 0x18 4) then (s.modSlot 0 (fun x => { x with rollback := none })).finish c 0
    else s.complete c 0x14))

end Sys2Proof.Machine
end

