-- ==== Sys2Proof/Machine/Boundary.lean ====
section
/-! DEFINITION. The step boundary (R24, R75, R99, R105, R158, R160, R165, R214, R370, R402, R408): what firmware reports of the step that
ended, what it decides for the next one, and the release. -/

namespace Sys2Proof.Machine

/-- The hold length in force (R99). -/
def LProd.holdNow (p : LProd) (hold0 : Nat) : Nat := if p.hold = 0 then hold0 else p.hold
/-- One more 4-bit step over or under the trigger (R99). -/
def LProd.evidence (p : LProd) (pol : Policy) (hold0 : Nat) (above : Bool) : LProd :=
  if above then { p with overs := p.overs + 1, clean := 0 }
  else { p with overs := 0, clean := p.clean + 1, hold := if pol.hold ≤ p.clean + 1 then pol.hold else p.holdNow hold0 }
/-- `evaluate` of R99: the new state, and whether it switched wide mode on or off, with the hold that the event carries. -/
def LProd.evaluate (p : LProd) (pol : Policy) (hold0 fb chunks : Nat) : LProd × Option (Bool × Nat) :=
  if p.wide then
    if p.left ≤ 1 then ({ p with left := 0, wide := false, overs := 0, clean := 0 }, some (false, p.holdNow hold0))
    else ({ p with left := p.left - 1 }, none)
  else if chunks = 0 then (p, none)
  else
    let q := p.evidence pol hold0 (Frac.lt (Frac.mul (Frac.ofF32 pol.frac) (Frac.ofInt chunks)) (Frac.ofInt fb))
    let h := q.holdNow hold0
    if pol.trigSteps ≤ q.overs then ({ q with wide := true, left := h, hold := min (2 * h) pol.holdMax }, some (true, h)) else (q, none)

/-- f_n as the events carry it (R99): rounded once to FP32, +0.0 without a 4-bit chunk. -/
def ratioF32 (fb chunks : Nat) : Word := BitVec.ofNat 32 (Frac.round Fp.fp32 { num := fb, den := max 1 chunks })
/-- Whether a counter belongs to a job slot: slot 0's are those of the main contexts and the module's own, a guest slot's those of the guest
contexts that it binds. -/
def State.ofSlot (s : State) (k : Nat) (key : CKey) : Bool :=
  if k = 0 then decide (key.ctx ≠ some true)
  else decide (key.ctx = some true) && key.core.any (fun c => (s.slot k).bound.contains (c, true))
/-- The layers that a counter is kept for in a job slot, in ascending order. -/
def State.layersIn (s : State) (k : Nat) (ids : List Nat) : List Nat :=
  (s.counters.filterMap (fun e => if ids.contains e.1.id && s.ofSlot k e.1 then e.1.layer else none)).foldl (fun l n => insNat n l) []
/-- Those of slot 0. -/
def State.layersOf (s : State) (ids : List Nat) : List Nat := s.layersIn 0 ids
/-- The layer products that may be evaluated (R99): those that ran and those that are held in wide mode. -/
def State.evalKeys (s : State) : List Nat :=
  (((s.layersOf [Ctr.nibChunks, Ctr.tileFb]).filter (fun l => decide (l < 0xFFFF))).flatMap (fun l => (List.range 3).map (prodKey l)) ++
    (s.slot 0).lprods.map (fun e => e.1)).foldl (fun l n => insNat n l) []

/-- Evaluate one layer product (R99) unless it is pinned or locked: its state changes, and a switch is posted and counted. -/
def State.evalProd (s : State) (skip : Bool) (key : Nat) : State :=
  let x := s.slot 0
  let layer := key / 4
  let p := key % 4
  let e := SMap.get 0x200#32 x.modes layer
  if e.getLsbD (3 + p) || e.getLsbD (6 + p) then s
  else
    let fb := s.rise (ofProduct Ctr.tileFb layer p)
    let chunks := fb + s.rise (ofProduct Ctr.nibChunks layer p)
    let (q, sw) := (SMap.get {} x.lprods key).evaluate x.policy x.hold0 fb chunks
    let s := s.modSlot 0 (fun x => { x with lprods := SMap.set {} x.lprods key q })
    match sw with
    | none => s
    | some (on, hold) =>
      (s.count { id := if on then Ctr.layerWideOn else Ctr.layerWideOff, slot := some 0, layer := some layer, product := some p }).post
        (if on then 0x0103 else 0x0104) .info (some 0) (unitRef 8 0)
        (payload [(2, layer), (2, p), (4, (ratioF32 fb chunks).toNat), (4, hold)]) skip

/-- QUANT_SCALE_EVENT of a layer of a job slot whose ROUND_ZERO_EVT or SAT_EVT rose in the step (R75). -/
def State.scaleEvent (s : State) (k : Nat) (skip replay : Bool) (layer : Nat) : State :=
  let r (id : Nat) : Nat := s.rise (fun key => decide (key.id = id) && decide (key.layer = some layer) && s.ofSlot k key)
  let rz := r Ctr.roundZeroEvt
  let st := r Ctr.satEvt
  if rz + st = 0 then s else s.post 0x0102 .info (some k) (unitRef 8 k)
    (payload [(2, layer), (2, SMap.get 0 (s.slot k).qpol layer), (4, rz), (4, st), (4, r Ctr.scaleOverride)]) skip replay
/-- QUANT_SCALE_EVENT (R75), UPDATE_FROZEN (R158) and SCALE_EXC_OVF (R160) of a layer of slot 0 whose counts rose. -/
def State.layerReports (s : State) (skip replay : Bool) (layer : Nat) : State :=
  let r (id : Nat) : Nat := s.rise (ofLayer id layer)
  let fz := r Ctr.updFrozen
  let ov := r Ctr.scaleExcOvf
  let src := unitRef 8 0
  let s1 := s.scaleEvent 0 skip replay layer
  let s2 := if fz = 0 then s1 else s1.post 0x0106 .info (some 0) src (payload [(2, layer), (2, 0), (4, fz)]) skip replay
  if ov = 0 then s2 else s2.post 0x0107 .info (some 0) src (payload [(2, layer), (2, 0), (4, ov)]) skip replay

/-- Insert a shadow record in the order of R105. -/
def insShadow (r : ShadowRec) : List ShadowRec → List ShadowRec
  | [] => [r]
  | a :: t => if r.mb < a.mb ∨ (r.mb = a.mb ∧ r.tile < a.tile) then r :: a :: t else a :: insShadow r t
/-- A sum of FP32 values in FP64, in order (R105). -/
def sum64 (l : List Word) : Nat := l.foldl (fun a v => Fp.pack Fp.fp64 (Fp.add (Fp.unpack Fp.fp64 a) (Fp.val v))) 0
/-- The relative error energy of two FP64 sums, as FP32 (R105). -/
def errorEnergy (num den : Nat) : Word :=
  match Fp.unpack Fp.fp64 num, Fp.unpack Fp.fp64 den with
  | .nan, _ => Fp.qnan
  | _, .nan => Fp.qnan
  | .inf _, .inf _ => Fp.qnan
  | .inf _, .fin _ _ _ => 0x7F800000#32
  | .fin _ _ _, .inf _ => 0#32
  | .fin n a i, .fin m b j =>
    if b = 0 then (if a = 0 then 0#32 else 0x7F800000#32)
    else BitVec.ofNat 32 (Frac.round Fp.fp32 (Frac.div (Frac.ofVal (.fin n a i)) (Frac.ofVal (.fin m b j))))
/-- SHADOW_REPORT of one layer product (R105). -/
def State.shadowReport (s : State) (skip replay : Bool) (key : Nat) : State :=
  let mine := ((s.slot 0).shadows.filter (fun r => decide (prodKey r.layer r.product = key))).foldl (fun l r => insShadow r l) []
  let top := mine.foldl (fun a r => max a r.maxAbs.toNat) 0
  let e := errorEnergy (sum64 (mine.map (fun r => r.eNum))) (sum64 (mine.map (fun r => r.eDen)))
  s.post 0x0105 .info (some 0) (unitRef 8 0)
    (payload [(2, key / 4), (2, key % 4), (4, mine.length), (4, top), (4, e.toNat), (4, (mine.map (fun r => r.nonfin)).sum)]) skip replay

/-- The FAULT_ABSORBED kind of a counter, and its unit in the SOURCE form (R402, R403); a lane swap and a symbol corrected by the FEC are absorbed
faults of the link port (R2; DEDUCED, log 95). -/
def absorbedUnit (k : CKey) : Option (Nat × Nat) :=
  let dieKind (d : Nat) : Nat := if d < 16 then 1 else if d < 20 then 2 else if d < 24 then 3 else 4
  if k.id = Ctr.coreSramCorrected then k.core.map (fun c => (0x01, unitRef 0 (coreRef c)))
  else if k.id = Ctr.eccCorrected ∨ k.id = Ctr.eccReconstructed then k.unit.map (fun p => (0x04, unitRef 10 p))
  else if k.id = Ctr.seamReplay then k.die.map (fun d => (0x05, unitRef (dieKind d) d))
  else if k.id = Ctr.linkReplay ∨ k.id = Ctr.linkFecCorrected ∨ k.id = Ctr.laneSpared then k.unit.map (fun p => (0x05, unitRef 6 p))
  else if k.id = Ctr.mirrorRetry then some (0x08, unitRef 8 0)
  else none
/-- One FAULT_ABSORBED for each kind and unit whose count rose in the step (R402); a correction in place adds no time that counts. -/
def State.absorbedReports (s : State) : State :=
  let units := (s.counters.filterMap (fun e => absorbedUnit e.1)).eraseDups
  units.foldl (fun (s : State) u =>
    let n := s.rise (fun k => decide (absorbedUnit k = some u))
    if n = 0 then s else s.absorbed u.1 u.2 n 0 (s.slot 0).step.toNat) s

/-- What firmware makes of the step that has ended (R75, R99, R105, R402); a replay is not evaluated (R100). -/
def State.stepReports (s : State) : State :=
  match (s.slot 0).boundary with
  | none => s
  | some (skip, replay) =>
    let s := (s.layersOf [Ctr.roundZeroEvt, Ctr.satEvt, Ctr.updFrozen, Ctr.scaleExcOvf]).foldl
      (fun (s : State) l => s.layerReports skip replay l) s
    let s := [1, 2, 3].foldl (fun (s : State) k =>
      (s.layersIn k [Ctr.roundZeroEvt, Ctr.satEvt]).foldl (fun (s : State) l => s.scaleEvent k false false l) s) s
    let s := if replay then s else s.evalKeys.foldl (fun (s : State) k => s.evalProd skip k) s
    let keys := ((s.slot 0).shadows.map (fun r => prodKey r.layer r.product)).foldl (fun l n => insNat n l) []
    keys.foldl (fun (s : State) k => s.shadowReport skip replay k) s

/-- The mode entries of a replayed step (R100, R408): those that the journal recorded, over the entries as they are. -/
def State.replayModes (s : State) (step : Nat) : State :=
  match s.journalRecord 0 step with
  | none => s
  | some b => s.modSlot 0 (fun x => { x with
      keptModes := some (x.keptModes.getD x.modes)
      modes := (recTensors b).foldl (fun m t => SMap.set 0x200#32 m (leAt t 0 2) (BitVec.ofNat 32 (leAt t 8 4))) x.modes })
/-- Wide copies formed late (R165): of each owned tensor that needs one and whose current area has none. -/
def State.lateCopies (s : State) : State :=
  s.owned.foldl (fun (s : State) o =>
    let x := s.slot 0
    if needsWide (SMap.get 0x200#32 x.modes o.1) && !x.wides.contains o.1 then
      (s.formWideCopy o.1 o.2.1 o.2.2).modSlot 0 (fun x => { x with wides := insNat o.1 x.wides })
    else s) s

/-- The main contexts of slot 0. -/
def State.mainCores (s : State) : List Nat := ((s.slot 0).bound.filter (fun b => !b.2)).map (fun b => b.1)
/-- Whether an event that is never dropped waits for ring space (R385). -/
def State.eventBlocked (s : State) : Bool :=
  let room := if (s.ring 10).run then (s.ring 10).free else 0
  (s.events.drop room).any (fun e => decide (e.cls ≠ 0))

/-- What an accepted RUN_STEP asks (R378, R382). -/
def Cmd.toRun (c : Cmd) : Run :=
  let w := c.fieldAt 0x1C 4
  { step := c.fieldAt 0x18 4, m := w % 4096 + 1, hold := bitOf w 12, noTelem := bitOf w 13, upd := c.data, batch := c.fieldAt 0x28 8
    telem := c.fieldAt 0x30 8, telemCap := c.fieldAt 0x38 4 }
/-- The step to be released next (R370, R378, R381, R390, R401): an attempt that runs again or a replay, else the step that a repair
delayed, else the next accepted one, unless a rollback is held. -/
def State.nextRun (s : State) : Option Run :=
  let x := s.slot 0
  match x.run, x.after with
  | some r, _ => some r
  | none, some r => some r
  | none, none =>
    if x.rollback.isSome then none
    else (s.acceptedSteps.find? (fun c => decide (c.fieldAt 0x18 4 = x.lastReleased + 1))).map Cmd.toRun

/-- The boundary commands of slot 0 that stand before a step's RUN_STEP (R370). -/
def State.commandsBefore (s : State) (r : Run) : List Cmd :=
  let l := s.mail.cmds.filter (fun c => decide (c.ring = 0))
  (l.takeWhile (fun c => !(decide (c.opcode = 0x0110) && c.active && decide (c.fieldAt 0x18 4 = r.step)))).filter (fun c => boundaryOp c.opcode)
/-- Apply waiting boundary commands in ring order (R370); a re-run or a replay applies none. -/
def State.applyBoundary (s : State) : State :=
  match (s.slot 0).run, (s.slot 0).after, s.nextRun with
  | none, none, some r => (s.commandsBefore r).foldl (fun (s : State) c => s.actBoundary c) s
  | _, _, _ => s

/-- Whether slot 0 may release a step now (R24, R253, R385, R391): a re-run does not wait for a permutation that is loaded. -/
def State.releasable (s : State) : Bool :=
  let x := s.slot 0
  decide (x.st = .ready) && x.hasEpoch && !x.quiesced && !x.perm.active && (x.permNext.isNone || x.run.isSome || x.after.isSome) && x.nextEpoch.isNone && s.toSwap.isEmpty && !s.eventBlocked &&
    s.mainCores.all (fun no => (s.core no).main.drained)

/-- A core enters the step (R97, R129, R180): its step counter, its mode slots, a clear bank where sums of another attempt stand, and its
WAIT STEP completes. -/
def State.coreRelease (s : State) (step : Nat) (clear : Bool) (no : Nat) : State :=
  let x := s.slot 0
  let s := s.modCore no (fun c =>
    let c := if clear then clearBank c else c
    { c with step := BitVec.ofNat 32 step, main := { c.main with modes := loadModes x c.main.modeLayers } })
  let p := siteOf no false
  let t := s.ctx p
  match t.status with
  | .waitStep d tok => s.endWait p tok { t.setSreg d 0#32 with status := .running }
  | _ => s

/-- The slot as the step begins (R226, R245, R378, R381, R405). -/
def Slot.begin (x : Slot) (r : Run) (now : Nat) : Slot :=
  { x with
    st := if r.replay then .replaying else .running
    run := some { r with tRelease := now }, after := if x.run.isSome then x.after else none, step := BitVec.ofNat 32 r.step
    used := if r.diag then x.used else (x.used ++ [(r.step, x.versionFor r.step)]).reverse.take 4 |>.reverse
    rollback := if r.hold then some r.step else x.rollback, decision := none, boundary := none, nf := false, ab := false, abCause := none
    emVer := if r.repair then x.emVer else []
    shadows := [], closes := [], updDone := []
    bkts := if r.diag then openBuckets x r.step else x.bkts }
/-- Reports are made, the counters' marks are set, and counters that are not counts start again (R379). -/
def State.mark (s : State) : State :=
  let cs := s.counters.filter (fun e => !Ctr.isPeak e.1.id)
  { s with counters := cs, seen := cs, cleared := [] }
/-- Release a step (R97, R180, R214, R247, R369, R370, R379): of the units, firmware reads the job slot's word here (log 16). -/
def State.release' (s : State) (r : Run) : State :=
  let x := s.slot 0
  let clear := x.boundary.isSome || x.run.isSome || x.after.isSome
  let s := (s.observe 8 0).stepReports.absorbedReports
  let s := s.emptyChest true
  let s := s.mark
  let s := if r.replay then s.replayModes r.step else s.modSlot 0 Slot.formModes
  let s := if r.replay then s else s.lateCopies
  let s := s.modSlot 0 (fun x => x.begin r s.timeUs)
  let s := s.mainCores.foldl (fun (s : State) no => s.coreRelease r.step clear no) s
  (if r.replay then s.count (ckSlot Ctr.replaySteps 0) else s).askGathers r
/-- STEP_RELEASE (R180, R253, R370): at the step boundary a permutation that is loaded starts, the waiting boundary commands act, and then, if the
slot can still release, the next step is released. -/
def execStepRelease (s : State) : Host.Outcome State Fault Refusal :=
  let s := s.startReshard
  if s.nextRun.isNone || !s.releasable then .next s
  else
    let s := s.applyBoundary
    match s.nextRun with
    | some r => .next (if s.releasable then s.release' r else s)
    | none => .next s

end Sys2Proof.Machine
end

