-- ==== Sys2Proof/Machine/ControlOps.lean ====
section
/-! DEFINITION. NOP, WAIT, LOOP, BRANCH, the scalar ops, SLEEP and TRAP (R175 to R182). -/

namespace Sys2Proof.Machine

/-- The plan of a NOP. -/
def nopPlan (h : OpHead) : Plan := { word := opWord 0x00 0 h [] }
/-- NOP does nothing and completes at issue (R175). -/
def execNop (p : Site) (h : OpHead) (s : State) : Host.Outcome State Fault Refusal :=
  .next (s.issue p h (nopPlan h) id)

/-- The op word of a WAIT (R176). -/
def waitWord (h : OpHead) (step : Bool) (timeout : BitVec 32) (d : BitVec 4) : Nat :=
  opWord 0x25 (b2n step) h [(64, timeout.toNat), (60, d.toNat)]

/-- The plan of a WAIT. -/
def waitPlan (h : OpHead) (timeout : BitVec 32) (d : BitVec 4) : Plan :=
  { word := waitWord h false timeout d, regsW := [d.toNat], ctl := true, ownMask := true }
/-- The plan of a WAIT with STEP. -/
def waitStepPlan (p : Site) (h : OpHead) (timeout : BitVec 32) (d : BitVec 4) : Plan :=
  { word := waitWord h true timeout d, regsW := [d.toNat], ctl := true, fault := need (!p.guest) 0x01 }
/-- WAIT (R180): it issues whatever its WMASK holds, then holds the context until its tokens or its timeout release it. ST
takes effect on that release. -/
def execWait (p : Site) (h : OpHead) (timeout : BitVec 32) (d : BitVec 4) (s : State) : Host.Outcome State Fault Refusal :=
  .next (s.issue p { h with st := false } (waitPlan h timeout d)
    (fun s => (s.modCtx p (fun t =>
      { t with status := .waitTok h.wmask timeout d (if h.st then some h.tok.toNat else none), waitWord := waitWord h false timeout d })).release p))

/-- WAIT with STEP set (R180): the main context is held at the step boundary; in a guest it is an opcode fault. -/
def execWaitStep (p : Site) (h : OpHead) (timeout : BitVec 32) (d : BitVec 4) (s : State) :
    Host.Outcome State Fault Refusal :=
  .next (s.issue p { h with st := false } (waitStepPlan p h timeout d)
    (fun s => s.modCtx p (fun t =>
      { t with status := .waitStep d (if h.st then some h.tok.toNat else none), waitWord := waitWord h true timeout d })))

/-- A WAIT's timeout passes (R180): no token is taken, 1 goes to S[D]; a WAIT without a timeout is not affected. -/
def State.waitTimeout (s : State) (p : Site) : State :=
  let t := s.ctx p
  match t.status with
  | .waitTok mask timeout d tok =>
    if timeout = 0#32 then s
    else if t.tokensReady mask then s.release p
    else
      let ends := !((tok.map (fun k => decide (15 ≤ t.token k))).getD false)
      (if ends then s.count (ckCtx Ctr.waitTimeout p) else s).endWait p tok { t.setSreg d 1#32 with status := .running }
  | _ => s

/-- WAIT_TIMEOUT (R180). -/
def execWaitTimeout (p : Site) (s : State) : Host.Outcome State Fault Refusal := .next (s.waitTimeout p)

/-- The end of the innermost body: its loop's, or the routine's (R178). -/
def bodyEnd (t : Ctx) : Nat := (t.loops.head?.map (fun f => f.last)).getD t.hdr.nOps
/-- The start of the innermost body. -/
def bodyStart (t : Ctx) : Nat := (t.loops.head?.map (fun f => f.first)).getD 0

/-- The iterations of a LOOP: COUNT, or S[c] where COUNT is 0 (R176). -/
def loopCount (t : Ctx) (a : LoopArgs) : Nat := if a.count = 0#16 then (t.sreg a.c).toNat else a.count.toNat

/-- The plan of a LOOP. -/
def loopPlan (t : Ctx) (h : OpHead) (a : LoopArgs) : Plan :=
  { word := opWord 0x50 0 h [(92, a.s.toNat), (76, a.count.toNat), (72, a.c.toNat), (60, a.body.toNat), (44, a.step.toNat)]
    regsR := if a.count = 0#16 then [a.c.toNat] else [], ctl := true
    fault := faultOf [need (a.body ≠ 0#12) 0x01, need (t.loops.length < 4) 0x08,
      need (t.pos + 1 + a.body.toNat ≤ bodyEnd t) 0x08] }
/-- LOOP (R178): no iteration skips the body. -/
def execLoop (p : Site) (h : OpHead) (a : LoopArgs) (s : State) : Host.Outcome State Fault Refusal :=
  let t := s.ctx p
  .next (s.issue p h (loopPlan t h a)
    (fun s =>
      if loopCount t a = 0 then s.goto p (t.pos + 1 + a.body.toNat)
      else s.modCtx p (fun c => { c with
        pos := t.pos + 1
        loops := { first := t.pos + 1, last := t.pos + 1 + a.body.toNat, left := loopCount t a, reg := a.s, step := a.step }
          :: c.loops })))

/-- BRANCH's condition (R179). -/
def branchTaken (t : Ctx) (a : BranchArgs) : Bool :=
  let v := t.sreg a.s
  match a.cond.toNat with
  | 0 => true
  | 1 => v == a.imm
  | 2 => v != a.imm
  | 3 => v.slt a.imm
  | 4 => !(v.slt a.imm)
  | 5 => t.tqTag.getLsbD a.bit.toNat
  | 6 => !(t.tqTag.getLsbD a.bit.toNat)
  | 7 => (t.mode a.s.toNat).getLsbD a.bit.toNat
  | _ => !((t.mode a.s.toNat).getLsbD a.bit.toNat)

/-- BRANCH's target: a signed op offset from the op (R176). -/
def branchTarget (t : Ctx) (a : BranchArgs) : Int := (t.pos : Int) + a.target.toInt

/-- The plan of a BRANCH. -/
def branchPlan (t : Ctx) (h : OpHead) (a : BranchArgs) : Plan :=
  let c := a.cond.toNat
  { word := opWord 0x51 0 h [(92, c), (76, a.target.toNat), (72, a.s.toNat), (40, a.imm.toNat), (32, a.bit.toNat)]
    regsR := if 1 ≤ c ∧ c ≤ 4 then [a.s.toNat] else if c = 5 ∨ c = 6 then [16] else []
    ctl := true
    fault := faultOf [need (c ≤ 8) 0x01, need (!(c = 5 || c = 6) || decide (a.bit.toNat < 64)) 0x01,
      need (!(c = 7 || c = 8) || decide (a.bit.toNat < 3)) 0x01,
      need (decide ((bodyStart t : Int) ≤ branchTarget t a) && decide (branchTarget t a < bodyEnd t)) 0x08] }
/-- BRANCH (R178, R179): its target must lie in the innermost body. COND 7 and 8 remember the layer and product that they
tested (R130). -/
def execBranch (p : Site) (h : OpHead) (a : BranchArgs) (s : State) : Host.Outcome State Fault Refusal :=
  let t := s.ctx p
  let c := a.cond.toNat
  .next (s.issue p h (branchPlan t h a)
    (fun s =>
      let s := if c = 7 ∨ c = 8 then
          s.modCtx p (fun x => { x with lastMode := some (x.modeLayers.getD a.s.toNat 0xFFFF, a.bit.toNat) }) else s
      if branchTaken t a then s.modCtx p (fun x => { x with pos := (branchTarget t a).toNat })
      else s.goto p (t.pos + 1)))

/-- The plan of a SETS. -/
def setsPlan (h : OpHead) (d : BitVec 4) (imm : BitVec 32) : Plan :=
  { word := opWord 0x52 0 h [(92, d.toNat), (60, imm.toNat)], regsW := [d.toNat] }
/-- SETS (R176). -/
def execSets (p : Site) (h : OpHead) (d : BitVec 4) (imm : BitVec 32) (s : State) : Host.Outcome State Fault Refusal :=
  .next (s.issue p h (setsPlan h d imm)
    (fun s => s.modCtx p (fun t => t.setSreg d imm)))

/-- The plan of an ADDS. -/
def addsPlan (h : OpHead) (a : AddsArgs) : Plan :=
  { word := opWord 0x53 (b2n a.reg) h [(92, a.d.toNat), (88, a.a.toNat), (84, a.b.toNat), (68, a.imm.toNat)]
    regsR := a.a.toNat :: (if a.reg then [a.b.toNat] else []), regsW := [a.d.toNat] }
/-- ADDS (R176). -/
def execAdds (p : Site) (h : OpHead) (a : AddsArgs) (s : State) : Host.Outcome State Fault Refusal :=
  .next (s.issue p h (addsPlan h a)
    (fun s => s.modCtx p (fun t => t.setSreg a.d (t.sreg a.a + (if a.reg then t.sreg a.b else a.imm.signExtend 32)))))

/-- The op word of an SLOAD (R176). -/
def sloadWord (h : OpHead) (special : Bool) (d : BitVec 4) (src : Lsa) (word : BitVec 6) : Nat :=
  opWord 0x54 (b2n special) h [(92, d.toNat), (74, lsaBits src), (68, word.toNat)]

/-- The plan of an SLOAD from local store. -/
def sloadPlan (s : State) (p : Site) (h : OpHead) (d : BitVec 4) (src : Lsa) (word : BitVec 6) : Plan :=
  let l := (s.ctx p).line src
  { word := sloadWord h false d src word, unit := some .localStore, reads := [{ sp := .ls, lo := l, n := 1 }]
    regsR := [src.s.toNat], regsW := [d.toNat], fault := need (linesOk (s.core (Site.no p)).chestLines p.guest false l 1) 0x03 }
/-- SLOAD from a word of a local-store line (R176). -/
def execSload (p : Site) (h : OpHead) (d : BitVec 4) (src : Lsa) (word : BitVec 6) (s : State) :
    Host.Outcome State Fault Refusal :=
  let l := (s.ctx p).line src
  .next (s.issue p h (sloadPlan s p h d src word)
    (fun s => s.modCtx p (fun t => t.setSreg d
      (BitVec.ofNat 32 ((s.core (Site.no p)).lmem.readLE (l * 256 + 4 * word.toNat) 4)))))

/-- A special value of SLOAD (R176). -/
def specialValue (s : State) (p : Site) (w : Nat) : Word :=
  if w = 0 then (s.core (Site.no p)).step
  else if w = 1 then BitVec.ofNat 32 (coreRef (Site.no p))
  else if w = 2 then BitVec.ofNat 32 s.modId.toNat
  else BitVec.ofNat 32 (s.ctx p).slot

/-- The plan of an SLOAD with SPECIAL. -/
def sloadSpecialPlan (h : OpHead) (d : BitVec 4) (src : Lsa) (word : BitVec 6) : Plan :=
  { word := sloadWord h true d src word, unit := some .localStore, regsW := [d.toNat], fault := need (word.toNat < 4) 0x01 }
/-- SLOAD with SPECIAL set (R176); values 4 to 63 are reserved. -/
def execSloadSpecial (p : Site) (h : OpHead) (d : BitVec 4) (src : Lsa) (word : BitVec 6) (s : State) :
    Host.Outcome State Fault Refusal :=
  .next (s.issue p h (sloadSpecialPlan h d src word)
    (fun s => s.modCtx p (fun t => t.setSreg d (specialValue s p word.toNat))))

/-- The rung that a context's hint allows: a context with no routine running holds the core back from none (log 25). -/
def hintOf (t : Ctx) : Nat := if t.status = .idle then 2 else t.sleepHint
/-- Keep HINT of the core's status word equal to what both contexts allow (R182, R343). -/
def State.syncHint (s : State) (no : Nat) : State :=
  let c := s.core no
  s.setDomain (domKey 0 no) { s.domain (domKey 0 no) with hint := min (hintOf c.main) (hintOf c.guest) }

/-- The plan of a SLEEP. -/
def sleepPlan (h : OpHead) (rung : BitVec 3) : Plan := { word := opWord 0x60 0 h [(93, rung.toNat)], fault := need (rung.toNat ≤ 2) 0x01 }
/-- SLEEP (R182): rungs 3 to 7 are reserved. -/
def execSleep (p : Site) (h : OpHead) (rung : BitVec 3) (s : State) : Host.Outcome State Fault Refusal :=
  .next (s.issue p h (sleepPlan h rung)
    (fun s => (s.modCtx p (fun t => { t with sleepHint := rung.toNat })).syncHint (Site.no p)))

/-- The TAP op of the context that no VEC op has followed (R145), if any. -/
def tapAlone (t : Ctx) : Option InFlight := (openTaps t.inflight).head?

/-- JOB_TRAP (R181, R384): the context stops and the event carries S1 and S2. -/
def State.jobTrap (s : State) (p : Site) (code : Nat) : State :=
  let t := s.ctx p
  (s.setCtx p { t with status := .trapped code, sleepHint := 0 }).post 0x0201 .fault (some t.slot)
    (unitRef 0 (coreRef (Site.no p)))
    (payload [(2, coreRef (Site.no p)), (1, b2n p.guest), (1, t.slot), (2, t.hdr.routine), (2, code),
      (4, (t.sreg 1#4).toNat), (4, (t.sreg 2#4).toNat)])

/-- The plan of a TRAP. -/
def trapPlan (s : State) (p : Site) (h : OpHead) (code next : BitVec 16) : Plan :=
  { word := opWord 0x70 0 h [(80, code.toNat), (64, next.toNat)], ctl := true
    fault := faultOf [need (code.toNat < 0x8000) 0x01, need (tapAlone (s.ctx p)).isNone 0x06,
      need (!(decide (code = 0#16) && decide (next ≠ 0xFFFF#16)) || canStart (s.core (Site.no p)) p.guest next.toNat) 0x01]
    at' := if code.toNat < 0x8000 then (tapAlone (s.ctx p)).map (fun f => (f.off, f.word)) else none }
/-- TRAP (R181): CODE 0 ends the routine and may start NEXT; 1 to 0x7FFF stop the context; the rest are reserved. -/
def execTrap (p : Site) (h : OpHead) (code next : BitVec 16) (s : State) : Host.Outcome State Fault Refusal :=
  .next (s.issue p h (trapPlan s p h code next)
    (fun s =>
      if code ≠ 0#16 then (s.jobTrap p code.toNat).syncHint (Site.no p)
      else if next = 0xFFFF#16 then
        (s.modCtx p (fun c => { c with status := .idle, sleepHint := 0 })).syncHint (Site.no p)
      else (s.startRoutine p next.toNat).syncHint (Site.no p)))

end Sys2Proof.Machine
end

