-- ==== Sys2Proof/Machine/HostRegs.lean ====
section
/-! DEFINITION. What the registers of BAR0 do (R430 to R441): driver DMA, firmware update, the debug grant and the sideband. -/

namespace Sys2Proof.Machine

/-- Change the host registers. -/
def State.modHost (s : State) (f : HostRegs → HostRegs) : State := { s with host := f s.host }

/-- A driver DMA block (R435). -/
def State.ddma (s : State) (k : Nat) : Ddma := SMap.get {} s.host.ddma k
/-- Change a driver DMA block. -/
def State.modDdma (s : State) (k : Nat) (f : Ddma → Ddma) : State :=
  s.modHost (fun h => { h with ddma := SMap.modify {} h.ddma k f })
/-- The channel of a driver DMA block, die * 32 + channel (R435). -/
def ddmaChan (k : Nat) : Nat := k / 2 * 32 + 30 + k % 2
/-- The unit index of a channel (R366). -/
def unitOfChan (ch : Nat) : Nat := (16 + ch / 32) * 32 + ch % 32

/-- The two words of an address. -/
def addrOf (lo hi : Nat) : Nat := lo + hi * 2 ^ 32
/-- Whether an enable is refused (R309, R436). -/
def State.ddmaRefuses (s : State) (x : Ddma) : Bool :=
  let cq := addrOf x.cqLo x.cqHi
  let hd := addrOf x.cqhLo x.cqhHi
  !(decide (4 ≤ x.cqLog2) && decide (x.cqLog2 ≤ 15) && decide (cq % 256 = 0) && decide (hd % 4 = 0) &&
    s.inStaging cq (32 * 2 ^ x.cqLog2) && s.inStaging hd 4)
/-- EN changes from 0 to 1 (R436). -/
def State.ddmaOn (s : State) (k : Nat) : State :=
  let x := s.ddma k
  let ch := ddmaChan k
  if s.ddmaRefuses x then s.modDdma k (fun x => { x with enFail := true })
  else
    let s := s.modDdma k (fun x => { x with en := true, enFail := false })
    (s.modChan ch (fun c => {
      owner := 5, valid := true, hasCq := true, cqLog2 := x.cqLog2, cqBase := addrOf x.cqLo x.cqHi
      cqHeadAddr := addrOf x.cqhLo x.cqhHi, queue := c.queue, arrivals := c.arrivals })).syncView 12 (unitOfChan ch)
/-- EN changes from 1 to 0 (R436): the channel aborts, and its record is invalid once the abort completes. -/
def State.ddmaOff (s : State) (k : Nat) : State :=
  let ch := ddmaChan k
  ((s.modDdma k (fun x => { x with en := false })).modChan ch (fun c =>
    if c.queue.isEmpty then { c with valid := false } else { c.abort s.mem 0x10 with closing := true })).syncView 12 (unitOfChan ch)
/-- A write of DDMAk_CTRL (R435): ABORT acts on its own, and EN by its change. -/
def State.ddmaCtrl (s : State) (k v : Nat) : State :=
  let s := s.modDdma k (fun x => { x with vector := fld v 7 2, cqLog2 := fld v 11 8 })
  let s := if bitOf v 1 then s.modChan (ddmaChan k) (fun c => c.abort s.mem 0x10) else s
  if bitOf v 0 == (s.ddma k).en then s
  else if bitOf v 0 then s.ddmaOn k
  else s.ddmaOff k
/-- The staged descriptor of a block, in bytes (R435). -/
def Ddma.bytes (x : Ddma) : List Byte := (List.range 16).flatMap (fun i => leBytes 4 (SMap.get 0#32 x.desc i).toNat)
/-- A write of DDMAk_SUBMIT (R436). -/
def State.ddmaSubmit (s : State) (k : Nat) : State :=
  let x := s.ddma k
  let ch := ddmaChan k
  if !x.en || decide (64 ≤ (s.chan ch).queue.length) then
    (s.modDdma k (fun x => { x with ovf := true })).count { id := Ctr.ddmaSubmitIgnored }
  else
    let d := parseDesc x.bytes
    (s.submit ch d .driver d.slot 0).modDdma k (fun x => { x with accepted := x.accepted + 1#32 })
/-- A write of the DDMA block register at offset `o` (R435). -/
def State.ddmaWrite (s : State) (k o : Nat) (v : Word) : State :=
  let n := v.toNat
  if o < 0x40 then s.modDdma k (fun x => { x with desc := SMap.set 0#32 x.desc (o / 4) v })
  else if o = 0x40 then s.ddmaCtrl k n
  else if o = 0x44 then (if bitOf n 4 then s.modDdma k (fun x => { x with ovf := false }) else s)
  else if o = 0x48 then s.modDdma k (fun x => { x with cqLo := n })
  else if o = 0x4C then s.modDdma k (fun x => { x with cqHi := n })
  else if o = 0x50 then s.modDdma k (fun x => { x with cqhLo := n })
  else if o = 0x54 then s.modDdma k (fun x => { x with cqhHi := n })
  else if o = 0x58 then s.ddmaSubmit k
  else s
/-- The DDMA block register at offset `o` as it reads (R435). -/
def State.ddmaRead (s : State) (k o : Nat) : Nat :=
  let x := s.ddma k
  if o < 0x40 then (SMap.get 0#32 x.desc (o / 4)).toNat
  else if o = 0x40 then b2n x.en + x.vector * 4 + x.cqLog2 * 256
  else if o = 0x44 then (s.chan (ddmaChan k)).stateCode + b2n x.ovf * 16 + b2n x.enFail * 32
  else if o = 0x48 then x.cqLo else if o = 0x4C then x.cqHi
  else if o = 0x50 then x.cqhLo else if o = 0x54 then x.cqhHi
  else if o = 0x5C then x.accepted.toNat
  else 0

/-- An FWU operation ends (R438): DONE with cause 0, or FAILED. -/
def State.fwuEnd (s : State) (cause : Nat) : State :=
  let s := s.modHost (fun h => { h with fwuState := if cause = 0 then 2 else 3, fwuCause := cause, fwuJob := none })
  if cause = 0 then s.count { id := Ctr.fwUpdates } else s
/-- The cause that turns an image write away (R438): the running image's slot, then the source, then the three checks of R413 (log 64). -/
def State.fwuCauseOf (s : State) (slot : Nat) (src len : Nat) : Option Nat :=
  if s.boot.image = slot + 1 then some 0x14
  else if !s.inStaging src len then some 0x13
  else
    let b := s.devRead src len
    if len < 256 ∨ leAt b 4 4 + 256 ≠ len then some 0x12 else imageCause s.boot (rdList b)
/-- An image write begins (R438): the slot is erased, and its body is undefined until the write has ended; the header, which carries the
signature, stays erased (log 64). -/
def State.fwuWrite (s : State) : State :=
  let h := s.host
  let slot := b2n h.fwuSlot
  let src := addrOf h.fwuLo h.fwuHi
  match s.fwuCauseOf slot src h.fwuLen with
  | some c => s.fwuEnd c
  | none =>
    let b := s.devRead src h.fwuLen
    let at' := flashBase slot
    let s := s.modBoot (fun x => { x with
      flash := (x.flash.clearRange at' 0x200000).lose (at' + 256) (at' + h.fwuLen) s.free })
    { s.modHost (fun h => { h with fwuState := 1, fwuCause := 0, fwuJob := some (slot, b) }) with free := s.free + 1 }
/-- A raise of the anti-rollback count (R438). -/
def State.fwuRaiseCount (s : State) : State :=
  let b := s.boot
  let other := flashBase (if b.image = 1 then 1 else 0)
  if s.anyLoaded then s.fwuEnd 0x15
  else if b.logSecVersion ≤ b.antiRollback then s.fwuEnd 0
  else if rdLE b.flash.read (other + 0x0A) 2 < b.logSecVersion then s.fwuEnd 0x17
  else (s.modBoot (fun b => { b with antiRollback := b.logSecVersion })).fwuEnd 0
/-- A write of FWU_CTRL (R438). -/
def State.fwuCtrl (s : State) (v : Nat) : State :=
  let s := s.modHost (fun h => { h with fwuSlot := bitOf v 1, fwuRaise := bitOf v 2 })
  if !bitOf v 0 || decide (s.host.fwuState = 1) then s
  else if bitOf v 2 then s.fwuRaiseCount
  else s.fwuWrite

/-- The debug grant ends (R439). -/
def State.dropGrant (s : State) : State := (s.modHost (fun h => { h with granted := false, scopeG := 0 })).newNonce
/-- Whether a debug token is valid (R440). -/
def State.tokenOk (s : State) (b : List Byte) (scope : Nat) : Bool :=
  let w := leAt b 4 4
  let k := fld w 18 17
  let key := Config.keyHash (4 + k)
  decide (leAt b 0 4 = 0x44424754) && decide (fld w 13 0 = s.modId.toNat) && decide (leAt b 8 8 = s.host.nonce.toNat) &&
    decide (fld w 16 14 &&& scope = scope) && decide (Config.sha384 ((b.drop 0x20).take 97) = key) && !s.boot.dbgRevoked.contains k &&
    Config.verifies key (b.take 0x88) ((b.drop 0x88).take 96)
/-- The cause that refuses a request for a grant of `scope` (R439, R440). -/
def State.debugCause (s : State) (scope : Nat) : Option Nat :=
  let a := addrOf s.host.tokLo s.host.tokHi
  if s.boot.dbgLock = 0 then none
  else if s.boot.dbgLock ≠ 1 then some 1
  else if !s.inStaging a 232 then some 3
  else if s.tokenOk (s.devRead a 232) scope then none
  else some 2
/-- A request for a grant of SCOPE (R439): the nonce is new afterwards. -/
def State.askGrant (s : State) : State :=
  match s.debugCause s.host.scope with
  | some c => (s.modHost (fun h => { h with dbgCause := c })).newNonce
  | none => ((s.modHost (fun h => { h with granted := true, scopeG := h.scope, dbgCause := 0 })).count { id := Ctr.debugGrants }).newNonce
/-- A write of DEBUG_CTRL (R439): RELEASE acts before REQ (log 65). -/
def State.debugCtrl (s : State) (v : Nat) : State :=
  let s := s.modHost (fun h => { h with scope := fld v 4 2 })
  let s := if bitOf v 1 then s.dropGrant else s
  if bitOf v 0 then s.askGrant else s

/-- The core at a physical place of a compute die (R16). -/
def State.coreAt (s : State) (die row pc : Nat) : Option Nat :=
  let m := SMap.get .plain s.rows (12 * die + row)
  ((List.range 12).map (fun dx => coreNo (die % 4 * 12 + dx) (die / 4 * 12 + row))).find? (fun no => decide (physColumn m no = pc))
/-- The unit that status word `n` of a die's sideband space belongs to (R441). -/
def State.sidebandUnit (s : State) (die n : Nat) : Option (Nat × Nat) :=
  if die < 16 then (if n < 156 then (s.coreAt die (n / 13) (n % 13)).map (fun no => (0, coreRef no)) else none)
  else if die < 20 then (if n < 12 then some (5, (die - 16) * 12 + n) else none)
  else if die < 24 then (if n < 4 then some (6, (die - 20) * 4 + n) else none)
  else none
/-- The register of a die's sideband space that an offset names (R441), as it reads. -/
def State.sideband (s : State) (die off : Nat) : Option Nat :=
  if 24 < die ∨ off % 4 ≠ 0 then none
  else if off = 0 then some (s.unitWord (if die < 16 then 1 else if die < 20 then 2 else if die < 24 then 3 else 4) die)
  else if off = 0x100 then some (s.arbCtrlWord die)
  else if off = 0x104 then some (s.arbStatWord die)
  else if off < 0x1000 then none
  else (s.sidebandUnit die ((off - 0x1000) / 4)).map (fun u => s.unitWord u.1 u.2)
/-- A write of DBG_SB_ADDR (R441): with GO and SIDEBAND granted, the access is made; a place that the table does not name reads a free
value and takes no write (log 66). -/
def State.sidebandGo (s : State) (v : Nat) : State :=
  let s := s.modHost (fun h => { h with sbAddr := v % 2 ^ 25 + fld v 30 30 * 2 ^ 30 })
  let die := fld v 24 20
  let off := fld v 19 0
  if !bitOf v 31 then s
  else if !(s.host.granted && bitOf s.host.scopeG 1) then s.modHost (fun h => { h with dbgCause := 4 })
  else if bitOf v 30 then
    (if off = 0x100 ∧ die ≤ 24 then s.arbCtrlWrite die s.host.sbData.toNat else s)
  else match s.sideband die off with
    | some x => s.modHost (fun h => { h with sbData := BitVec.ofNat 32 x })
    | none => { s.modHost (fun h => { h with sbData := Config.freeWord s.free }) with free := s.free + 1 }

/-- A write of BAR2_WIN_LO or BAR2_WIN_HI (R433). -/
def State.winWrite (s : State) (high : Bool) (v : Nat) : State :=
  s.modHost (fun h => if high then { h with winOffHi := fld v 12 0 } else { h with winPart := fld v 2 0, winOffLo := fld v 31 30 })

/-- The key of word `w` of an entry of a function's MSI-X table. -/
def msixKey (fn entry w : Nat) : Nat := fn * 256 + entry * 4 + w
/-- A write of an MSI-X table word (R431, log 18): an entry that is unmasked sends the vector that was pending. -/
def State.msixWrite (s : State) (fn i : Nat) (v : Word) : State :=
  let entry := i / 4
  if i % 4 ≠ 3 then s.modMail (fun m => { m with msix := SMap.set 0#32 m.msix (msixKey fn entry (i % 4)) v })
  else
    let s := s.modMail (fun m => { m with msix := SMap.set 0#32 m.msix (msixKey fn entry 3) ((v ^^^ 1#32) &&& 1#32) })
    if !bitOf v.toNat 0 && s.mail.msixPend.contains (fn, entry) then
      (s.modMail (fun m => { m with msixPend := m.msixPend.erase (fn, entry) })).raise fn entry
    else s
/-- An MSI-X table word as it reads. -/
def State.msixRead (s : State) (fn i : Nat) : Nat :=
  let w := SMap.get 0#32 s.mail.msix (msixKey fn (i / 4) (i % 4))
  if i % 4 = 3 then ((w ^^^ 1#32) &&& 1#32).toNat else w.toNat
/-- Entries of a function's MSI-X table (R431). -/
def msixEntries (fn : Nat) : Nat := if fn = 0 then 64 else 4

/-- A write of a ring's register at offset `o` of its block (R358). -/
def State.ringWrite (s : State) (r o : Nat) (v : Word) : State :=
  if o = 0 then s.ringBase r false v.toNat
  else if o = 4 then s.ringBase r true v.toNat
  else if o = 8 then s.ringCtrl r v.toNat
  else if o = 0xC then (if bitOf v.toNat 1 then s.ringErrClear r else s)
  else if o = 0x10 then s.ringDoorbell r v
  else s
/-- A ring's register as it reads (R358). -/
def Ring.read (x : Ring) (o : Nat) : Nat :=
  if o = 0 then x.baseLo else if o = 4 then x.baseHi
  else if o = 8 then b2n x.en + x.sizeLog2 * 2 + b2n x.ie * 32 + x.vector * 64 + x.coal * 4096
  else if o = 0xC then b2n x.run + b2n x.err * 2 + x.cause * 4
  else if o = 0x10 then x.doorbell.toNat else if o = 0x14 then x.index.toNat
  else 0

/-- DEVICE_ID (R433). -/
def State.deviceId (s : State) : Nat := 0x0416 + s.boot.stepping % 256 * 65536
/-- MODULE_ID (R433). -/
def State.moduleIdReg (s : State) : Nat := (if s.boot.idValid then s.modId.toNat else 0) + b2n s.boot.idValid * 2 ^ 14

/-- Whether a function's BAR0 exists (R426, R427). -/
def State.fnHere (s : State) (fn : Nat) : Bool := decide (fn = 0) || s.mail.vfs.contains fn
/-- BOOT_STATUS.TRIP is cleared by writing 1 (R420). -/
def State.bootStatusWrite (s : State) (v : Nat) : State := if bitOf v 21 then s.modBoot (fun b => { b with trip := false }) else s

/-- An aligned 32-bit write of a function's BAR0 (R432), before READY to BOOT_STATUS alone (R412). -/
def State.bar0Write (s : State) (fn off : Nat) (v : Word) : State :=
  let n := v.toNat
  if !s.boot.pcieUp || !s.fnHere fn then s
  else if fn = 0 ∧ off = 0x8 then s.settleBar2.bootStatusWrite n
  else if !s.ready then s
  else
    let s := s.settleBar2
    let r := (off - 0x1000) / 0x20
    let k := (off - 0x2000) / 0x80
    let i := (off - 0x10000) / 4
    if 0x1000 ≤ off ∧ off < 0x1160 then (if s.ringFn r = fn then s.ringWrite r (off % 0x20) v else s)
    else if 0x10000 ≤ off ∧ i < 4 * msixEntries fn then s.msixWrite fn i v
    else if fn ≠ 0 then s
    else if off = 0xC then (if n % 65536 = 0xB007 then s.moduleReset else s)
    else if off = 0x10 then s.winWrite false n
    else if off = 0x14 then s.winWrite true n
    else if 0x2000 ≤ off ∧ off < 0x2400 then s.ddmaWrite k (off % 0x80) v
    else if off = 0x3000 then s.modHost (fun h => { h with fwuLo := n })
    else if off = 0x3004 then s.modHost (fun h => { h with fwuHi := n })
    else if off = 0x3008 then s.modHost (fun h => { h with fwuLen := n % 2 ^ 22 })
    else if off = 0x300C then s.fwuCtrl n
    else if off = 0x3048 then s.modHost (fun h => { h with tokLo := n })
    else if off = 0x304C then s.modHost (fun h => { h with tokHi := n })
    else if off = 0x3050 then s.debugCtrl n
    else if off = 0x3058 then s.sidebandGo n
    else if off = 0x305C then s.modHost (fun h => { h with sbData := v })
    else s

/-- The pending bits of a function's MSI-X table, word `i` (R431). -/
def State.msixPending (s : State) (fn i : Nat) : Nat :=
  ((List.range 32).map (fun j => b2n (s.mail.msixPend.contains (fn, 32 * i + j)) * 2 ^ j)).sum

/-- What an aligned 32-bit read of a function's BAR0 returns (R412, R432, R433). No command of the block reads a register; a read changes
nothing. -/
def State.bar0Read (s : State) (fn off : Nat) : Nat :=
  let h := s.host
  let r := (off - 0x1000) / 0x20
  let i := (off - 0x10000) / 4
  if !s.boot.pcieUp || !s.fnHere fn then 0
  else if fn = 0 ∧ off = 0x8 then s.boot.status
  else if fn = 0 ∧ 0x100 ≤ off ∧ off < 0x200 then leAt s.startLog (off - 0x100) 4
  else if !s.ready then 0
  else if 0x1000 ≤ off ∧ off < 0x1160 then (if s.ringFn r = fn then (s.ring r).read (off % 0x20) else 0)
  else if 0x10000 ≤ off ∧ i < 4 * msixEntries fn then s.msixRead fn i
  else if off = 0x10800 ∨ off = 0x10804 then s.msixPending fn ((off - 0x10800) / 4)
  else if fn ≠ 0 then 0
  else if off = 0x0 then s.deviceId
  else if off = 0x4 then s.moduleIdReg
  else if off = 0x10 then h.winPart + h.winOffLo * 2 ^ 30
  else if off = 0x14 then h.winOffHi
  else if 0x2000 ≤ off ∧ off < 0x2400 then s.ddmaRead ((off - 0x2000) / 0x80) (off % 0x80)
  else if off = 0x3000 then h.fwuLo else if off = 0x3004 then h.fwuHi else if off = 0x3008 then h.fwuLen
  else if off = 0x300C then b2n h.fwuSlot * 2 + b2n h.fwuRaise * 4
  else if off = 0x3010 then h.fwuState + h.fwuCause * 256
  else if off = 0x3040 then h.nonce.toNat % 2 ^ 32 else if off = 0x3044 then h.nonce.toNat / 2 ^ 32
  else if off = 0x3048 then h.tokLo else if off = 0x304C then h.tokHi
  else if off = 0x3050 then h.scope * 4
  else if off = 0x3054 then s.boot.dbgLock + b2n h.granted * 4 + h.scopeG * 8 + h.dbgCause * 256
  else if off = 0x3058 then h.sbAddr else if off = 0x305C then h.sbData.toNat
  else 0

end Sys2Proof.Machine
end

