-- ==== Sys2Proof/Machine/HostPort.lean ====
section
/-! DEFINITION. The host port: BAR0 and BAR2 requests and the resets that come through PCIe (R11, R423, R426 to R441). -/

namespace Sys2Proof.Machine

/-- BAR0_UNSUPPORTED_REQUEST (R11): an access that is not an aligned one of 32 bits changes no register; AER reports it (log 63). -/
def execBar0UnsupportedRequest (fn : Fin 4) (off : BitVec 26) (len : BitVec 13) (s : State) : Host.Outcome State Fault Refusal :=
  if !s.boot.pcieUp || !s.fnHere fn.val || (decide (len.toNat = 4) && decide (off.toNat % 4 = 0)) then .next s
  else .next (((s.answer .unsupported).count { id := Ctr.bar0Ur }).count { id := Ctr.pcieUncorrectable })

/-- REGISTER_WRITE (R432): an aligned 32-bit write of BAR0; a register with behaviour of its own behaves as its own row says. -/
def execRegisterWrite (fn : Fin 4) (off : BitVec 26) (v : Word) (s : State) : Host.Outcome State Fault Refusal :=
  .next (if off.toNat % 4 = 0 then s.bar0Write fn.val off.toNat v else s)

/-- BAR2_WIN_WRITE (R430, R433). -/
def execBar2WinWrite (high : Bool) (v : Word) (s : State) : Host.Outcome State Fault Refusal :=
  .next (s.bar0Write 0 (if high then 0x14 else 0x10) v)
/-- BAR2_RESIZE (R427): S = 2^log2, from 1 GiB to 64 GiB. -/
def execBar2Resize (log2 : BitVec 6) (s : State) : Host.Outcome State Fault Refusal :=
  .next (if s.boot.pcieUp && decide (30 ≤ log2.toNat) && decide (log2.toNat ≤ 36) then
      s.modHost (fun h => { h with bar2Log2 := log2.toNat }) else s)
/-- The device address of a BAR2 offset (R428). -/
def State.bar2Addr (s : State) (o : Nat) : Nat :=
  let h := s.host
  let w := h.winOffLo * 2 ^ 30 + h.winOffHi * 2 ^ 32
  h.winPart * 2 ^ 45 + (w / 2 ^ h.bar2Log2 * 2 ^ h.bar2Log2 + o)
/-- Whether a BAR2 request reaches the device: the link is up and the request lies in BAR2 (R428, log 67). -/
def State.bar2Here (s : State) (o n : Nat) : Bool := s.boot.pcieUp && decide (o + n ≤ 2 ^ s.host.bar2Log2)
/-- The memory request of a BAR2 access (R296, R428): BULK. -/
def bar2Req (a n : Nat) : MemReq := { who := .bar2, addr := BitVec.ofNat 64 a, len := n, tc := 2#2 }
/-- BAR2_READ (R428, R429). -/
def execBar2Read (off : BitVec 36) (len : Nat) (s : State) : Host.Outcome State Fault Refusal :=
  if !s.bar2Here off.toNat len then .next s
  else
    let q := bar2Req (s.bar2Addr off.toNat) len
    let r := s.memRead q
    .next ((State.answerReq q false r).keepWaiting q none r.2)
/-- The runs of enabled bytes of a write, each with its offset (R428); `cur` is the run in progress, reversed. -/
def enabledRuns : (o : Nat) → (cur : List Byte) → List (Option Byte) → List (Nat × List Byte)
  | o, cur, [] => if cur.isEmpty then [] else [(o - cur.length, cur.reverse)]
  | o, cur, some v :: t => enabledRuns (o + 1) (v :: cur) t
  | o, cur, none :: t => (if cur.isEmpty then [] else [(o - cur.length, cur.reverse)]) ++ enabledRuns (o + 1) [] t
/-- BAR2_WRITE (R428, R429): checked whole, then written run by run of enabled bytes. -/
def execBar2Write (off : BitVec 36) (data : List (Option Byte)) (s : State) : Host.Outcome State Fault Refusal :=
  if !s.bar2Here off.toNat data.length then .next s
  else
    let a := s.bar2Addr off.toNat
    let q := bar2Req a data.length
    if !s.admits q then .next (State.answerReq q true (s.refuse q, .refused))
    else .next ((enabledRuns 0 [] data).foldl (fun (s : State) e =>
      let q := bar2Req (a + e.1) e.2.length
      let r := s.memWrite q e.2
      (State.answerReq q true r).keepWaiting q (some e.2) r.2) (s.answer .ok))

/-- The BAR0 offset of a register of DDMA block `k` (R435). -/
def ddmaOff (k o : Nat) : Nat := 0x2000 + 0x80 * k + o
/-- DDMA_ENABLE (R436): a write of DDMAk_CTRL with EN = 1. -/
def execDdmaEnable (k : Fin 8) (v : Word) (s : State) : Host.Outcome State Fault Refusal :=
  .next (s.bar0Write 0 (ddmaOff k.val 0x40) (v ||| 1#32))
/-- DDMA_DISABLE (R436): a write of DDMAk_CTRL with EN = 0. -/
def execDdmaDisable (k : Fin 8) (v : Word) (s : State) : Host.Outcome State Fault Refusal :=
  .next (s.bar0Write 0 (ddmaOff k.val 0x40) (v &&& ~~~1#32))
/-- DDMA_ABORT (R324, R435): a write of DDMAk_CTRL with ABORT = 1. -/
def execDdmaAbort (k : Fin 8) (v : Word) (s : State) : Host.Outcome State Fault Refusal :=
  .next (s.bar0Write 0 (ddmaOff k.val 0x40) (v ||| 2#32))
/-- DDMA_SUBMIT (R436). -/
def execDdmaSubmit (k : Fin 8) (v : Word) (s : State) : Host.Outcome State Fault Refusal :=
  .next (s.bar0Write 0 (ddmaOff k.val 0x58) v)

/-- FWU_IMAGE_WRITE (R438): FWU_CTRL with GO = 1 and RAISE = 0. -/
def execFwuImageWrite (slot : Bool) (s : State) : Host.Outcome State Fault Refusal :=
  .next (s.bar0Write 0 0x300C (BitVec.ofNat 32 (1 + b2n slot * 2)))
/-- FWU_RAISE (R438): FWU_CTRL with GO = 1 and RAISE = 1. -/
def execFwuRaise (slot : Bool) (s : State) : Host.Outcome State Fault Refusal :=
  .next (s.bar0Write 0 0x300C (BitVec.ofNat 32 (5 + b2n slot * 2)))
/-- FWU_DONE (R438): the image write ends; `good` says that programming and read-back succeeded. -/
def execFwuDone (good : Bool) (s : State) : Host.Outcome State Fault Refusal :=
  match s.host.fwuJob with
  | none => .next s
  | some (slot, b) =>
    if good then
      .next ((s.modBoot (fun x => { x with
        flash := (x.flash.clearRange (flashBase slot) 0x200000).writeList (flashBase slot) b })).fwuEnd 0)
    else .next (s.fwuEnd 0x16)

/-- DEBUG_REQUEST (R439, R440): DEBUG_CTRL with REQ = 1. -/
def execDebugRequest (scope : BitVec 3) (s : State) : Host.Outcome State Fault Refusal :=
  .next (s.bar0Write 0 0x3050 (BitVec.ofNat 32 (1 + scope.toNat * 4)))
/-- DEBUG_RELEASE (R439): DEBUG_CTRL with RELEASE = 1. -/
def execDebugRelease (scope : BitVec 3) (s : State) : Host.Outcome State Fault Refusal :=
  .next (s.bar0Write 0 0x3050 (BitVec.ofNat 32 (2 + scope.toNat * 4)))
/-- SIDEBAND_READ (R441): DBG_SB_ADDR with GO = 1 and WR = 0. -/
def execSidebandRead (die : BitVec 5) (off : BitVec 20) (s : State) : Host.Outcome State Fault Refusal :=
  .next (s.bar0Write 0 0x3058 (BitVec.ofNat 32 (off.toNat + die.toNat * 2 ^ 20 + 2 ^ 31)))
/-- SIDEBAND_WRITE (R441): DBG_SB_ADDR with GO = 1 and WR = 1; DBG_SB_DATA holds the value. -/
def execSidebandWrite (die : BitVec 5) (off : BitVec 20) (s : State) : Host.Outcome State Fault Refusal :=
  .next (s.bar0Write 0 0x3058 (BitVec.ofNat 32 (off.toNat + die.toNat * 2 ^ 20 + 3 * 2 ^ 30)))

/-- What a host port reset clears (R423, R434): PCIe state, MSI-X, rings and commands in flight; every loaded slot halts. -/
def State.portReset (s : State) : State :=
  let m := s.mail
  let s := { s with mail := { view := m.view, irqs := m.irqs, host := m.host } }
  let s := (List.range 4).foldl (fun (s : State) k => if (s.slot k).st.loaded then (s.haltSlot k).modSlot k (fun x => { x with st := .halted }) else s) s
  let s := s.modHost (fun h => { h with winPart := 0, winOffLo := 0, winOffHi := 0, bar2Log2 := 34 })
  let s := s.modMem (fun m => { m with waiting := m.waiting.filter (fun w => decide (w.q.who ≠ .bar2) || w.data.isSome) })
  let s := if s.host.granted then s.dropGrant else s
  (List.range 8).foldl (fun (s : State) k => if (s.ddma k).en then s.ddmaOff k else s) s
/-- HOST_PORT_RESET (R423): during start-up it changes nothing but the pin and the link; a link that went down has retrained (R445; DEDUCED, log 63). -/
def execHostPortReset (kind : PortReset) (s : State) : Host.Outcome State Fault Refusal :=
  let s := if s.ready then s.portReset else s
  let s := if kind = .linkDown ∧ s.boot.pcieUp then s.count { id := Ctr.pcieLinkRetrains } else s
  .next (if kind = .perst then s.modBoot (fun b => { b with perst := true, pcieUp := false }) else s)
/-- GUEST_FUNCTION_RESET (R423): an FLR of virtual function `k` + 1. -/
def execGuestFunctionReset (k : Fin 3) (s : State) : Host.Outcome State Fault Refusal :=
  let n := k.val + 1
  if !s.hostUp || !s.mail.vfs.contains n then .next s
  else
    let s := s.modMail (fun m => { m with
      rings := SMap.set {} (SMap.set {} m.rings n {}) (n + 5) {}, cmds := m.cmds.filter (fun c => decide (c.ring ≠ n))
      done := m.done.filter (fun e => decide (e.1 ≠ n + 5)) })
    .next (if (s.slot n).st = .empty then s else s.unloadSlot n)

end Sys2Proof.Machine
end

