-- ==== Sys2Proof/Machine/Links.lean ====
section
/-! DEFINITION. OxLink ports as receivers (R259 to R264), link states and detours (R275, R276), lanes and widths (R273, R274), rungs (R278)
and training (R277). -/

namespace Sys2Proof.Machine

/-- Drop the flits of a replay buffer up to an acknowledged RSEQ (R262). -/
def ackDrop (l : List Flit) (ack : BitVec 16) : List Flit :=
  if l.any (fun f => decide (f.rseq = ack)) then (l.dropWhile (fun f => decide (f.rseq ≠ ack))).drop 1 else l
/-- Take a flit's ACK and NAK (R262): acknowledged flits leave the replay buffer; a NAK replays the rest, and after 8 replays of one RSEQ
the port retrains. -/
def State.ackIn (s : State) (p : Nat) (ack : BitVec 16) (nak : Bool) : State :=
  let lp := s.lport p
  let rest := ackDrop lp.replay ack
  let tries := if rest.length < lp.replay.length then 0 else lp.replays
  let s := s.setLport p { lp with replay := rest, replays := tries }
  if !nak || rest.isEmpty then s
  else if 8 ≤ tries then s.retrain p
  else (s.modLport p (fun x => { x with replays := tries + 1, last := rest.getLast? })).count (ckLink Ctr.linkReplay p)
/-- Credits come back (R264). -/
def State.creditsIn (s : State) (i : Nat) (cs : List (BitVec 16)) : State :=
  s.modLpair i (fun x => { x with
    spent := (List.range 6).foldl (fun m c => SMap.modify 0 m c (fun n => n - (cs.getD c 0#16).toNat)) x.spent })

/-- What is left when `n` bytes are taken from the front: the bytes that each flit still holds, and how many flits are used up. -/
def takeFills (n : Nat) : List Nat → List Nat × Nat
  | [] => ([], 0)
  | f :: t => if f ≤ n then let r := takeFills (n - f) t; (r.1, r.2 + 1) else ((f - n) :: t, 0)
/-- The messages that have wholly arrived in a channel of a pair go on (R261, R267): to this module's mesh, or to another pair with the units
that they hold. -/
def State.takeMessages (s : State) (i ch : Nat) : (fuel : Nat) → State
  | 0 => s
  | n + 1 =>
    let st := SMap.get {} (s.lpair i).inn ch
    if st.bytes.length < 16 ∨ st.bytes.length < msgLen st.bytes then s
    else
      let len := msgLen st.bytes
      let r := takeFills len st.fills
      let s' := s.modLpair i (fun x => { x with inn := SMap.set {} x.inn ch { bytes := st.bytes.drop len, fills := r.1 } })
      (s'.routeOut (parseMsg (st.bytes.take len)) (i / 2) (i % 2) (decide (ch % 2 = 1)) (List.replicate r.2 (6 * i + ch))).takeMessages i ch n
/-- Take a broadcast copy (R272): the message is delivered here, goes on in its dimension while hops are left, and starts copies in every
later one. -/
def State.takeCopy (s : State) (i : Nat) (f : Flit) : State :=
  let bytes := f.payload.take f.fill.toNat
  let d := f.bdim.toNat
  let u := 6 * i + flitChannel f
  let s := if (parseMsg bytes).srcDev = s.modId then s else { s with wire := s.wire ++ [parseMsg bytes] }
  let n (s : State) : Nat := ((List.range 8).map (fun j => ((s.lpair j).waiting.filter (fun w => w.flit.bc && decide (w.unit = some u))).length)).sum
  let s' := (s.copyTo bytes f.cls.toNat d (1 - i % 2) (f.bleft.toNat - 1) f.dl (some u)).startCopies bytes f.cls.toNat (d + 1) (some u)
  if n s' = n s then s'.freeUnit u else s'
/-- Deliver a DATA flit to the router (R263, R272). A stream that has lost its place starts again at the flit's first header (R260). -/
def State.routeFlit (s : State) (p : Nat) (f : Flit) : State :=
  let i := p / 2
  let ch := flitChannel f
  let s := s.count (ckLink Ctr.linkFlitsRx p)
  let s := s.modLpair i (fun x => { x with rx := x.rx + 1#16 })
  if f.bc then s.takeCopy i f
  else
    let st := SMap.get {} (s.lpair i).inn ch
    let all := f.payload.take f.fill.toNat
    let bs := if st.bytes.isEmpty then all.drop f.first.toNat else all
    if bs.isEmpty then s.freeUnit (6 * i + ch)
    else
      let s := s.modLpair i (fun x => { x with inn := SMap.set {} x.inn ch { bytes := st.bytes ++ bs, fills := st.fills ++ [bs.length] } })
      s.takeMessages i ch (st.bytes.length + bs.length)
/-- Deliver the flits that waited for the ones before them (R263). -/
def State.routeAhead (s : State) (p : Nat) : (fuel : Nat) → State
  | 0 => s
  | n + 1 =>
    let x := s.lpair (p / 2)
    match x.ahead.find? (fun f => decide (f.pseq = x.rx)) with
    | some f => ((s.modLpair (p / 2) (fun x => { x with ahead := x.ahead.erase f })).routeFlit p f).routeAhead p n
    | none => s
/-- Whether a pair has received a PSEQ already (R263). -/
def LPair.repeats (x : LPair) (q : BitVec 16) : Bool := decide (2 ^ 15 ≤ (q - x.rx).toNat) || x.ahead.any (fun g => decide (g.pseq = q))
/-- A DATA flit in RSEQ order (R263): its credits are taken, and it is delivered in PSEQ order or kept ahead of its turn. A repeat is
discarded. -/
def State.dataIn (s : State) (p : Nat) (f : Flit) : State :=
  let i := p / 2
  let x := s.lpair i
  let gap := (f.pseq - x.rx).toNat
  if x.repeats f.pseq then s
  else
    let s := (s.creditsIn i f.credits).modLpair i (fun x => { x with held := SMap.modify 0 x.held (flitChannel f) (fun n => n + 1) })
    let s := s.notePool (i / 2)
    if gap = 0 then (s.routeFlit p f).routeAhead p x.ahead.length
    else s.modLpair i (fun x => { x with ahead := x.ahead ++ [f] })

/-- The width that a number of usable lanes allows (R274); 0 is a port that is down. -/
def widthOf (usable : Nat) : Nat := if 24 ≤ usable then 24 else if 16 ≤ usable then 16 else if 8 ≤ usable then 8 else 0
/-- LINK_DEGRADED (R274). -/
def State.degraded (s : State) (p : Nat) : State :=
  s.post 0x0401 .absorbed none (unitRef 6 p) (payload [(1, p), (1, (s.lport p).width), (1, (s.lport p).usable)])
/-- Run a port at the widest width that its lanes and its far end allow (R274): a WIDTH_REQ goes out when `tell` asks for it, flits in flight go to
the other port, and the port carries nothing for the 100 us of the change. A narrower width is counted. -/
def State.rewidth (s : State) (p : Nat) (tell : Bool) : State :=
  let lp := s.lport p
  let w := min (widthOf lp.usable) lp.farWidth
  if w = lp.width then s
  else
    let s := s.handOver p
    let s := if tell && decide (w ≠ 0) then s.ctrlNow p 3 w else s
    let s := s.modLport p (fun x => { x with
      width := w, up := x.up && decide (w ≠ 0), changing := if w = 0 then none else some (s.timeUs + 100) })
    let s := if w < lp.width then s.count (ckLink Ctr.laneDegrade p) else s
    (s.syncView 11 (p / 2)).linkWork
/-- Width changes that end now (R274; log 94). -/
def State.endWidths (s : State) : State :=
  let done := (List.range 16).filter (fun p => match (s.lport p).changing with | some t => decide (t ≤ s.timeUs) | none => false)
  done.foldl (fun (s : State) p => (s.modLport p LPort.restart).syncView 11 (p / 2)) s
/-- LANE_RETIRE (R273, R274): a spare is trained, or the port runs with the lanes that are left, which is posted, and asks the same width of its far
end. -/
def execLaneRetire (port : Fin 16) (s : State) : Host.Outcome State Fault Refusal :=
  let p := port.val
  let lp := s.lport p
  if !lp.up || decide (lp.usable = 0) then .next s
  else
    let s := s.modLport p (fun x => { x with usable := x.usable - 1 })
    if 24 < lp.usable then .next (s.modLport p (fun x => { x with sparing := x.sparing + 1 }))
    else .next ((s.rewidth p true).degraded p)
/-- LANE_SPARED (R273): a spare that has trained is swapped in; what this damages is replayed. -/
def execLaneSpared (port : Fin 16) (s : State) : Host.Outcome State Fault Refusal :=
  .next (if 0 < (s.lport port.val).sparing then
      (s.modLport port.val (fun x => { x with sparing := x.sparing - 1 })).count (ckLink Ctr.laneSpared port.val)
    else s)

/-- A RUNG_REQ arrives (R278): agreed unless it is deeper than firmware allows now, and then this end drains too. -/
def State.rungReq (s : State) (p r : Nat) : State :=
  if !(s.lport p).carries || decide (r = 0) || decide (6 < r) || (decide (1 < r) && s.anyLoaded) then s
  else
    let s := (s.handOver p).ctrlNow p 1 r
    let s := s.modLport p (fun x => { x with rung := r })
    let k := domKey 6 p
    let d := s.domain k
    (if d.phase = 0 ∧ d.rung < r then s.setDomain k { d with target := r, phase := 1 } else s).linkWork
/-- RUNG_REQ (R278). -/
def execRungReq (port : Fin 16) (rung : BitVec 12) (s : State) : Host.Outcome State Fault Refusal := .next (s.rungReq port.val rung.toNat)
/-- A RUNG_ACK arrives (R278): the far end has agreed the rung that this port drains to. -/
def State.rungAck (s : State) (p r : Nat) : State :=
  let d := s.domain (domKey 6 p)
  if d.phase = 1 ∧ r ≤ d.target then s.modLport p (fun x => { x with rung := r }) else s
/-- RUNG_ACK (R278). -/
def execRungAck (port : Fin 16) (rung : BitVec 12) (s : State) : Host.Outcome State Fault Refusal := .next (s.rungAck port.val rung.toNat)
/-- A LANE_MAP arrives (R260): the port deals its symbols to the lanes of that map. -/
def State.laneMap (s : State) (p i : Nat) : State := if (s.lport p).carries then s.modLport p (fun x => { x with laneMap := i }) else s
/-- LANE_MAP (R260). -/
def execLaneMap (port : Fin 16) (index : BitVec 12) (s : State) : Host.Outcome State Fault Refusal := .next (s.laneMap port.val index.toNat)
/-- A WIDTH_REQ arrives (R274): the far end's lanes limit the port's width. -/
def State.widthReq (s : State) (p w : Nat) : State :=
  let lp := s.lport p
  if lp.carries && [8, 16, 24].contains w then
    let s := (s.modLport p (fun x => { x with farWidth := w })).rewidth p false
    if (s.lport p).width < lp.width then s.degraded p else s
  else s
/-- WIDTH_REQ (R274). -/
def execWidthReq (port : Fin 16) (width : BitVec 12) (s : State) : Host.Outcome State Fault Refusal := .next (s.widthReq port.val width.toNat)
/-- A CTRL flit acts by its CTRL_OP (R260); 4 to 7 are reserved and do nothing. -/
def State.ctrlIn (s : State) (p : Nat) (f : Flit) : State :=
  match f.ctrlOp.toNat with
  | 0 => s.rungReq p f.ctrlArg.toNat
  | 1 => s.rungAck p f.ctrlArg.toNat
  | 2 => s.laneMap p f.ctrlArg.toNat
  | 3 => s.widthReq p f.ctrlArg.toNat
  | _ => s

/-- Whether the receive pool has room for a flit (R265): a repeat and what is no DATA of a class need none. -/
def State.roomFor (s : State) (i : Nat) (f : Flit) : Bool :=
  decide (f.ftype ≠ 1#4) || decide (f.cls = 3#2) || (s.lpair i).repeats f.pseq || s.unitFree i (flitChannel f)
/-- A flit that passes its CRC (R262): an IDLE flit gives its ACK and its credits at once; another is accepted only when its RSEQ is next in order, and
then gives its ACK, its credits and what it carries. A flit that is not next, or that no unit can hold, is discarded whole. DATA of the
reserved class carries nothing (log 61). -/
def State.goodFlit (s : State) (p : Nat) (f : Flit) : State :=
  if f.ftype = 0#4 then (s.ackIn p f.ack f.nak).creditsIn (p / 2) f.credits
  else if f.rseq ≠ (s.lport p).rx ∨ !s.roomFor (p / 2) f then s
  else
    let s := (s.modLport p (fun x => { x with rx := x.rx + 1#16, nak := false })).ackIn p f.ack f.nak
    if !(s.lport p).carries then s
    else if f.ftype = 1#4 then (if f.cls = 3#2 then s else s.dataIn p f)
    else if f.ftype = 2#4 then (s.creditsIn (p / 2) f.credits).ctrlIn p f
    else s
/-- FLIT_RECEIVE (R259 to R264): an awake port takes the flit; one that fails its CRC or its FEC is discarded and answered with a NAK. -/
def execFlitReceive (port : Fin 16) (f : Flit) (s : State) : Host.Outcome State Fault Refusal :=
  let p := port.val
  let d := s.domain (domKey 6 p)
  if !(s.lport p).carries || !s.links.configured || s.links.training then .next s
  else if 2 ≤ d.rung ∨ d.phase = 3 then .next (s.wakePort p)
  else
    let s := (if d.rung = 1 then s.wakePort p else s).wakeDie (20 + p / 4)
    let s := (s.count (ckLink Ctr.linkFecCorrected p) (fecFixed f)).count (ckLink Ctr.linkFecUncorr p) (fecLost f)
    if !fecOk f || decide (f.crc ≠ flitCrc f) then
      .next (((s.modLport p (fun x => { x with nak := true })).count (ckLink Ctr.linkCrcFail p)).linkWork)
    else .next (s.goodFlit p f).linkWork
/-- FLIT_FLUSH_TIMEOUT (R261): a channel's partly filled flit goes out. -/
def execFlitFlushTimeout (pair : Fin 8) (ch : Fin 6) (s : State) : Host.Outcome State Fault Refusal :=
  .next ((s.linkWork.flushStream pair.val ch.val).linkWork)

/-- A module of this module's rings that cannot be reached is lost (R276, R398). -/
def State.loseUnreachable (s : State) (d : Nat) : State :=
  ((List.range (s.extent d)).filter (fun c => decide (fld (SMap.get 0 s.links.detour d) (2 * c + 1) (2 * c) = 3))).foldl
    (fun (s : State) c => s.memberLost (atCoord s.modId.toNat d c) 0) s
/-- LINK_STATE (R276, R386): the blocked links received join the ring's blocked set; the detour word follows, and what it cuts off is lost. -/
def execLinkState (m : Msg) (s : State) : Host.Outcome State Fault Refusal :=
  .next (s.fwMsg m 0 (fun s =>
    let w := (m.payload.headD 0#32).toNat
    let d := w % 256
    if 4 ≤ d then s
    else (({ s with links := { s.links with blocked := SMap.modify 0 s.links.blocked d (fun b => b ||| w / 65536) } } : State).refreshDetour d).loseUnreachable d))

/-- The messages that begin in a byte string at a header (R261). -/
def headersIn : (fuel : Nat) → List Byte → Nat
  | 0, _ => 0
  | n + 1, b => if b.isEmpty then 0 else if b.length < 16 then 1 else 1 + headersIn n (b.drop (msgLen b))
/-- The messages that lose a byte with some flits of one channel (R275). -/
def lostIn (fs : List Flit) : Nat :=
  let firsts := fs.map (fun f => (f.first.toNat, f.payload.take f.fill.toNat))
  let cut := firsts.dropWhile (fun e => decide (e.1 = 0xFF))
  let mid := match firsts with
    | [] => 0
    | e :: _ => if e.1 = 0 then 0 else 1
  match cut with
  | [] => mid
  | e :: t => let b := e.2.drop e.1 ++ (t.map (fun x => x.2)).flatten; mid + headersIn b.length b
/-- The whole messages that a byte string spells. -/
def splitMsgs : (fuel : Nat) → List Byte → List (List Byte)
  | 0, _ => []
  | n + 1, b => if b.length < 16 then [] else b.take (msgLen b) :: splitMsgs n (b.drop (msgLen b))
/-- The DATA flits of a pair that have been sent and not acknowledged, those handed over among them. -/
def State.sentFlits (s : State) (i : Nat) : List Flit :=
  (((s.lport (2 * i)).replay ++ (s.lport (2 * i + 1)).replay).filter (fun f => decide (f.ftype = 1#4))).foldl
    (fun l f => insWaiting { flit := f, numbered := true } l) ((s.lpair i).waiting.filter (fun w => w.numbered)) |>.map (fun w => w.flit)
/-- What waits in a channel of a pair and was never sent: FIRST, bytes and source of each flit and of the partly filled one. -/
def LPair.unsent (x : LPair) (c : Nat) : List (Nat × List Byte × Nat) :=
  let o := SMap.get {} x.out c
  ((x.waiting.filter (fun w => !w.numbered && !w.flit.bc && decide (flitChannel w.flit = c))).map (fun w =>
    (w.flit.first.toNat, w.flit.payload.take w.flit.fill.toNat, w.src))) ++
  (if o.bytes.isEmpty then [] else [(((o.starts.head?).map (fun e => e.1)).getD 0xFF, o.bytes, ((o.starts.head?).map (fun e => e.2)).getD o.cur)])
/-- Whether the first of those bytes continue a message that has begun. -/
def LPair.midway (x : LPair) (c : Nat) : Bool := match x.unsent c with | e :: _ => decide (e.1 ≠ 0) | [] => false
/-- The messages of a channel of which nothing has been sent, with their source and the receive units that they hold. -/
def LPair.whole (x : LPair) (c : Nat) : List (Nat × List Byte) :=
  match (x.unsent c).dropWhile (fun e => decide (e.1 = 0xFF)) with
  | [] => []
  | e :: t => let b := e.2.1.drop e.1 ++ (t.map (fun y => y.2.1)).flatten; (splitMsgs b.length b).map (fun m => (e.2.2, m))
/-- The units that the bytes of a channel that were never sent hold. -/
def LPair.unsentUnits (x : LPair) (c : Nat) : List Nat :=
  ((x.waiting.filter (fun w => !w.numbered && !w.flit.bc && decide (flitChannel w.flit = c))).filterMap (fun w => w.unit)) ++ (SMap.get {} x.out c).units
/-- The messages that a pair loses (R275): every unacknowledged broadcast copy, and in each channel what the unacknowledged flits touch; a message
whose acknowledged beginning alone has left is lost too (log 92). -/
def State.pairLosses (s : State) (i : Nat) : Nat :=
  let sent := s.sentFlits i
  (sent.filter (fun f => f.bc)).length + ((List.range 6).map (fun c =>
    let mine := sent.filter (fun f => !f.bc && decide (flitChannel f = c))
    if mine.isEmpty then b2n ((s.lpair i).midway c) else lostIn mine)).sum
/-- The units of a pair's own receive pool are no longer held: nothing that came by the pair owes a credit. -/
def State.forgetUnits (s : State) (i : Nat) : State :=
  let own (u : Nat) : Bool := decide (u < 48) && decide (u / 6 = i)
  { s with links := { s.links with
    ring := s.links.ring.map (fun r => { r with units := r.units.filter (fun u => !own u) })
    pairs := SMap.mapVals {} (fun _ x => { x with
      waiting := x.waiting.map (fun w => { w with unit := w.unit.filter (fun u => !own u) })
      out := SMap.mapVals {} (fun _ o => { o with units := o.units.filter (fun u => !own u) }) x.out }) s.links.pairs } }
/-- Route the messages of a channel of a fallen pair that were never sent anew (R275, R276; log 92); units left over are freed. -/
def State.reroute (s : State) (i : Nat) : List (Nat × List Byte) → List Nat → State
  | [], us => s.freeUnits us
  | (src, b) :: t, us =>
    let n := (b.length + 207) / 208
    (s.routeOut (parseMsg b) (i / 2) src false (us.take n)).reroute i t (us.drop n)
/-- A pair goes down (R275): what was sent and not acknowledged is lost, the detour word and a LINK_STATE to the ring follow at once, what was
never sent takes the new way, and slot 0's step is abandoned. The pair is used again only from the next epoch adoption. -/
def State.pairFalls (s : State) (i : Nat) : State :=
  let d := i / 2
  let lost := s.pairLosses i
  let s := s.forgetUnits i
  let x := s.lpair i
  let s := (s.modLport (2 * i) (fun x => { x with replay := [], ctrl := [] })).modLport (2 * i + 1) (fun x => { x with replay := [], ctrl := [] })
  let s := s.setLpair i { down := true, barred := true, waiting := x.waiting.filter (fun w => w.flit.bc && !w.numbered) }
  let s := ((s.count (ckLink Ctr.linkMsgLost (2 * i)) lost).count (ckLink Ctr.pairDown (2 * i))).refreshDetour d
  let s := (s.post 0x0402 .absorbed none (unitRef 11 i) (payload [(1, i), (4, lost)])).syncView 11 i
  let s := (List.range 6).foldl (fun (s : State) c => s.reroute i (x.whole c) (x.unsentUnits c)) (s.tellRing d)
  ((s.epochClose 2).loseUnreachable d).linkWork
/-- PAIR_DOWN (R275): both ports are down, or nothing has been carried for 1 ms while flits wait (`stalled`). -/
def execPairDown (pair : Fin 8) (stalled : Bool) (s : State) : Host.Outcome State Fault Refusal :=
  let i := pair.val
  let x := s.lpair i
  let a := s.lport (2 * i)
  let b := s.lport (2 * i + 1)
  let waits := !x.waiting.isEmpty || !a.replay.isEmpty || !b.replay.isEmpty
  let dead := !a.up && !b.up && !a.retraining && !b.retraining
  if x.down || !s.links.configured || decide (s.extent (i / 2) = 1) || !(dead || (stalled && waits)) then .next s
  else .next (s.pairFalls i)

/-- What the far end of a port must report (R258, R277). -/
def State.wantedIdent (s : State) (p : Nat) : PortIdent :=
  let d := p / 4
  let e := p / 2 % 2
  let k := s.extent d
  let c := if e = 0 then (s.coord d + 1) % k else (s.coord d + k - 1) % k
  { dev := BitVec.ofNat 14 (atCoord s.modId.toNat d c), port := Fin.ofNat 16 (d * 4 + (1 - e) * 2 + p % 2), k := s.links.k }
/-- PORT_TRAINING_COMPLETE (R277): a port whose lanes have locked (steps 1 to 3) comes up when its far end is the one that the cabling requires;
one that meets another end stays down and is reported; one that met none stays down. A pair that was down is in service again. -/
def execPortTrainingComplete (port : Fin 16) (far : Option PortIdent) (s : State) : Host.Outcome State Fault Refusal :=
  let p := port.val
  if !(s.lport p).retraining || !(s.lport p).locked then .next s
  else
    let s := s.modLport p (fun x => { x with retraining := false, up := false })
    let s := match far with
      | none => s
      | some f =>
        if f = s.wantedIdent p then
          (s.modLport p (fun x => { x.restart with up := decide (x.width ≠ 0) })).modLpair (p / 2)
            (fun x => { x with down := false })
        else
          (s.count (ckLink Ctr.linkMiscabled p)).post 0x0403 .fault none (unitRef 6 p)
            (payload [(2, s.modId.toNat), (1, p), (2, f.dev.toNat), (1, f.port.val)])
    .next ((s.syncView 11 (p / 2)).endLinkConfig.linkWork)

end Sys2Proof.Machine
end

