-- ==== Sys2Proof/Machine/Outband.lean ====
section
/-! DEFINITION. JTAG and the MCTP commands of the board management controller (R442 to R444). -/

namespace Sys2Proof.Machine

/-- The number under which an instruction is held. -/
def jtagNum : JtagIns → Nat
  | .idcode => 0 | .bypass => 1 | .sample => 2 | .extest => 3 | .extestPulse => 4 | .extestTrain => 5 | .highz => 6
  | .internal c => 7 + c
/-- JTAG_INSTRUCTION_LOAD (R442): an internal instruction is BYPASS unless JTAG is granted; a test or internal instruction parks the die's
arbiters, which stay parked until a module reset, and, while a job slot is loaded, is a module fault. -/
def execJtagInstructionLoad (die : Fin 25) (ins : JtagIns) (s : State) : Host.Outcome State Fault Refusal :=
  let granted := s.host.granted && bitOf s.host.scopeG 2
  let n := if 7 ≤ jtagNum ins ∧ !granted then 1 else jtagNum ins
  let s := s.modBoot (fun b => { b with jtag := SMap.set 0 b.jtag die.val n })
  if n < 3 then .next s
  else
    let s := (s.arbAll die.val true).modBoot (fun b => { b with testDies := if b.testDies.contains die.val then b.testDies else b.testDies ++ [die.val] })
    .next (if s.anyLoaded then s.moduleFault else s)

/-- The MCTP response (R443): the completion byte and what follows it. -/
def State.mctpSay (s : State) (code : Nat) (bs : List Byte := []) : State :=
  s.modHost (fun h => { h with mctp := BitVec.ofNat 8 code :: bs })
/-- Whether the boot ROM or Yucon firmware answers MCTP (R411, R421). -/
def State.mctpUp (s : State) : Bool := s.boot.aon && s.boot.rails && decide (1 ≤ s.boot.stage)
/-- A command that Yucon firmware answers (R443): before it runs, the boot ROM says "not ready". -/
def State.mctpFw (s : State) (f : State → State) : State :=
  if !s.mctpUp then s else if s.boot.image = 0 then s.mctpSay 3 else f s

/-- GET_HEALTH (R443). -/
def execGetHealth (s : State) : Host.Outcome State Fault Refusal :=
  .next (s.mctpFw (fun s => s.mctpSay 0 (leBytes 4 s.boot.status ++ (List.range 4).flatMap (fun k => leBytes 4 (s.slot k).word) ++
    leBytes 4 s.beyonds)))
/-- GET_TEMPS (R443): the compute dies' junctions are the governors'; `side` are those of dies 16 to 24. -/
def execGetTemps (side : List (BitVec 8)) (s : State) : Host.Outcome State Fault Refusal :=
  .next (s.mctpFw (fun s => s.mctpSay 0 ((List.range 16).map (fun d => BitVec.ofInt 8 (s.gov d).tHot) ++ side ++
    leBytes 12 (((List.range 48).map (fun p => (s.mem.port p).thermal % 4 * 4 ^ p)).sum))))
/-- GET_POWER (R443): what the meters read. -/
def execGetPower (mv : BitVec 16) (ma : BitVec 32) (w : BitVec 16) (dies : List (BitVec 16)) (s : State) :
    Host.Outcome State Fault Refusal :=
  .next (s.mctpFw (fun s => s.mctpSay 0 (leBytes 2 mv.toNat ++ leBytes 4 ma.toNat ++ leBytes 2 w.toNat ++
    dies.flatMap (fun x => leBytes 2 x.toNat))))
/-- SET_POWER_LIMIT (R443, R444): the limit enters the governors' next windows. -/
def execSetPowerLimit (w : BitVec 16) (s : State) : Host.Outcome State Fault Refusal :=
  .next (s.mctpFw (fun s =>
    if w.toNat = 0 ∨ (2900 ≤ w.toNat ∧ w.toNat ≤ 4200) then (s.modBoot (fun b => { b with powerLimit := w.toNat })).mctpSay 0
    else s.mctpSay 2))
/-- READ_BOOT_STATUS (R443). -/
def execReadBootStatus (s : State) : Host.Outcome State Fault Refusal :=
  .next (if s.mctpUp then s.mctpSay 0 (leBytes 4 s.boot.status) else s)
/-- READ_START_LOG (R443): 32 bytes at a multiple of 32. -/
def execReadStartLog (off : BitVec 8) (s : State) : Host.Outcome State Fault Refusal :=
  .next (if !s.mctpUp then s
    else if off.toNat % 32 ≠ 0 then s.mctpSay 2
    else s.mctpSay 0 ((s.startLog.drop off.toNat).take 32))
/-- MCTP_MODULE_RESET (R423, R443): the response is sent before the reset starts. -/
def execMctpModuleReset (s : State) : Host.Outcome State Fault Refusal :=
  .next (if s.mctpUp then s.moduleReset.mctpSay 0 else s)
/-- GET_IDENTITY (R443). -/
def execGetIdentity (s : State) : Host.Outcome State Fault Refusal :=
  .next (s.mctpFw (fun s => s.mctpSay 0 (leBytes 4 s.moduleIdReg ++ leBytes 4 s.deviceId ++ leBytes 2 s.boot.logFwVersion ++
    leBytes 2 s.boot.logSecVersion)))

end Sys2Proof.Machine
end

