-- ==== Sys2Proof/Machine/QuantOps.lean ====
section
/-! DEFINITION. LSMOV, QUANT and PINWHEEL (R54 to R58, R77, R85 to R90, R176). -/

namespace Sys2Proof.Machine

/-- The op word of an LSMOV (R176). -/
def lsmovWord (h : OpHead) (fill : Bool) (a : LsmovArgs) : Nat :=
  opWord 0x01 (b2n fill) h [(78, lsaBits a.src), (60, lsaBits a.dst), (52, a.nlinesM1.toNat), (46, a.const.toNat)]

/-- The bytes that LSMOV writes: the source's, or free bytes where source and destination overlap (log 24). -/
def lsmovBytes (s : State) (c : Core) (src dst n : Nat) : List Byte :=
  if src ≠ dst ∧ src < dst + n ∧ dst < src + n then (List.range n).map (Config.freeByte s.free)
  else rdBytes c.lmem.read src n

/-- The plan of an LSMOV. -/
def lsmovPlan (s : State) (p : Site) (h : OpHead) (a : LsmovArgs) : Plan :=
  let t := s.ctx p
  let n := a.nlinesM1.toNat + 1
  let src := t.line a.src
  let dst := t.line a.dst
  let ok (w : Bool) (l : Nat) : Bool := linesOk (s.core (Site.no p)).chestLines p.guest w l n
  { word := lsmovWord h false a, unit := some .localStore, reads := [{ sp := .ls, lo := src, n := n }]
    writes := [{ sp := .ls, lo := dst, n := n }], regsR := [a.src.s.toNat, a.dst.s.toNat], cost := 2, units := n
    fault := faultOf [need (ok false src) 0x03, need (ok true dst) 0x03] }
/-- LSMOV (R176): NLINES lines from SRC to DST. -/
def execLsmov (p : Site) (h : OpHead) (a : LsmovArgs) (s : State) : Host.Outcome State Fault Refusal :=
  let t := s.ctx p
  let n := a.nlinesM1.toNat + 1
  let src := t.line a.src
  let dst := t.line a.dst
  .next (s.issue p h (lsmovPlan s p h a)
    (fun s =>
      let bytes := lsmovBytes s (s.core (Site.no p)) (src * 256) (dst * 256) (n * 256)
      { s.modCore (Site.no p) (fun c => { c with lmem := c.lmem.writeList (dst * 256) bytes }) with free := s.free + 1 }))

/-- The plan of an LSMOV with FILL. -/
def lsmovFillPlan (s : State) (p : Site) (h : OpHead) (a : LsmovArgs) : Plan :=
  let t := s.ctx p
  let c := s.core (Site.no p)
  let n := a.nlinesM1.toNat + 1
  let dst := t.line a.dst
  { word := lsmovWord h true a, unit := some .localStore, writes := [{ sp := .ls, lo := dst, n := n }]
    regsR := [a.dst.s.toNat], cost := 2, units := n
    fault := faultOf [need (linesOk c.chestLines p.guest true dst n) 0x03, need (constAt c t.hdr a.const.toNat).isSome 0x03] }
/-- LSMOV with FILL (R176): a constant of the routine's table in every word of the destination lines. -/
def execLsmovFill (p : Site) (h : OpHead) (a : LsmovArgs) (s : State) : Host.Outcome State Fault Refusal :=
  let t := s.ctx p
  let n := a.nlinesM1.toNat + 1
  let dst := t.line a.dst
  let k := constAt (s.core (Site.no p)) t.hdr a.const.toNat
  .next (s.issue p h (lsmovFillPlan s p h a)
    (fun s => s.modCore (Site.no p) (fun c => { c with
      lmem := c.lmem.writeList (dst * 256) ((List.replicate (64 * n) (leBytes 4 (k.getD 0#32).toNat)).flatten) })))

/-- The op word of a QUANT (R176). -/
def quantWord (h : OpHead) (a : QuantArgs) : Nat :=
  opWord 0x30 (b2n a.transpose) h [(78, lsaBits a.src), (62, tixBits a.tile), (56, a.desc.toNat), (50, a.recIdx.toNat),
    (44, a.g0.toNat), (26, lsaBits a.summ), (8, lsaBits a.learn), (5, a.sfmt.toNat), (1, a.kreg.toNat)]

/-- The tables' entries that a QUANT names: the descriptor's address and contents, the record, G0. -/
structure QuantIn where
  descAddr : Nat
  desc : TDesc
  qr : QRec
  g0 : Word
  deriving DecidableEq, Repr

/-- Look up a QUANT's descriptor, record and constant (R176). -/
def quantIn (c : Core) (t : Ctx) (a : QuantArgs) : Option QuantIn :=
  match descAt c t.hdr a.desc.toNat, qrecAt c t.hdr a.recIdx.toNat, constAt c t.hdr a.g0.toNat with
  | some (da, d), some r, some g => some { descAddr := da, desc := d, qr := r, g0 := g }
  | _, _, _ => none

/-- The 128 blocks that a QUANT codes from its source tile (R59): block i is half of line i / 2. -/
def quantBlocks (c : Core) (t : Ctx) (a : QuantArgs) (q : QuantIn) : List QBlk :=
  let lines := Coding.readWide c.lmem.read (t.line a.src * 256) a.sfmt.toNat a.transpose
  let tile := t.tile a.tile
  (List.range 128).map (fun i =>
    let x := ((lines.getD (i / 2) []).drop (32 * (i % 2))).take 32
    Quant.block x q.desc.fmt q.qr q.g0 (decide (q.desc.rotN ≠ 0)) q.desc.planeLimit
      (if q.qr.learned then some (c.lmem.readLE (t.line a.learn * 256 + 2 * i) 2) else none)
      (Coding.blockSeq q.desc (128 * tile + i)))

/-- Everything a QUANT writes, as (local offset, bytes) (R28, R31, R54, R57, R77): codes plane by plane of normal blocks, block
words, kite words, the directory word, the descriptor's KITE_WORDS and the summary word. -/
def quantWrites (t : Ctx) (a : QuantArgs) (q : QuantIn) (bs : List QBlk) : List (Nat × List Byte) :=
  let tile := t.tile a.tile
  let loc (base inc : Nat) : Nat := base % 2 ^ 32 + inc
  let kites := (bs.map (fun b => b.kites)).flatten
  (bs.zipIdx.map (fun (b, i) => b.planes.zipIdx.map (fun (pl, k) =>
      (loc q.desc.codes (k * q.desc.planeStride * 256 + 16 * (128 * tile + i)), Quant.planeBytes pl)))).flatten ++
  [(loc q.desc.blockw (256 * tile), (bs.map (fun b => leBytes 2 b.bw)).flatten),
   (loc q.desc.kite (4 * q.desc.kiteWords), (kites.map (leBytes 4)).flatten),
   (loc q.desc.kiteDir (4 * tile), leBytes 4 q.desc.kiteWords),
   (q.descAddr + 0x24, leBytes 4 (q.desc.kiteWords + kites.length)),
   (t.line a.summ * 256 + 4 * tile, leBytes 4 (Quant.summary q.desc.fmt bs))]

/-- The faults of a QUANT (R33, R54, R55, R58, R175). -/
def quantFault (c : Core) (t : Ctx) (guest : Bool) (a : QuantArgs) : Option Nat :=
  match quantIn c t a with
  | none => some 0x03
  | some q =>
    let d := q.desc
    let base (x : Nat) : Bool := ((localOff x).map (fun o => localOk c.chestLines guest true o 1)).getD false
    faultOf [
      need (a.sfmt.toNat ≤ 4) 0x01,
      need (Coding.validDesc d && Coding.is4bit d.fmt) 0x02,
      need (!q.qr.bad && (!q.qr.learned || d.fmt == Coding.fmtB4)) 0x02,
      need (Fp.isNormal q.g0 && d.g == Quant.foldedG d.rotN q.g0) 0x02,
      need (t.tile a.tile < Coding.tileCount d) 0x03,
      need (base d.codes && base d.blockw && base d.kite && base d.kiteDir) 0x03,
      need (localOk c.chestLines guest false (t.line a.src * 256) (4096 * Coding.sfmtBytes a.sfmt.toNat)) 0x03,
      need (!q.qr.learned || localOk c.chestLines guest false (t.line a.learn * 256) 256) 0x03,
      need ((quantWrites t a q (quantBlocks c t a q)).all (fun w => localOk c.chestLines guest true w.1 w.2.length)) 0x03]

/-- The tracked ranges that a QUANT writes (R173): each plane of the tile, block words, kite words, directory word,
descriptor and summary word. -/
def quantRanges (t : Ctx) (a : QuantArgs) (q : QuantIn) (w : Nat) : List Rng :=
  let tile := t.tile a.tile
  let loc (base inc : Nat) : Nat := base % 2 ^ 32 + inc
  (List.range (q.desc.planeLimit + 1)).map
    (fun k => lsRange (loc q.desc.codes (k * q.desc.planeStride * 256 + 2048 * tile)) 2048) ++
  [lsRange (loc q.desc.blockw (256 * tile)) 256, lsRange (loc q.desc.kite (4 * q.desc.kiteWords)) (4 * w),
   lsRange (loc q.desc.kiteDir (4 * tile)) 4, lsRange q.descAddr 64, lsRange (t.line a.summ * 256 + 4 * tile) 4]

/-- Whether a QUANT writes a non-finite block (R60, R226). -/
def wroteNonfinite (bs : List QBlk) : Bool := bs.any (fun b => decide (b.bw = 0x0060))
/-- QUANT's effect: the writes, S[KREG] ← W, the counts under the record's LAYER (R84), the slot's NF_STEP with a non-finite block
(R52, R226), and the source noted for a send log (R190). DESIGN CHOICE (log 70): the 16-bit policy that R75's event carries is the
record's ZERO_POLICY in its low two bits and SAT_POLICY above them, as the layer's last QUANT had them. -/
def quantRun (s : State) (p : Site) (a : QuantArgs) (q : QuantIn) (bs : List QBlk) : State :=
  let t := s.ctx p
  let w := (bs.map (fun b => b.kites.length)).sum
  let src : QSrc := { desc := a.desc.toNat, tile := t.tile a.tile, line := t.line a.src, sfmt := a.sfmt.toNat, rotN := q.desc.rotN }
  let s := s.modCore (Site.no p) (fun c => { c with
    lmem := (quantWrites t a q bs).foldl (fun m x => m.writeList x.1 x.2) c.lmem })
  let s := s.modCtx p (fun t => { t.setSreg a.kreg (BitVec.ofNat 32 w) with
    qsrc := src :: t.qsrc.filter (fun e => !(e.desc == src.desc && e.tile == src.tile)) })
  let s := s.modSlot t.slot (fun x => { x with
    nf := x.nf || wroteNonfinite bs
    qpol := SMap.set 0 x.qpol q.qr.layer (q.qr.zeroPolicy + q.qr.satPolicy * 4) })
  s.countAll (fun id => { ckCtx id p with layer := some q.qr.layer })
    ((Ctr.quantTiles, 1) :: (bs.map (fun b => b.counts)).flatten)

/-- The plan of a QUANT (R173, R350: 45 nJ); without its table entries it is an address fault. -/
def quantPlan (s : State) (p : Site) (h : OpHead) (a : QuantArgs) : Plan :=
  let c := s.core (Site.no p)
  let t := c.ctx p.guest
  match quantIn c t a with
  | none => { word := quantWord h a, unit := some .quantiser, fault := some 0x03 }
  | some q =>
    { word := quantWord h a, unit := some .quantiser
      reads := lsRange (t.line a.src * 256) (4096 * Coding.sfmtBytes a.sfmt.toNat) ::
        (if q.qr.learned then [lsRange (t.line a.learn * 256) 256] else [])
      writes := quantRanges t a q ((quantBlocks c t a q).map (fun b => b.kites.length)).sum
      regsR := [a.src.s.toNat, a.tile.s.toNat, a.summ.s.toNat, a.learn.s.toNat], regsW := [a.kreg.toNat]
      cost := 4500, fault := quantFault c t p.guest a }
/-- QUANT (R54). -/
def execQuant (p : Site) (h : OpHead) (a : QuantArgs) (s : State) : Host.Outcome State Fault Refusal :=
  let c := s.core (Site.no p)
  let t := c.ctx p.guest
  .next (s.issue p h (quantPlan s p h a) (fun s => match quantIn c t a with
    | none => s
    | some q => quantRun s p a q (quantBlocks c t a q)))

/-- The op word of a PINWHEEL (R176). -/
def pinwheelWord (h : OpHead) (a : PinwheelArgs) : Nat :=
  opWord 0x31 (b2n a.transpose) h [(78, lsaBits a.src), (60, lsaBits a.dst), (44, tixBits a.tile), (38, a.desc.toNat),
    (35, a.sfmt.toNat)]

/-- The tiles of a window group (R86). -/
def groupTiles (rotN : Nat) : Nat := if rotN = 3 then 2 else if rotN = 4 then 4 else 1

/-- The faults of a PINWHEEL (R33, R86, R172). -/
def pinwheelFault (c : Core) (t : Ctx) (guest : Bool) (a : PinwheelArgs) (d : TDesc) : Option Nat :=
  let g := groupTiles d.rotN
  let tile := t.tile a.tile
  faultOf [
    need (a.sfmt.toNat ≤ 4) 0x01,
    need (Coding.validDesc d && !(d.fmt == Coding.fmtU4) && decide (d.rotN ≠ 0) &&
      decide (d.cols % Rot.winLen d.rotN = 0)) 0x02,
    need (decide (tile < Coding.tileCount d) && decide (tile % Coding.tileCols d % g = 0) &&
      decide (tile % Coding.tileCols d + g ≤ Coding.tileCols d)) 0x03,
    need (localOk c.chestLines guest false (t.line a.src * 256) (g * 4096 * Coding.sfmtBytes a.sfmt.toNat)) 0x03,
    need (linesOk c.chestLines guest true (t.line a.dst) (64 * g)) 0x03]

/-- The rotated lines of a window group, and how many windows overflowed (R87, R90): line r of the g tiles in one. -/
def pinwheelLines (c : Core) (t : Ctx) (a : PinwheelArgs) (d : TDesc) (seed : Long) (step : Nat) : List (List Word × Nat) :=
  let g := groupTiles d.rotN
  let tiles := (List.range g).map (fun i =>
    Coding.readWide c.lmem.read (t.line a.src * 256 + i * 4096 * Coding.sfmtBytes a.sfmt.toNat) a.sfmt.toNat a.transpose)
  (List.range 64).map (fun r =>
    Rot.line ((tiles.map (fun tl => tl.getD r [])).flatten) (t.tile a.tile % Coding.tileCols d * 64) d.rotN seed step
      d.layer d.axis)

/-- The bytes of the rotated tiles, tile by tile (R27, R85). -/
def pinwheelBytes (g : Nat) (ls : List (List Word × Nat)) : List Byte :=
  ((List.range g).map (fun i => (ls.map (fun l =>
    (((l.1.drop (64 * i)).take 64).map (fun v => leBytes 4 v.toNat)).flatten)).flatten)).flatten

/-- The plan of a PINWHEEL (R173, R350: 15 nJ a tile); without its descriptor it is an address fault. -/
def pinwheelPlan (s : State) (p : Site) (h : OpHead) (a : PinwheelArgs) : Plan :=
  let c := s.core (Site.no p)
  let t := c.ctx p.guest
  match descAt c t.hdr a.desc.toNat with
  | none => { word := pinwheelWord h a, unit := some .pinwheel, fault := some 0x03 }
  | some (_, d) =>
    let g := groupTiles d.rotN
    { word := pinwheelWord h a, unit := some .pinwheel
      reads := [lsRange (t.line a.src * 256) (g * 4096 * Coding.sfmtBytes a.sfmt.toNat)]
      writes := [{ sp := .ls, lo := t.line a.dst, n := 64 * g }]
      regsR := [a.src.s.toNat, a.dst.s.toNat, a.tile.s.toNat], cost := 1500, units := g
      fault := pinwheelFault c t p.guest a d }
/-- PINWHEEL's effect: the rotated tiles and the counts (R84, R90). -/
def pinwheelRun (s : State) (p : Site) (line : Nat) (d : TDesc) (ls : List (List Word × Nat)) : State :=
  let g := groupTiles d.rotN
  (s.modCore (Site.no p) (fun c => { c with lmem := c.lmem.writeList (line * 256) (pinwheelBytes g ls) })).countAll
    (fun id => ckLayer id p d.layer d.axis)
    [(Ctr.pinwheelWindows, 4096 * g / Rot.winLen d.rotN), (Ctr.pinwheelOvf, (ls.map (fun l => l.2)).sum)]
/-- PINWHEEL (R85). -/
def execPinwheel (p : Site) (h : OpHead) (a : PinwheelArgs) (s : State) : Host.Outcome State Fault Refusal :=
  let c := s.core (Site.no p)
  let t := c.ctx p.guest
  .next (s.issue p h (pinwheelPlan s p h a) (fun s => match descAt c t.hdr a.desc.toNat with
    | none => s
    | some (_, d) => pinwheelRun s p (t.line a.dst) d (pinwheelLines c t a d (s.slot t.slot).seed c.step.toNat)))

end Sys2Proof.Machine
end

