-- ==== Sys2Proof/Machine/Dispatch.lean ====
section
/-! DEFINITION. One arm per command: a direct call of its meaning. -/

namespace Sys2Proof.Machine

def exec (i : Instr) (s : State) : Host.Outcome State Fault Refusal :=
  match i with
  | .powerOn straps smb => Sys2Proof.Machine.execPowerOn straps smb s
  | .stageRom memGood => Sys2Proof.Machine.execStageRom memGood s
  | .refclkTimeout => Sys2Proof.Machine.execRefclkTimeout s
  | .refclkArrival => Sys2Proof.Machine.execRefclkArrival s
  | .perstDeassert => Sys2Proof.Machine.execPerstDeassert s
  | .stageAuth answers => Sys2Proof.Machine.execStageAuth answers s
  | .stageIvr reg test => Sys2Proof.Machine.execStageIvr reg test s
  | .stageMem ports => Sys2Proof.Machine.execStageMem ports s
  | .stageLink locked => Sys2Proof.Machine.execStageLink locked s
  | .stageBist faulty => Sys2Proof.Machine.execStageBist faulty s
  | .stageParity lost => Sys2Proof.Machine.execStageParity lost s
  | .stageReady => Sys2Proof.Machine.execStageReady s
  | .brownOut => Sys2Proof.Machine.execBrownOut s
  | .overvoltage => Sys2Proof.Machine.execOvervoltage s
  | .memPwrGoodFall => Sys2Proof.Machine.execMemPwrGoodFall s
  | .moduleReset => Sys2Proof.Machine.execModuleReset s
  | .moduleResetWrite v => Sys2Proof.Machine.execModuleResetWrite v s
  | .hostPortReset kind => Sys2Proof.Machine.execHostPortReset kind s
  | .guestFunctionReset k => Sys2Proof.Machine.execGuestFunctionReset k s
  | .testReset => Sys2Proof.Machine.execTestReset s
  | .thermalTrip => Sys2Proof.Machine.execThermalTrip s
  | .nop p h => Sys2Proof.Machine.execNop p h s
  | .lsmov p h a => Sys2Proof.Machine.execLsmov p h a s
  | .lsmovFill p h a => Sys2Proof.Machine.execLsmovFill p h a s
  | .dload p h a => Sys2Proof.Machine.execDload p h a s
  | .dstore p h a => Sys2Proof.Machine.execDstore p h a s
  | .send p h a => Sys2Proof.Machine.execSend p h a s
  | .recv p h ch d l => Sys2Proof.Machine.execRecv p h ch d l s
  | .rfree p h ch => Sys2Proof.Machine.execRfree p h ch s
  | .fwd p h ch ep => Sys2Proof.Machine.execFwd p h ch ep s
  | .sync p h ep token count => Sys2Proof.Machine.execSync p h ep token count s
  | .wait p h timeout d => Sys2Proof.Machine.execWait p h timeout d s
  | .waitStep p h timeout d => Sys2Proof.Machine.execWaitStep p h timeout d s
  | .waitTimeout p => Sys2Proof.Machine.execWaitTimeout p s
  | .quant p h a => Sys2Proof.Machine.execQuant p h a s
  | .pinwheel p h a => Sys2Proof.Machine.execPinwheel p h a s
  | .matmul p h a => Sys2Proof.Machine.execMatmul p h a s
  | .wmatmul p h a => Sys2Proof.Machine.execWmatmul p h a s
  | .tap p h fn r => Sys2Proof.Machine.execTap p h fn r s
  | .max p h r => Sys2Proof.Machine.execMax p h r s
  | .min p h r => Sys2Proof.Machine.execMin p h r s
  | .maxabs p h r => Sys2Proof.Machine.execMaxabs p h r s
  | .sum p h r => Sys2Proof.Machine.execSum p h r s
  | .ssq p h r => Sys2Proof.Machine.execSsq p h r s
  | .norm p h r => Sys2Proof.Machine.execNorm p h r s
  | .countNf p h r => Sys2Proof.Machine.execCountNf p h r s
  | .tload p h v => Sys2Proof.Machine.execTload p h v s
  | .tstore p h v => Sys2Proof.Machine.execTstore p h v s
  | .tred p h v => Sys2Proof.Machine.execTred p h v s
  | .tbin p h v => Sys2Proof.Machine.execTbin p h v s
  | .iadd p h v => Sys2Proof.Machine.execIadd p h v s
  | .isub p h v => Sys2Proof.Machine.execIsub p h v s
  | .imul p h v => Sys2Proof.Machine.execImul p h v s
  | .imin p h v => Sys2Proof.Machine.execImin p h v s
  | .imax p h v => Sys2Proof.Machine.execImax p h v s
  | .iabs p h v => Sys2Proof.Machine.execIabs p h v s
  | .ineg p h v => Sys2Proof.Machine.execIneg p h v s
  | .icmpeq p h v => Sys2Proof.Machine.execIcmpeq p h v s
  | .icmplt p h v => Sys2Proof.Machine.execIcmplt p h v s
  | .shl p h v => Sys2Proof.Machine.execShl p h v s
  | .shr p h v => Sys2Proof.Machine.execShr p h v s
  | .sra p h v => Sys2Proof.Machine.execSra p h v s
  | .andOp p h v => Sys2Proof.Machine.execAndOp p h v s
  | .orOp p h v => Sys2Proof.Machine.execOrOp p h v s
  | .xorOp p h v => Sys2Proof.Machine.execXorOp p h v s
  | .andn p h v => Sys2Proof.Machine.execAndn p h v s
  | .sel p h v => Sys2Proof.Machine.execSel p h v s
  | .mov p h v => Sys2Proof.Machine.execMov p h v s
  | .fadd p h v => Sys2Proof.Machine.execFadd p h v s
  | .fsub p h v => Sys2Proof.Machine.execFsub p h v s
  | .fmul p h v => Sys2Proof.Machine.execFmul p h v s
  | .ffma p h v => Sys2Proof.Machine.execFfma p h v s
  | .fmin p h v => Sys2Proof.Machine.execFmin p h v s
  | .fmax p h v => Sys2Proof.Machine.execFmax p h v s
  | .fabs p h v => Sys2Proof.Machine.execFabs p h v s
  | .fneg p h v => Sys2Proof.Machine.execFneg p h v s
  | .fcmpeq p h v => Sys2Proof.Machine.execFcmpeq p h v s
  | .fcmplt p h v => Sys2Proof.Machine.execFcmplt p h v s
  | .fcmple p h v => Sys2Proof.Machine.execFcmple p h v s
  | .cvtF32I32 p h v => Sys2Proof.Machine.execCvtF32I32 p h v s
  | .cvtI32F32 p h v => Sys2Proof.Machine.execCvtI32F32 p h v s
  | .cvtToBf16 p h v => Sys2Proof.Machine.execCvtToBf16 p h v s
  | .cvtToFp16 p h v => Sys2Proof.Machine.execCvtToFp16 p h v s
  | .cvtToE5m2 p h v => Sys2Proof.Machine.execCvtToE5m2 p h v s
  | .cvtToE4m3 p h v => Sys2Proof.Machine.execCvtToE4m3 p h v s
  | .cvtFromBf16 p h v => Sys2Proof.Machine.execCvtFromBf16 p h v s
  | .cvtFromFp16 p h v => Sys2Proof.Machine.execCvtFromFp16 p h v s
  | .cvtFromE5m2 p h v => Sys2Proof.Machine.execCvtFromE5m2 p h v s
  | .cvtFromE4m3 p h v => Sys2Proof.Machine.execCvtFromE4m3 p h v s
  | .loop p h a => Sys2Proof.Machine.execLoop p h a s
  | .branch p h a => Sys2Proof.Machine.execBranch p h a s
  | .sets p h d imm => Sys2Proof.Machine.execSets p h d imm s
  | .adds p h a => Sys2Proof.Machine.execAdds p h a s
  | .sload p h d src word => Sys2Proof.Machine.execSload p h d src word s
  | .sloadSpecial p h d src word => Sys2Proof.Machine.execSloadSpecial p h d src word s
  | .sleep p h rung => Sys2Proof.Machine.execSleep p h rung s
  | .trap p h code next => Sys2Proof.Machine.execTrap p h code next s
  | .opComplete p unit => Sys2Proof.Machine.execOpComplete p unit s
  | .ringMessage m => Sys2Proof.Machine.execRingMessage m s
  | .tokenMessage m => Sys2Proof.Machine.execTokenMessage m s
  | .creditMessage m => Sys2Proof.Machine.execCreditMessage m s
  | .joinSegment m => Sys2Proof.Machine.execJoinSegment m s
  | .jigsawResend m => Sys2Proof.Machine.execJigsawResend m s
  | .jigsawResendTimeout p ch tile => Sys2Proof.Machine.execJigsawResendTimeout p ch tile s
  | .wideRequest m => Sys2Proof.Machine.execWideRequest m s
  | .guestEntry x y => Sys2Proof.Machine.execGuestEntry x y s
  | .guestPreempt x y cycles => Sys2Proof.Machine.execGuestPreempt x y cycles s
  | .coreGate x y => Sys2Proof.Machine.execCoreGate x y s
  | .coreWake x y => Sys2Proof.Machine.execCoreWake x y s
  | .coreDozeEntry x y => Sys2Proof.Machine.execCoreDozeEntry x y s
  | .coreNapEntry x y => Sys2Proof.Machine.execCoreNapEntry x y s
  | .dieGate die => Sys2Proof.Machine.execDieGate die s
  | .domainEnable kind index remain wake => Sys2Proof.Machine.execDomainEnable kind index remain wake s
  | .drainComplete kind index => Sys2Proof.Machine.execDrainComplete kind index s
  | .retireStepComplete kind index => Sys2Proof.Machine.execRetireStepComplete kind index s
  | .exitComplete kind index => Sys2Proof.Machine.execExitComplete kind index s
  | .budgetRefill die => Sys2Proof.Machine.execBudgetRefill die s
  | .budgetCorrection die measured base => Sys2Proof.Machine.execBudgetCorrection die measured base s
  | .thermalSensorRead die t => Sys2Proof.Machine.execThermalSensorRead die t s
  | .purseRefillRequest p => Sys2Proof.Machine.execPurseRefillRequest p s
  | .governorRound die => Sys2Proof.Machine.execGovernorRound die s
  | .governorWindow die => Sys2Proof.Machine.execGovernorWindow die s
  | .shadowTile p a => Sys2Proof.Machine.execShadowTile p a s
  | .bankClear x y => Sys2Proof.Machine.execBankClear x y s
  | .chestGrant => Sys2Proof.Machine.execChestGrant s
  | .chestRecall => Sys2Proof.Machine.execChestRecall s
  | .stepRelease => Sys2Proof.Machine.execStepRelease s
  | .tinSoldierSwap die bad => Sys2Proof.Machine.execTinSoldierSwap die bad s
  | .contributionReceive m => Sys2Proof.Machine.execContributionReceive m s
  | .contributionEnd dev agent => Sys2Proof.Machine.execContributionEnd dev agent s
  | .landCredit agent m => Sys2Proof.Machine.execLandCredit agent m s
  | .contribResend m => Sys2Proof.Machine.execContribResend m s
  | .sealSend => Sys2Proof.Machine.execSealSend s
  | .seal m => Sys2Proof.Machine.execSeal m s
  | .shardCommit layer shard w => Sys2Proof.Machine.execShardCommit layer shard w s
  | .firmwareEpochClose cause => Sys2Proof.Machine.execFirmwareEpochClose cause s
  | .coreFault x y => Sys2Proof.Machine.execCoreFault x y s
  | .moduleFault => Sys2Proof.Machine.execModuleFault s
  | .seamReplay die replays good => Sys2Proof.Machine.execSeamReplay die replays good s
  | .nextEpochIssue => Sys2Proof.Machine.execNextEpochIssue s
  | .epochPart m => Sys2Proof.Machine.execEpochPart m s
  | .jobLoadEpochTimeout => Sys2Proof.Machine.execJobLoadEpochTimeout s
  | .gatherReq m => Sys2Proof.Machine.execGatherReq m s
  | .gatherServe => Sys2Proof.Machine.execGatherServe s
  | .gatherReceive m => Sys2Proof.Machine.execGatherReceive m s
  | .bwdRelease m => Sys2Proof.Machine.execBwdRelease m s
  | .permuteEntryReceive m => Sys2Proof.Machine.execPermuteEntryReceive m s
  | .permuteDone m => Sys2Proof.Machine.execPermuteDone m s
  | .memberLost m => Sys2Proof.Machine.execMemberLost m s
  | .lostMemberTimeout dev => Sys2Proof.Machine.execLostMemberTimeout dev s
  | .takeover lost able => Sys2Proof.Machine.execTakeover lost able s
  | .stepRepair step copies => Sys2Proof.Machine.execStepRepair step copies s
  | .mirrorSend => Sys2Proof.Machine.execMirrorSend s
  | .mirrorUnitReceive m => Sys2Proof.Machine.execMirrorUnitReceive m s
  | .linkState m => Sys2Proof.Machine.execLinkState m s
  | .flitReceive port f => Sys2Proof.Machine.execFlitReceive port f s
  | .flitFlushTimeout pair ch => Sys2Proof.Machine.execFlitFlushTimeout pair ch s
  | .rungReq port rung => Sys2Proof.Machine.execRungReq port rung s
  | .rungAck port rung => Sys2Proof.Machine.execRungAck port rung s
  | .laneMap port index => Sys2Proof.Machine.execLaneMap port index s
  | .widthReq port width => Sys2Proof.Machine.execWidthReq port width s
  | .laneRetire port => Sys2Proof.Machine.execLaneRetire port s
  | .laneSpared port => Sys2Proof.Machine.execLaneSpared port s
  | .pairDown pair stalled => Sys2Proof.Machine.execPairDown pair stalled s
  | .portTrainingComplete port far => Sys2Proof.Machine.execPortTrainingComplete port far s
  | .portGate port => Sys2Proof.Machine.execPortGate port s
  | .memRead q ecc => Sys2Proof.Machine.execMemRead q ecc s
  | .memWrite q data => Sys2Proof.Machine.execMemWrite q data s
  | .stripeBufferTimeout grp row => Sys2Proof.Machine.execStripeBufferTimeout grp row s
  | .portOffline port cause => Sys2Proof.Machine.execPortOffline port cause s
  | .portRebuildComplete port => Sys2Proof.Machine.execPortRebuildComplete port s
  | .portThermalReturn port rate => Sys2Proof.Machine.execPortThermalReturn port rate s
  | .mr4Poll port report => Sys2Proof.Machine.execMr4Poll port report s
  | .patrolScrub port ch row find => Sys2Proof.Machine.execPatrolScrub port ch row find s
  | .lcQuotaWindow die => Sys2Proof.Machine.execLcQuotaWindow die s
  | .memPortGate port => Sys2Proof.Machine.execMemPortGate port s
  | .copy die chan bursts => Sys2Proof.Machine.execCopy die chan bursts s
  | .addF32 die chan bursts => Sys2Proof.Machine.execAddF32 die chan bursts s
  | .dmaSend die chan messages => Sys2Proof.Machine.execDmaSend die chan messages s
  | .dmaComplete die chan => Sys2Proof.Machine.execDmaComplete die chan s
  | .dmaNotice m => Sys2Proof.Machine.execDmaNotice m s
  | .cqHeadPoll die chan => Sys2Proof.Machine.execCqHeadPoll die chan s
  | .dmaChannelAbort die chan => Sys2Proof.Machine.execDmaChannelAbort die chan s
  | .arbRound r => Sys2Proof.Machine.execArbRound r s
  | .arbFreeze die inst all => Sys2Proof.Machine.execArbFreeze die inst all s
  | .arbUnfreeze die inst all => Sys2Proof.Machine.execArbUnfreeze die inst all s
  | .arbModeChange die inst all freeze parked => Sys2Proof.Machine.execArbModeChange die inst all freeze parked s
  | .ringEnable fn ring v => Sys2Proof.Machine.execRingEnable fn ring v s
  | .ringDisable fn ring v => Sys2Proof.Machine.execRingDisable fn ring v s
  | .ringBaseWrite fn ring reg v => Sys2Proof.Machine.execRingBaseWrite fn ring reg v s
  | .doorbell fn ring v => Sys2Proof.Machine.execDoorbell fn ring v s
  | .ringErrClear fn ring => Sys2Proof.Machine.execRingErrClear fn ring s
  | .commandFetch ring pcie => Sys2Proof.Machine.execCommandFetch ring pcie s
  | .irqCoalesce ring => Sys2Proof.Machine.execIrqCoalesce ring s
  | .eventFlush pcie => Sys2Proof.Machine.execEventFlush pcie s
  | .reconcileSweep => Sys2Proof.Machine.execReconcileSweep s
  | .nopCommand ring => Sys2Proof.Machine.execNopCommand ring s
  | .identify => Sys2Proof.Machine.execIdentify s
  | .linkConfig => Sys2Proof.Machine.execLinkConfig s
  | .partitionCreate => Sys2Proof.Machine.execPartitionCreate s
  | .partitionDestroy => Sys2Proof.Machine.execPartitionDestroy s
  | .scrubPartition => Sys2Proof.Machine.execScrubPartition s
  | .memPortSetOffline => Sys2Proof.Machine.execMemPortSetOffline s
  | .memPortSetReturn rate => Sys2Proof.Machine.execMemPortSetReturn rate s
  | .powerSet remain => Sys2Proof.Machine.execPowerSet remain s
  | .governorSet => Sys2Proof.Machine.execGovernorSet s
  | .telemetryRead ring => Sys2Proof.Machine.execTelemetryRead ring s
  | .telemetryReadClear ring => Sys2Proof.Machine.execTelemetryReadClear ring s
  | .jobLoad ring => Sys2Proof.Machine.execJobLoad ring s
  | .jobUnload ring => Sys2Proof.Machine.execJobUnload ring s
  | .jobMap ring => Sys2Proof.Machine.execJobMap ring s
  | .stateCopyIn ring => Sys2Proof.Machine.execStateCopyIn ring s
  | .stateCopyOut ring => Sys2Proof.Machine.execStateCopyOut ring s
  | .runStep => Sys2Proof.Machine.execRunStep s
  | .cancelSteps => Sys2Proof.Machine.execCancelSteps s
  | .layerMode ring => Sys2Proof.Machine.execLayerMode ring s
  | .fallbackPolicy ring => Sys2Proof.Machine.execFallbackPolicy ring s
  | .epochIssue => Sys2Proof.Machine.execEpochIssue s
  | .epochClose => Sys2Proof.Machine.execEpochClose s
  | .spareSet => Sys2Proof.Machine.execSpareSet s
  | .reshard => Sys2Proof.Machine.execReshard s
  | .journalRead => Sys2Proof.Machine.execJournalRead s
  | .replayStep => Sys2Proof.Machine.execReplayStep s
  | .rollbackRelease => Sys2Proof.Machine.execRollbackRelease s
  | .bar0UnsupportedRequest fn off len => Sys2Proof.Machine.execBar0UnsupportedRequest fn off len s
  | .registerWrite fn off v => Sys2Proof.Machine.execRegisterWrite fn off v s
  | .bar2WinWrite high v => Sys2Proof.Machine.execBar2WinWrite high v s
  | .bar2Read off len => Sys2Proof.Machine.execBar2Read off len s
  | .bar2Write off data => Sys2Proof.Machine.execBar2Write off data s
  | .ddmaEnable k v => Sys2Proof.Machine.execDdmaEnable k v s
  | .ddmaDisable k v => Sys2Proof.Machine.execDdmaDisable k v s
  | .ddmaAbort k v => Sys2Proof.Machine.execDdmaAbort k v s
  | .ddmaSubmit k v => Sys2Proof.Machine.execDdmaSubmit k v s
  | .fwuImageWrite slot => Sys2Proof.Machine.execFwuImageWrite slot s
  | .fwuRaise slot => Sys2Proof.Machine.execFwuRaise slot s
  | .debugRequest scope => Sys2Proof.Machine.execDebugRequest scope s
  | .debugRelease scope => Sys2Proof.Machine.execDebugRelease scope s
  | .sidebandRead die off => Sys2Proof.Machine.execSidebandRead die off s
  | .sidebandWrite die off => Sys2Proof.Machine.execSidebandWrite die off s
  | .jtagInstructionLoad die ins => Sys2Proof.Machine.execJtagInstructionLoad die ins s
  | .getHealth => Sys2Proof.Machine.execGetHealth s
  | .getTemps side => Sys2Proof.Machine.execGetTemps side s
  | .getPower mv ma w dies => Sys2Proof.Machine.execGetPower mv ma w dies s
  | .setPowerLimit w => Sys2Proof.Machine.execSetPowerLimit w s
  | .readBootStatus => Sys2Proof.Machine.execReadBootStatus s
  | .readStartLog off => Sys2Proof.Machine.execReadStartLog off s
  | .mctpModuleReset => Sys2Proof.Machine.execMctpModuleReset s
  | .getIdentity => Sys2Proof.Machine.execGetIdentity s
  | .powerLoss => Sys2Proof.Machine.execPowerLoss s
  | .crystalStart => Sys2Proof.Machine.execCrystalStart s
  | .refclkStop => Sys2Proof.Machine.execRefclkStop s
  | .tokenBucketFill die => Sys2Proof.Machine.execTokenBucketFill die s
  | .scrubDone part => Sys2Proof.Machine.execScrubDone part s
  | .fwuDone good => Sys2Proof.Machine.execFwuDone good s
  | .vfEnable k en => Sys2Proof.Machine.execVfEnable k en s
  | .bar2Resize log2 => Sys2Proof.Machine.execBar2Resize log2 s

end Sys2Proof.Machine
end

