-- ==== Sys2Proof/Machine/Tick.lean ====
section
/-! DEFINITION. What the block does when no command waits: one count of time (R344; log 1), and the waits that are counted in microseconds
(log 17). -/

namespace Sys2Proof.Machine

/-- What one idle step adds to TIME_US, in units of 2^-16 us (R344): 0 until the crystal's first tick, 1 us while the reference
runs, and 30.517578125 us, one crystal tick, while it is stopped. -/
def State.tickQ (s : State) : Nat :=
  if !s.boot.crystal then 0 else if s.boot.refclk then 65536 else 2000000

/-- The channels whose next work is a contribution that waits for a landing credit (R236), and the resends that wait for one. -/
def State.creditWaits (s : State) : Nat :=
  (s.dma.filter (fun e => (e.2.current).any (fun c => s.noCredit c.2))).length + (s.slot 0).resends.length
/-- The buckets that a request waits for, as die * 8 + partition (R300): none where it is let in or refused. -/
def State.shortOf (s : State) (q : MemReq) (wr : Bool) : List Nat :=
  match s.letIn q wr with
  | .waits _ => ([0, 1, 2, 3].map (fun d => d * 8 + devPart q.addr.toNat)).filter (fun k =>
      decide (SMap.get 0 s.mem.tokens k < min (s.mem.part (devPart q.addr.toNat)).bucketCap (reqCharge s.mem q.addr.toNat q.len wr (k / 8) * 64)))
  | _ => []
/-- The requests of a channel's next burst (R313, R314). -/
def DmaJob.requests (j : DmaJob) : List (MemReq × Bool) :=
  let n := min (256 - (j.desc.dst + j.done) % 256) (j.desc.len - j.done)
  let q (a : Nat) : MemReq := { who := j.who, addr := BitVec.ofNat 64 (a + j.done), len := n, tc := BitVec.ofNat 2 j.desc.tc }
  if !j.started || decide (2 ≤ j.desc.op) then []
  else (if windowOf j.desc.src = 0 then [(q j.desc.src, false)] else []) ++ (if windowOf j.desc.dst = 0 then [(q j.desc.dst, true)] else [])
/-- The partitions of each die that have a BULK request waiting for their bucket (R300), as die * 8 + partition. -/
def State.bulkWaits (s : State) : List Nat :=
  ((s.mem.waiting.map (fun w => (w.q, w.data.isSome)) ++ s.dma.flatMap (fun e => (e.2.current.map (fun c => c.2.requests)).getD [])).flatMap
    (fun r => s.shortOf r.1 r.2)).eraseDups
/-- The waits that are counted in microseconds, over `n` of them (R216, R236, R300): a grant that waits for chest tiles, contributions without a credit,
and partitions held by their regulator. -/
def State.waitCounts (s : State) (n : Nat) : State :=
  if n = 0 then s
  else
    let t := if s.grantWaits then s.count (ckChest Ctr.chestWaitUs) n else s
    let t := t.count (ckSlot Ctr.collCreditStall 0) (s.creditWaits * n)
    s.bulkWaits.foldl (fun (t : State) k => t.count { id := Ctr.bulkThrottleUs, die := some (16 + k / 8), unit := some (k % 8) } n) t

/-- The block with no command waiting: time passes, what waits is counted, rebuilds walk on, link ports end their width changes and the
link dies send what they can (R274, R292; log 94, log 96). -/
def State.tick (s : State) : State :=
  let q := s.timeQ + s.tickQ
  let n := q / 65536 - s.timeQ / 65536
  (({ s.waitCounts n with timeQ := q % 2 ^ 80 } : State).rebuildWork n).endWidths.linkWork

end Sys2Proof.Machine
end

