-- ==== Sys2Proof/Safety.lean ====
section
/-! DEFINITION. What counts as a safe state and a safe run: no command stops the block, BOOT_STATUS never shows a reserved value (R420),
every row map is one that R16 allows, and tables and memories keep their canonical form. -/

namespace Sys2Proof.Machine

/-- The block goes on: a step answers a next state. -/
def State.goesOn (s : State) : Prop := ∃ t, step s = .next t

/-- A state of the start-up registers that the spec allows (R411, R412, R420): no field of BOOT_STATUS holds a reserved value, CAUSE is 0
unless RESULT is FAILED, READY is stage 7 with LINK ended and an image running, an image runs from stage 3 on, and the host link is up
only while PERST# is deasserted. -/
def Boot.legal (b : Boot) : Prop :=
  b.stage ≤ 7 ∧ b.result ≤ 2 ∧ b.cause < 256 ∧ b.image ≤ 2 ∧ b.lastRst ≤ 3 ∧ (b.result ≠ 2 → b.cause = 0) ∧
    (b.result = 1 → b.stage = 7 ∧ b.linkEnded = true) ∧ (3 ≤ b.stage → b.image ≠ 0) ∧ (b.pcieUp = true → b.perst = false)

/-- A row map that R16 allows: the repaired column is one of 0 to 5 and 7 to 12. -/
def RowMap.legal : RowMap → Prop
  | .repaired f => f ≤ 12 ∧ f ≠ 6
  | _ => True

/-- The invariant of the always-on side: legal start-up registers and legal row maps. -/
def State.bootInv (s : State) : Prop := s.boot.legal ∧ ∀ e ∈ s.rows, e.2.legal

/-- The memories of the block in canonical form (log 4). -/
def State.canonical (s : State) : Bool :=
  s.mem.dram.wf && s.boot.flash.wf && s.mail.host.wf && s.cores.all (fun e => e.2.lmem.wf && e.2.oc.wf && e.2.ta.wf)

/-- An op issues and takes its effect now (R173, R174, R192, R350): its context runs and may issue, its tokens, ranges, table entries and unit
are free, its energy is there, and it ends with no fault. -/
def State.issues (s : State) (p : Site) (h : OpHead) (pl : Plan) : Bool :=
  decide ((s.ctx p).status = .running) && s.mayIssue p h pl && (issueFault (s.ctx p) h pl).isNone && pl.wait.isNone && s.energyOk p pl

/-- The command of a VEC op of each function of R134. -/
def vecInstr (fn : VecFn) : Site → OpHead → VecArgs → Instr :=
  match fn with
  | .iadd => .iadd | .isub => .isub | .imul => .imul | .imin => .imin
  | .imax => .imax | .iabs => .iabs | .ineg => .ineg | .icmpeq => .icmpeq
  | .icmplt => .icmplt | .shl => .shl | .shr => .shr | .sra => .sra
  | .and => .andOp | .or => .orOp | .xor => .xorOp | .andn => .andn
  | .sel => .sel | .mov => .mov | .fadd => .fadd | .fsub => .fsub
  | .fmul => .fmul | .ffma => .ffma | .fmin => .fmin | .fmax => .fmax
  | .fabs => .fabs | .fneg => .fneg | .fcmpeq => .fcmpeq | .fcmplt => .fcmplt
  | .fcmple => .fcmple | .cvtF32I32 => .cvtF32I32 | .cvtI32F32 => .cvtI32F32 | .cvtToBf16 => .cvtToBf16
  | .cvtToFp16 => .cvtToFp16 | .cvtToE5m2 => .cvtToE5m2 | .cvtToE4m3 => .cvtToE4m3 | .cvtFromBf16 => .cvtFromBf16
  | .cvtFromFp16 => .cvtFromFp16 | .cvtFromE5m2 => .cvtFromE5m2 | .cvtFromE4m3 => .cvtFromE4m3

/-- The command of a RED op of each function of R143. -/
def redInstr (fn : RedFn) : Site → OpHead → RedArgs → Instr :=
  match fn with
  | .max => .max | .min => .min | .maxabs => .maxabs | .sum => .sum
  | .ssq => .ssq | .norm => .norm | .countNf => .countNf

/-- Whether an FP32 pattern is a NaN, by its bits (R48). -/
def nanWord (a : Word) : Bool := decide (0x7F800000 < a.toNat % 2 ^ 31)
/-- Whether an FP32 pattern is an infinity. -/
def infWord (a : Word) : Bool := decide (a.toNat % 2 ^ 31 = 0x7F800000)
/-- The place of an FP32 pattern in the order of R136, in which -0.0 lies below +0.0. -/
def fpOrder (a : Word) : Int := if a.msb then -(a.toNat % 2 ^ 31 : Nat) - 1 else a.toNat

/-- A core but its two contexts and the note of the bank slots that were read while they held a non-finite value (R130): its memories,
queues and marks. -/
def Core.rest (c : Core) : Core := { c with main := {}, guest := {}, bankNf := [] }

/-- What an op of a context that touches no state outside its core leaves of `s`: every other core, the core's other context, every job slot
but slot 0's NF_STEP, which a read of a non-finite bank slot sets (R226), and everything beside the cores, the governors, the slots and the
counters. -/
def State.opFrame (t s : State) (p : Site) : Prop :=
  (∀ no, no ≠ Site.no p → t.core no = s.core no) ∧ (t.core (Site.no p)).ctx (!p.guest) = (s.core (Site.no p)).ctx (!p.guest) ∧
    (∀ k, k ≠ 0 → t.slot k = s.slot k) ∧ t.slot 0 = { s.slot 0 with nf := (t.slot 0).nf } ∧
    ((s.slot 0).nf = true → (t.slot 0).nf = true) ∧
    { t with cores := s.cores, govs := s.govs, counters := s.counters, slots := s.slots } = s

/-- The context after an op's ST token has risen, where the op has one (R174). -/
def Ctx.raised (t : Ctx) (tok : Option Nat) : Ctx :=
  match tok with
  | some k => t.setToken k (t.token k + 1)
  | none => t

/-- Whether a WAIT of tokens with a timeout holds a context (R180). -/
def Ctx.held (t : Ctx) : Bool :=
  match t.status with
  | .waitTok _ timeout _ _ => decide (timeout ≠ 0#32)
  | _ => false

/-- Whether a context that moves on from its position stays inside its routine (R181). -/
def Ctx.staysIn (t : Ctx) : Bool := decide ((t.goto (t.pos + 1)).pos < t.hdr.nOps)

/-- What a register-only op leaves (R176): its context as `f` makes it of the one that the issue left, moved on by one op; every memory of the
core, and all that `opFrame` names. -/
def State.stepsCtx (t s : State) (p : Site) (h : OpHead) (pl : Plan) (f : Ctx → Ctx) : Prop :=
  t.ctx p = (f ((s.issued p h pl).ctx p)).goto ((s.ctx p).pos + 1) ∧ (t.core (Site.no p)).rest = (s.core (Site.no p)).rest ∧
    t.opFrame s p

/-- A message that its core takes up in a context (R184, R185): for a core of this module whose clocks run, the next of its flow, on a path that is awake, with a good
HCHECK, its slot bound to the context and loaded, and slot 0 not quiesced. -/
def State.takes (s : State) (m : Msg) (p : Site) : Prop :=
  m.destDev = s.modId ∧ p.x.val = m.destX.toNat ∧ p.y.val = m.destY.toNat ∧ s.coreActive (Site.no p) = true ∧
    s.inOrder m = true ∧ s.pathAwake (s.entryCore m) (msgGoal m) = true ∧ ¬ (m.slot = 0#2 ∧ (s.slot 0).quiesced = true) ∧ m.hcheck = headerCheck m ∧ s.boundCtx (Site.no p) m.slot.toNat = some p.guest

/-- A message that the agents or the firmware of this module take up (R235, R272, R386): for this module, or a broadcast of another, at the
agents' address, the next of its flow and with a good HCHECK. -/
def State.agentTakes (s : State) (m : Msg) : Prop :=
  (if isBroadcast m then m.srcDev ≠ s.modId else m.destDev = s.modId) ∧ m.destX = 0x3F#6 ∧ m.destY = 0x3F#6 ∧ s.inOrder m = true ∧
    m.hcheck = headerCheck m

/-- A BULK request of a partition without BULK meter that is served at once (R296, R300, R305, R332): admitted, with the ports and dies awake, the
schedulers running, and, for a read, every granule in service. -/
def State.serves (s : State) (who : Requester) (a n : Nat) (wr : Bool) : Prop :=
  s.admits { who := who, addr := BitVec.ofNat 64 a, len := n, tc := 2#2 } = true ∧ (s.mem.part (devPart a)).bulkRate = 0 ∧
    (∀ k ∈ reqDomains s.mem a n wr, s.awake k = true) ∧
    (∀ l ∈ reqLocs s.mem a n, s.frozen (16 + l.die) (granPort l.gran % 12) = false ∧ (wr = false → s.mem.lost l.gran = false))

/-- Another member whose SEAL is still missing (R245): while there is one, no step is decided. -/
def Slot.waitsForSeal (x : Slot) (me dev : Nat) : Prop :=
  dev ∈ x.epoch.members ∧ dev ≠ me ∧ dev ∉ x.lostSeen ∧ ∀ e ∈ x.seals, e.1 ≠ dev

/-- The start-up counters of a state (R424), which every reset but a power-on keeps. -/
def startCounters (s : State) : List (CKey × Nat) := s.counters.filter (fun e => decide (e.1.id / 256 = 0x11))

/-- What a reset that clears dies leaves of `s` (R423): no slot, core, DMA, ring, command, partition or journal, memory as at reset, the row
maps plain; TIME_US, the pins, the fuses and the flash as they were. -/
def State.clearedDies (t s : State) : Prop :=
  t.slots = [] ∧ t.cores = [] ∧ t.dma = [] ∧ t.mail.rings = [] ∧ t.mail.cmds = [] ∧ t.mem = {} ∧ t.journal = {} ∧ t.chest = {} ∧
    t.rows = [] ∧ t.domains = [] ∧ t.wire = [] ∧ t.timeQ = s.timeQ ∧ t.boot.aon = s.boot.aon ∧ t.boot.perst = s.boot.perst ∧
    t.boot.flash = s.boot.flash ∧ t.boot.antiRollback = s.boot.antiRollback ∧ t.boot.keyRevoked = s.boot.keyRevoked ∧
    t.boot.dbgRevoked = s.boot.dbgRevoked ∧ t.boot.dbgLock = s.boot.dbgLock

/-- What a module reset leaves of `s` (R423): the dies cleared, start-up again at stage ROM with LAST_RST 1, counted, and the PLL, the host
link and the trip record kept. -/
def State.restarted (t s : State) : Prop :=
  t.clearedDies s ∧ t.boot.stage = 1 ∧ t.boot.result = 0 ∧ t.boot.lastRst = 1 ∧ t.boot.image = 0 ∧ t.boot.pll = s.boot.pll ∧
    t.boot.pcieUp = s.boot.pcieUp ∧ t.boot.trip = s.boot.trip ∧ t.counters = ctrAdd (startCounters s) { id := Ctr.startCount } 1

end Sys2Proof.Machine
end

