-- ==== Sys2Proof/Certificates/Slice0/Obligations.lean ====
section
/-! DEFINITION. What is claimed of the model, one proposition each, from the numbered rules of spec/. -/

open Sys2Proof Sys2Proof.Machine

/-- The queue: a step runs the command at the front with the queue's rest. For every command c, every rest of the queue and every state s:
the step of s with c in front of that rest is exec of c on s with that rest as its queue. On an empty queue a step answers a next state
whose queue is empty and whose time count has gone on by one count: none before the crystal's first tick, 1 us while the reference runs and
one crystal tick while it is stopped, modulo 2^80 counts of 2^-16 us. What the idle step does is the model's own rule (log 1). A block has
no fetch; the queue is the form in which the model takes commands. -/
def Obligations.StepRunsTheFrontCommand : Prop :=
  (∀ (c : Instr) (rest : List Instr) (s : State), step { s with pending := c :: rest } = exec c { s with pending := rest }) ∧
  (∀ s : State, s.pending = [] → ∃ t, step s = .next t ∧ t.pending = [] ∧ t.timeQ = (s.timeQ +
    (if s.boot.crystal = false then 0 else if s.boot.refclk = true then 65536 else 2000000)) % 2 ^ 80)

/-- Every command completes and leaves the queue alone. For every command c of the table, with every operand, and every state s, reachable
or not: exec of c on s answers a next state, never a fault or a refusal, and that state's queue is the queue of s. What the next state holds
is said command by command in the other statements. -/
def Obligations.EveryCommandCompletes : Prop :=
  ∀ (c : Instr) (s : State), ∃ t, exec c s = .next t ∧ t.pending = s.pending

/-- Power, crystal, reference and PERST#. POWER_ON on an unpowered always-on domain starts it with LAST_RST 0 (power-on), stage OFF, RESULT
RUNNING, no image, no trip recorded, the pins as given, every counter 0 but START_COUNT, which is 1, and TIME_US 0; no slot is loaded, no
core holds anything, every row map is plain, and the flash and the fuses stay. On a powered domain it changes nothing. POWER_LOSS ends in a
state with the domain and its rails unpowered, every counter 0, no slot loaded, no core holding anything, and the flash, the fuses and the
queue as they were. CRYSTAL_START starts the crystal of a powered domain, and changes nothing else or of an unpowered one. REFCLK_STOP stops
the reference and the PLL when REFCLK_REQ is released, and changes nothing while it is not. PERST_DEASSERT releases the pin and brings the
host link up exactly when the PLL runs and stage ROM has been entered, and changes nothing else. -/
def Obligations.PowerAndReferenceComplete : Prop :=
  (∀ (s : State) (straps : BitVec 14) (smb : BitVec 7), s.boot.aon = false →
    ∃ t, exec (.powerOn straps smb) s = .next t ∧ t.boot.aon = true ∧ t.boot.stage = 0 ∧ t.boot.result = 0 ∧ t.boot.image = 0 ∧
      t.boot.lastRst = 0 ∧ t.boot.trip = false ∧ t.boot.straps = straps ∧ t.boot.smbPins = smb ∧
      t.counters = [({ id := Ctr.startCount }, 1)] ∧ t.timeUs = 0 ∧ t.slots = [] ∧ t.cores = [] ∧ t.rows = [] ∧
      t.boot.flash = s.boot.flash ∧ t.boot.antiRollback = s.boot.antiRollback ∧ t.boot.keyRevoked = s.boot.keyRevoked ∧
      t.boot.dbgRevoked = s.boot.dbgRevoked ∧ t.boot.dbgLock = s.boot.dbgLock) ∧
  (∀ (s : State) (straps : BitVec 14) (smb : BitVec 7), s.boot.aon = true → exec (.powerOn straps smb) s = .next s) ∧
  (∀ s : State, ∃ t, exec .powerLoss s = .next t ∧ t.boot.aon = false ∧ t.boot.stage = 0 ∧ t.boot.rails = false ∧ t.counters = [] ∧
    t.slots = [] ∧ t.cores = [] ∧ t.pending = s.pending ∧ t.boot.flash = s.boot.flash ∧ t.boot.antiRollback = s.boot.antiRollback ∧
    t.boot.keyRevoked = s.boot.keyRevoked ∧ t.boot.dbgRevoked = s.boot.dbgRevoked ∧ t.boot.dbgLock = s.boot.dbgLock) ∧
  (∀ s : State, (s.boot.aon = true → exec .crystalStart s = .next { s with boot := { s.boot with crystal := true } }) ∧
    (s.boot.aon = false → exec .crystalStart s = .next s)) ∧
  (∀ s : State, (s.boot.refReq = false → exec .refclkStop s = .next { s with boot := { s.boot with refclk := false, pll := false } }) ∧
    (s.boot.refReq = true → exec .refclkStop s = .next s)) ∧
  (∀ s : State, exec .perstDeassert s =
    .next { s with boot := { s.boot with perst := false, pcieUp := s.boot.pll && decide (1 ≤ s.boot.stage) } })

/-- Stage ROM waits for the reference and resumes when it arrives. STAGE_ROM from an always-on domain at stage OFF (after a fall of
MEM_PWR_GOOD only with that pin high again) enters stage 1 with RESULT RUNNING and CAUSE 0 and raises REFCLK_REQ; the module id is the
straps; in every other state it changes nothing. With no reference, REFCLK_TIMEOUT in stage ROM sets RESULT FAILED with CAUSE 0x01, stays at
the stage, counts nothing and leaves REFCLK_REQ as it was, the dies but the hub are OFF and the packages in self-refresh; in every other
state it changes nothing. REFCLK_ARRIVAL in stage ROM with REFCLK_REQ high locks the PLL and sets RESULT RUNNING with CAUSE 0, whatever the
timeout had set, and the host link is up exactly when PERST# is deasserted; with REFCLK_REQ low it changes nothing. Until READY, a write of
any BAR0 register but BOOT_STATUS changes nothing, and a read of any BAR0 register but BOOT_STATUS and START_LOG gives 0. -/
def Obligations.ReferenceWaitResumes : Prop :=
  (∀ (s : State) (g : Bool),
    (s.boot.aon = true → s.boot.stage = 0 → (s.boot.memFell = true → g = true) →
      ∃ t, exec (.stageRom g) s = .next t ∧ t.boot.stage = 1 ∧ t.boot.result = 0 ∧ t.boot.cause = 0 ∧ t.boot.refReq = true ∧
        t.boot.memPwrGood = g ∧ t.modId = s.boot.straps ∧ t.boot.pll = s.boot.pll) ∧
    (s.boot.aon = false ∨ s.boot.stage ≠ 0 ∨ (s.boot.memFell = true ∧ g = false) → exec (.stageRom g) s = .next s)) ∧
  (∀ s : State,
    (s.boot.stage = 1 → s.boot.result = 0 → s.boot.pll = false →
      ∃ t, exec .refclkTimeout s = .next t ∧ t.boot.stage = 1 ∧ t.boot.result = 2 ∧ t.boot.cause = 1 ∧ t.boot.refReq = s.boot.refReq ∧
        t.counters = s.counters ∧ t.boot.selfRefresh = true ∧ (∀ d, d < 24 → (t.domain (dieKey d)).rung = 6)) ∧
    (¬ (s.boot.stage = 1 ∧ s.boot.result = 0 ∧ s.boot.pll = false) → exec .refclkTimeout s = .next s)) ∧
  (∀ s : State,
    (s.boot.refReq = true → s.boot.stage = 1 → s.boot.pll = false →
      exec .refclkArrival s = .next { s with boot := { s.boot with
        refclk := true, pll := true, result := 0, cause := 0, pcieUp := !s.boot.perst } }) ∧
    (s.boot.refReq = false → exec .refclkArrival s = .next s)) ∧
  (∀ (s : State) (fn : Fin 4) (off : BitVec 26) (v : Word), s.boot.result ≠ 1 → ¬ (fn = 0 ∧ off = 8#26) →
    exec (.registerWrite fn off v) s = .next s) ∧
  (∀ (s : State) (fn : Nat) (off : Nat), s.boot.result ≠ 1 → ¬ (fn = 0 ∧ (off = 8 ∨ (0x100 ≤ off ∧ off < 0x200))) →
    s.bar0Read fn off = 0)

/-- The stages of start-up, each from the end of the one before. STAGE_AUTH with a flash that answers takes image A when its checks pass,
image B when A fails and B passes (IMAGE_FALLBACK is then counted), and enters stage 2 with the image and its versions. STAGE_IVR with every
regulator and self-test good enters stage 3, every die ACTIVE and every compute die's core clock at 1,000 MHz. STAGE_MEM with every port
trained, every package of one density and the memory power good enters stage 4 out of self-refresh with the ports in service. STAGE_LINK in
stages 4 to 6 ends LINK. STAGE_BIST with no faulty core enters stage 5 with every row plain. STAGE_PARITY with no port lost and none away
enters stage 6 with partition 0 owned by firmware (OWNER 4, 16 groups, BASE_ROW 0, ROWS 24,576), no other memory contents and no damaged
granule. STAGE_READY with PARITY and LINK ended enters stage 7 with RESULT READY. A stage command changes nothing unless the stage before it
has ended with RESULT RUNNING and the PLL running (STAGE_LINK: in stages 4 to 6, once). -/
def Obligations.StagesAdvance : Prop :=
  (∀ (s : State) (cause : Nat → Option Nat), s.atStage 1 = true →
    cause = (fun k => imageCause { s.boot with stage := 2 } (fun a => s.boot.flash.read (flashBase k + a))) →
    ∃ t, exec (.stageAuth true) s = .next t ∧ t.boot.stage = 2 ∧
      (cause 0 = none → t.boot.result = 0 ∧ t.boot.image = 1 ∧ t.counters = s.counters ∧
        t.boot.logFwVersion = rdLE (fun a => s.boot.flash.read (flashBase 0 + a)) 8 2 ∧
        t.boot.logSecVersion = rdLE (fun a => s.boot.flash.read (flashBase 0 + a)) 0x0A 2) ∧
      (cause 0 ≠ none → cause 1 = none → t.boot.result = 0 ∧ t.boot.image = 2 ∧
        t.counters = ctrAdd s.counters { id := Ctr.imageFallback } 1 ∧
        t.boot.logFwVersion = rdLE (fun a => s.boot.flash.read (flashBase 1 + a)) 8 2 ∧
        t.boot.logSecVersion = rdLE (fun a => s.boot.flash.read (flashBase 1 + a)) 0x0A 2)) ∧
  (∀ (s : State), s.atStage 2 = true → s.boot.image ≠ 0 →
    ∃ t, exec (.stageIvr (BitVec.allOnes 25) (BitVec.allOnes 25)) s = .next t ∧ t.boot.stage = 3 ∧ t.boot.result = 0 ∧
      (∀ d, d < 24 → (t.domain (dieKey d)).rung = 0) ∧ (∀ d, d < 16 → (t.gov d).clock = 1000)) ∧
  (∀ (s : State) (ports : List MemTrain) (dens : BitVec 8), s.atStage 3 = true → s.boot.memPwrGood = true → dens.toNat ≤ 1 →
    (∀ p, p < 48 → (memPort ports p).rate.isSome = true ∧ (memPort ports p).density = dens) →
    ∃ t, exec (.stageMem ports) s = .next t ∧ t.boot.stage = 4 ∧ t.boot.result = 0 ∧ t.boot.selfRefresh = false ∧
      (∀ p, p < 48 → (t.mem.port p).st = 0 ∧ some (t.mem.port p).rate = (memPort ports p).rate.map (fun r => r.toNat))) ∧
  (∀ (s : State) (locked : BitVec 16), s.boot.result = 0 → 4 ≤ s.boot.stage → s.boot.stage ≤ 6 → s.boot.linkEnded = false →
    ∃ t, exec (.stageLink locked) s = .next t ∧ t.boot.linkEnded = true ∧ t.boot.stage = s.boot.stage ∧ t.boot.result = 0 ∧
      ∀ q, q < 16 → (t.lport q).locked = locked.getLsbD q) ∧
  (∀ s : State, s.atStage 4 = true →
    ∃ t, exec (.stageBist []) s = .next t ∧ t.boot.stage = 5 ∧ t.boot.result = 0 ∧
      ∀ j, j < 192 → SMap.get .plain t.rows j = .plain) ∧
  (∀ s : State, s.atStage 5 = true → (∀ p, p < 48 → (s.mem.port p).away = false) →
    ∃ t, exec (.stageParity []) s = .next t ∧ t.boot.stage = 6 ∧ t.boot.result = 0 ∧ t.mem.dram = { cells := [] } ∧ t.mem.bad = [] ∧
      t.mem.part 0 = { owner := 4, valid := true, groups := 0xFFFF, baseRow := 0, rows := 24576 }) ∧
  (∀ s : State, s.atStage 6 = true → s.boot.linkEnded = true →
    ∃ t, exec .stageReady s = .next t ∧ t.boot.stage = 7 ∧ t.boot.result = 1) ∧
  (∀ (s : State) (answers : Bool) (reg test : BitVec 25) (ports : List MemTrain) (locked : BitVec 16) (faulty : List (Fin 192 × Fin 13))
      (lost : List (Fin 48 × BitVec 8)),
    (s.atStage 1 = false → exec (.stageAuth answers) s = .next s) ∧
    (s.atStage 2 = false ∨ s.boot.image = 0 → exec (.stageIvr reg test) s = .next s) ∧
    (s.atStage 3 = false → exec (.stageMem ports) s = .next s) ∧
    (s.boot.result ≠ 0 ∨ s.boot.stage < 4 ∨ 6 < s.boot.stage ∨ s.boot.linkEnded = true → exec (.stageLink locked) s = .next s) ∧
    (s.atStage 4 = false → exec (.stageBist faulty) s = .next s) ∧ (s.atStage 5 = false → exec (.stageParity lost) s = .next s) ∧
    (s.atStage 6 = false ∨ s.boot.linkEnded = false → exec .stageReady s = .next s))

/-- A failed start-up stays at its stage with its cause. For every state and every cause: a start-up that fails stays at its stage with
RESULT FAILED and that CAUSE, every die other than the hub is OFF, the memory packages are in self-refresh, the host link stays as it was,
and START_FAIL is counted; the wait of cause 0x01 leaves the same state but counts nothing. The stages end in it: STAGE_AUTH when the
flash does not answer (0x12), or with the cause of slot B when both slots fail; STAGE_IVR with a regulator that misses (0x20) or, the
regulators good, a self-test that fails in the first group (0x21); STAGE_BIST with a row of two faulty columns beside the spare (0x40). A
failed start-up takes no further stage: each of the seven stage commands then changes nothing. -/
def Obligations.FailedStartUpStays : Prop :=
  (∀ (s : State) (c : Nat),
    (s.failStart c).boot.stage = s.boot.stage ∧ (s.failStart c).boot.result = 2 ∧ (s.failStart c).boot.cause = c ∧
      (s.failStart c).boot.selfRefresh = true ∧ (s.failStart c).boot.pcieUp = s.boot.pcieUp ∧
      (∀ d, d < 24 → ((s.failStart c).domain (dieKey d)).rung = 6) ∧ (s.failStart c).domain (dieKey 24) = s.domain (dieKey 24) ∧
      (s.failStart c).counters = ctrAdd s.counters { id := Ctr.startFail } 1 ∧ (s.failAt c).counters = s.counters ∧
      (s.failAt c).boot = (s.failStart c).boot ∧ (s.failAt c).domains = (s.failStart c).domains) ∧
  (∀ s : State, s.atStage 1 = true →
    ∃ u : State, exec (.stageAuth false) s = .next (u.failStart 0x12) ∧ u.boot.stage = 2 ∧ u.boot.result = 0) ∧
  (∀ (s : State) (a b : Nat), s.atStage 1 = true →
    imageCause { s.boot with stage := 2 } (fun i => s.boot.flash.read (flashBase 0 + i)) = some a →
    imageCause { s.boot with stage := 2 } (fun i => s.boot.flash.read (flashBase 1 + i)) = some b →
    ∃ u : State, exec (.stageAuth true) s = .next (u.failStart b) ∧ u.boot.stage = 2 ∧ u.boot.result = 0) ∧
  (∀ (s : State) (test : BitVec 25), s.atStage 2 = true → s.boot.image ≠ 0 →
    ∃ u : State, exec (.stageIvr 0#25 test) s = .next (u.failStart 0x20) ∧ u.boot.stage = 3 ∧ u.boot.result = 0) ∧
  (∀ (s : State), s.atStage 2 = true → s.boot.image ≠ 0 →
    ∃ u : State, exec (.stageIvr (BitVec.allOnes 25) 0#25) s = .next (u.failStart 0x21) ∧ u.boot.stage = 3 ∧ u.boot.result = 0) ∧
  (∀ (s : State) (j : Fin 192) (a b : Fin 13), s.atStage 4 = true → a ≠ b → a ≠ 6 → b ≠ 6 →
    ∃ u : State, exec (.stageBist [(j, a), (j, b)]) s = .next (u.failStart 0x40) ∧ u.boot.stage = 5 ∧ u.boot.result = 0) ∧
  (∀ s : State, s.boot.result = 2 → s.boot.stage ≠ 0 → ∀ answers reg test ports locked faulty lost,
    exec (.stageAuth answers) s = .next s ∧ exec (.stageIvr reg test) s = .next s ∧ exec (.stageMem ports) s = .next s ∧
      exec (.stageLink locked) s = .next s ∧ exec (.stageBist faulty) s = .next s ∧ exec (.stageParity lost) s = .next s ∧
      exec .stageReady s = .next s)

/-- What the resets of the dies clear and keep. With the rails up, BROWN_OUT and OVERVOLTAGE stop every regulator with LAST_RST 2, keep TRIP
and count BROWN_OUTS; MEM_PWR_GOOD_FALL does the same after stage MEM and records the fall; THERMAL_TRIP stops them with LAST_RST 3, sets
TRIP, drives THERMTRIP# low and counts THERMAL_TRIPS. MODULE_RESET, the host's write of 0xB007 after READY with the link up and the MCTP
command from a running ROM or firmware restart at stage ROM with LAST_RST 1, counted as a start, keeping TRIP, the PLL and the host link.
All of these leave no slot, core, DMA channel, ring, command, journal or chest contents, device memory and its partitions as at reset, and
keep TIME_US, the pins, the fuses and the flash; of the counters only the start-up counters stay. With the rails down BROWN_OUT,
OVERVOLTAGE, THERMAL_TRIP and MODULE_RESET change nothing, MEM_PWR_GOOD_FALL (and before stage MEM) only notes the pin; a write of another
key, before READY or with the link down changes nothing. -/
def Obligations.ResetsClearAndKeep : Prop :=
  (∀ s : State, s.boot.rails = true →
    (∃ t, exec .brownOut s = .next t ∧ t.clearedDies s ∧ t.boot.lastRst = 2 ∧ t.boot.rails = false ∧ t.boot.trip = s.boot.trip ∧
      t.counters = ctrAdd (startCounters s) { id := Ctr.brownOuts } 1) ∧
    (∃ t, exec .overvoltage s = .next t ∧ t.clearedDies s ∧ t.boot.lastRst = 2 ∧ t.boot.rails = false ∧ t.boot.trip = s.boot.trip ∧
      t.counters = ctrAdd (startCounters s) { id := Ctr.brownOuts } 1) ∧
    (4 ≤ s.boot.stage → ∃ t, exec .memPwrGoodFall s = .next t ∧ t.clearedDies s ∧ t.boot.lastRst = 2 ∧ t.boot.rails = false ∧
      t.boot.trip = s.boot.trip ∧ t.boot.memFell = true ∧ t.boot.memPwrGood = false ∧
      t.counters = ctrAdd (startCounters s) { id := Ctr.brownOuts } 1) ∧
    (∃ t, exec .thermalTrip s = .next t ∧ t.clearedDies s ∧ t.boot.lastRst = 3 ∧ t.boot.rails = false ∧ t.boot.trip = true ∧
      t.boot.thermTripN = false ∧ t.counters = ctrAdd (startCounters s) { id := Ctr.thermalTrips } 1) ∧
    (∃ t, exec .moduleReset s = .next t ∧ t.restarted s) ∧
    (∀ v : Word, s.boot.result = 1 → s.boot.pcieUp = true → v.toNat % 65536 = 0xB007 →
      ∃ t, exec (.moduleResetWrite v) s = .next t ∧ t.restarted s) ∧
    (s.boot.aon = true → 1 ≤ s.boot.stage → ∃ t, exec .mctpModuleReset s = .next t ∧ t.restarted s ∧ t.host.mctp = [0#8])) ∧
  (∀ s : State, s.boot.rails = false ∨ s.boot.stage < 4 →
    exec .memPwrGoodFall s = .next { s with boot := { s.boot with memPwrGood := false } }) ∧
  (∀ s : State, s.boot.rails = false → exec .brownOut s = .next s ∧ exec .overvoltage s = .next s ∧ exec .thermalTrip s = .next s ∧
    exec .moduleReset s = .next s ∧ exec .mctpModuleReset s = .next s ∧ ∀ v, exec (.moduleResetWrite v) s = .next s) ∧
  (∀ (s : State) (v : Word), s.boot.result ≠ 1 ∨ s.boot.pcieUp = false ∨ v.toNat % 65536 ≠ 0xB007 → exec (.moduleResetWrite v) s = .next s)

/-- Every step keeps the start-up registers and the row maps legal. From every state, reachable or not, whose start-up registers and row
maps are legal, every step ends in one whose are: STAGE at most 7, RESULT at most 2, CAUSE 0 unless RESULT is FAILED, IMAGE at most 2,
LAST_RST at most 3, READY only at stage 7 with LINK ended, an image running from stage 3 on, the host link up only with PERST# deasserted,
and every repaired row at one of the columns 0 to 5 and 7 to 12. It covers all 256 commands and the idle step. -/
def Obligations.EveryStepKeepsBootInv : Prop :=
  ∀ s t : State, s.bootInv → step s = .next t → t.bootInv

/-- The reset state is legal, idle, empty and canonical. State.reset meets the invariant of the start-up registers and row maps, its
memories are in canonical form, its queue is empty, no slot is loaded, BOOT_STATUS reads 0, PERST# is asserted and the host link is down.
What the registers hold before power reaches the module is the model's own choice where the spec states no reset value (log 3). -/
def Obligations.ResetIsLegal : Prop :=
  State.reset.bootInv ∧ State.reset.canonical = true ∧ State.reset.pending = [] ∧ (∀ k, (State.reset.slot k).st = .empty) ∧
    State.reset.boot.status = 0 ∧ State.reset.boot.perst = true ∧ State.reset.boot.pcieUp = false

/-- What the issue of an op takes, and what an op that does not issue leaves. NOP on a context that may issue answers the state its issue
leaves, moved on by one op. The issue of any op takes 1 from each token of WMASK (an op that keeps its WMASK for itself takes none), adds 1
to TOK when the op has ST and no unit (it completes at issue), puts an op with a unit in flight with its ranges, its token and its offset,
takes the charge from the purse (but for a main COMM op, which the floor account pays), and leaves the registers, the loops, the position,
every other core, the other context, and of its core everything beside its contexts and the note of bank slots read; of the job slots only
slot 0's NF_STEP may be set, and nothing of them by an op that reads no line. A context that is idle, trapped or faulted takes no op up:
nothing changes. A running one whose tokens, ranges, unit or slot are not ready keeps the op as its next and counts ISSUE_STALL, and
MAIN_IDLE_CYCLES for a main context with nothing in flight; one whose purse is short also notes the charge it lacks; neither changes
anything else of the core or the slots. A reserved bit set in the op word stops the context with an opcode fault before any token is taken
or memory written. -/
def Obligations.IssueTakesTokensAndEnergy : Prop :=
  (∀ (s : State) (p : Site) (h : OpHead), s.issues p h (nopPlan h) = true → (s.ctx p).staysIn = true →
    ∃ t, exec (.nop p h) s = .next t ∧ t.stepsCtx s p h (nopPlan h) id) ∧
  (∀ (s : State) (p : Site) (h : OpHead) (pl : Plan), s.issues p h pl = true →
    (∀ i, i < 16 → ((s.issued p h pl).ctx p).token i =
      (s.ctx p).token i - (if pl.ownMask then 0 else b2n (h.wmask.getLsbD i)) + b2n (h.st && pl.unit.isNone && h.tok.toNat == i)) ∧
    ((s.issued p h pl).ctx p).inflight = (s.ctx p).inflight ++
      (match pl.unit with | some u => [pl.inFlight u (s.ctx p).pos h] | none => []) ∧
    ((s.issued p h pl).ctx p).sregs = (s.ctx p).sregs ∧ ((s.issued p h pl).ctx p).pos = (s.ctx p).pos ∧
    ((s.issued p h pl).ctx p).loops = (s.ctx p).loops ∧ ((s.issued p h pl).ctx p).hdr = (s.ctx p).hdr ∧
    ((s.issued p h pl).ctx p).status = (s.ctx p).status ∧ ((s.issued p h pl).ctx p).tqTag = (s.ctx p).tqTag ∧
    ((pl.comm && !p.guest) = false → ((s.issued p h pl).ctx p).purse + s.charge p pl = (s.ctx p).purse) ∧
    ((pl.comm && !p.guest) = true → ((s.issued p h pl).ctx p).purse = (s.ctx p).purse) ∧
    ((s.issued p h pl).core (Site.no p)).rest = (s.core (Site.no p)).rest ∧ (s.issued p h pl).opFrame s p ∧
    (pl.reads = [] → (s.issued p h pl).slots = s.slots)) ∧
  (∀ (s : State) (p : Site) (h : OpHead) (pl : Plan) (f : State → State) (code : Nat),
    (s.ctx p).status = .idle ∨ (s.ctx p).status = .trapped code ∨ (s.ctx p).status = .faulted code → s.issue p h pl f = s) ∧
  (∀ (s : State) (p : Site) (h : OpHead) (pl : Plan) (f : State → State), (s.ctx p).status = .running → s.mayIssue p h pl = false →
    (s.issue p h pl f).ctx p = { s.ctx p with next := some { head := h, plan := pl } } ∧
    ((s.issue p h pl f).core (Site.no p)).rest = (s.core (Site.no p)).rest ∧ (s.issue p h pl f).opFrame s p ∧
    (p.guest = true ∨ (s.ctx p).inflight ≠ [] → (s.issue p h pl f).counters = ctrAdd s.counters (ckCtx Ctr.issueStall p) 1) ∧
    (p.guest = false → (s.ctx p).inflight = [] → (s.issue p h pl f).counters =
      ctrAdd (ctrAdd s.counters (ckCtx Ctr.issueStall p) 1) { id := Ctr.mainIdleCycles, core := some (Site.no p) } 1)) ∧
  (∀ (s : State) (p : Site) (h : OpHead) (pl : Plan) (f : State → State), (s.ctx p).status = .running → s.mayIssue p h pl = true →
    issueFault (s.ctx p) h pl = none → pl.wait = none → s.energyOk p pl = false →
    (s.issue p h pl f).ctx p = { s.ctx p with next := some { head := h, plan := pl }, needCharge := s.charge p pl } ∧
    ((s.issue p h pl f).core (Site.no p)).rest = (s.core (Site.no p)).rest ∧ (s.issue p h pl f).opFrame s p) ∧
  (∀ (s : State) (p : Site) (h : OpHead) (pl : Plan) (f : State → State), (s.ctx p).status = .running → s.mayIssue p h pl = true →
    h.rsv ≠ 0#128 →
    ((s.issue p h pl f).ctx p) = { s.ctx p with status := .faulted 0x01 } ∧
    ((s.issue p h pl f).core (Site.no p)).rest = (s.core (Site.no p)).rest ∧ (s.issue p h pl f).wire = s.wire)

/-- SETS, ADDS, SLOAD and SLEEP write one register or one hint. Each op that issues and is not the end of its routine completes. SETS
writes IMM to S[d]; ADDS writes S[a] plus S[b] or plus the signed IMM, with 32-bit wrap; SLOAD writes the word of the local-store line
that its LSA and WORD name; SLOAD SPECIAL writes the step number, the core, the device identifier or the job slot. Nothing else of the
context changes but what the issue takes and the position, no memory of the core changes, and every other core and all of the block
outside the core, the governor of its die and the counters stay. S0 reads as 0 and ignores the write. SLEEP sets the context's hint to the
rung and touches of the rest only the hint of the core's status word. -/
def Obligations.ScalarOpsWriteOneRegister : Prop :=
  (∀ (s : State) (p : Site) (h : OpHead) (d : BitVec 4) (imm : BitVec 32), s.issues p h (setsPlan h d imm) = true →
    (s.ctx p).staysIn = true →
    ∃ t, exec (.sets p h d imm) s = .next t ∧ t.stepsCtx s p h (setsPlan h d imm) (fun c => c.setSreg d imm)) ∧
  (∀ (s : State) (p : Site) (h : OpHead) (a : AddsArgs), s.issues p h (addsPlan h a) = true → (s.ctx p).staysIn = true →
    ∃ t, exec (.adds p h a) s = .next t ∧ t.stepsCtx s p h (addsPlan h a)
      (fun c => c.setSreg a.d ((s.ctx p).sreg a.a + (if a.reg then (s.ctx p).sreg a.b else a.imm.signExtend 32)))) ∧
  (∀ (s : State) (p : Site) (h : OpHead) (d : BitVec 4) (src : Lsa) (word : BitVec 6),
    s.issues p h (sloadPlan s p h d src word) = true → (s.ctx p).staysIn = true →
    ∃ t, exec (.sload p h d src word) s = .next t ∧ t.stepsCtx s p h (sloadPlan s p h d src word)
      (fun c => c.setSreg d (BitVec.ofNat 32
        (rdLE (s.core (Site.no p)).lmem.read (((s.ctx p).sreg src.s + src.off.zeroExtend 32).toNat * 256 + 4 * word.toNat) 4)))) ∧
  (∀ (s : State) (p : Site) (h : OpHead) (d : BitVec 4) (src : Lsa) (word : BitVec 6),
    s.issues p h (sloadSpecialPlan h d src word) = true → (s.ctx p).staysIn = true →
    ∃ t, exec (.sloadSpecial p h d src word) s = .next t ∧ t.stepsCtx s p h (sloadSpecialPlan h d src word)
      (fun c => c.setSreg d
        (if word = 0#6 then (s.core (Site.no p)).step else if word = 1#6 then BitVec.ofNat 32 (p.x.val + 256 * p.y.val)
          else if word = 2#6 then s.modId.zeroExtend 32 else BitVec.ofNat 32 (s.ctx p).slot))) ∧
  (∀ (s : State) (p : Site) (h : OpHead) (rung : BitVec 3), s.issues p h (sleepPlan h rung) = true → (s.ctx p).staysIn = true →
    ∃ t, exec (.sleep p h rung) s = .next t ∧
      t.ctx p = { (s.issued p h (sleepPlan h rung)).ctx p with sleepHint := rung.toNat }.goto ((s.ctx p).pos + 1) ∧
      (t.core (Site.no p)).rest = (s.core (Site.no p)).rest ∧ { t with domains := s.domains }.opFrame s p) ∧
  (∀ (c : Ctx) (v : Word), c.sreg 0#4 = 0#32 ∧ c.setSreg 0#4 v = c) ∧
  (∀ (c : Ctx) (d i : BitVec 4) (v : Word), d ≠ 0#4 → (c.setSreg d v).sreg i = if i = d then v else c.sreg i)

/-- LOOP and BRANCH: iterations, bodies and conditions. LOOP that issues with a count above 0 (COUNT, or S[c] where COUNT is 0) enters its
body with that many iterations to go, and with a count of 0 continues after the body. BRANCH that issues continues at its position plus
TARGET when its condition holds and at the next op when it does not: always, S[s] equal to, not equal to, signed below or at least IMM, a
bit of TQ_TAG set or clear, or a bit of the context's mode slot set or clear (COND 7 and 8, which also note the layer whose entry they
tested). Neither changes a memory of the core nor anything that State.opFrame names. Where a position reaches the end of the innermost body,
STEP is added to S[s] and the body starts again while iterations are left; otherwise the loop ends and the enclosing one is looked at. COND
9 to 15 never issue with an effect: they are an opcode fault. -/
def Obligations.LoopsAndBranches : Prop :=
  (∀ (s : State) (p : Site) (h : OpHead) (a : LoopArgs), s.issues p h (loopPlan (s.ctx p) h a) = true → loopCount (s.ctx p) a ≠ 0 →
    ∃ t, exec (.loop p h a) s = .next t ∧
      t.ctx p = { (s.issued p h (loopPlan (s.ctx p) h a)).ctx p with
        pos := (s.ctx p).pos + 1
        loops := LoopFrame.mk ((s.ctx p).pos + 1) ((s.ctx p).pos + 1 + a.body.toNat) (loopCount (s.ctx p) a) a.s a.step ::
          (s.ctx p).loops } ∧
      (t.core (Site.no p)).rest = (s.core (Site.no p)).rest ∧ t.opFrame s p) ∧
  (∀ (s : State) (p : Site) (h : OpHead) (a : LoopArgs), s.issues p h (loopPlan (s.ctx p) h a) = true → loopCount (s.ctx p) a = 0 →
    ((s.ctx p).goto ((s.ctx p).pos + 1 + a.body.toNat)).pos < (s.ctx p).hdr.nOps →
    ∃ t, exec (.loop p h a) s = .next t ∧
      t.ctx p = ((s.issued p h (loopPlan (s.ctx p) h a)).ctx p).goto ((s.ctx p).pos + 1 + a.body.toNat) ∧
      (t.core (Site.no p)).rest = (s.core (Site.no p)).rest ∧ t.opFrame s p) ∧
  (∀ (s : State) (p : Site) (h : OpHead) (a : BranchArgs), s.issues p h (branchPlan (s.ctx p) h a) = true → (s.ctx p).staysIn = true →
    ∃ t c, exec (.branch p h a) s = .next t ∧
      c = (if 7 ≤ a.cond.toNat then { (s.issued p h (branchPlan (s.ctx p) h a)).ctx p with
          lastMode := some ((s.ctx p).modeLayers.getD a.s.toNat 0xFFFF, a.bit.toNat) }
        else (s.issued p h (branchPlan (s.ctx p) h a)).ctx p) ∧
      t.ctx p = (if branchTaken (s.ctx p) a then { c with pos := (((s.ctx p).pos : Int) + a.target.toInt).toNat }
        else c.goto ((s.ctx p).pos + 1)) ∧
      (t.core (Site.no p)).rest = (s.core (Site.no p)).rest ∧ t.opFrame s p) ∧
  (∀ (c : Ctx) (a : BranchArgs),
    (a.cond = 0#4 → branchTaken c a = true) ∧ (a.cond = 1#4 → (branchTaken c a = true ↔ c.sreg a.s = a.imm)) ∧
    (a.cond = 2#4 → (branchTaken c a = true ↔ c.sreg a.s ≠ a.imm)) ∧
    (a.cond = 3#4 → (branchTaken c a = true ↔ (c.sreg a.s).toInt < a.imm.toInt)) ∧
    (a.cond = 4#4 → (branchTaken c a = true ↔ a.imm.toInt ≤ (c.sreg a.s).toInt)) ∧
    (a.cond = 5#4 → branchTaken c a = c.tqTag.getLsbD a.bit.toNat) ∧ (a.cond = 6#4 → branchTaken c a = !c.tqTag.getLsbD a.bit.toNat) ∧
    (a.cond = 7#4 → branchTaken c a = (c.mode a.s.toNat).getLsbD a.bit.toNat) ∧
    (a.cond = 8#4 → branchTaken c a = !(c.mode a.s.toNat).getLsbD a.bit.toNat)) ∧
  (∀ (c : Ctx) (f : LoopFrame) (rest : List LoopFrame) (pos : Nat), c.loops = f :: rest →
    (pos ≠ f.last → c.goto pos = { c with pos := pos }) ∧
    (pos = f.last → 1 < f.left →
      c.goto pos = { c.setSreg f.reg (c.sreg f.reg + f.step.signExtend 32) with
        pos := f.first, loops := { f with left := f.left - 1 } :: rest }) ∧
    (pos = f.last → f.left ≤ 1 →
      c.goto pos = { c.setSreg f.reg (c.sreg f.reg + f.step.signExtend 32) with loops := rest }.goto pos)) ∧
  (∀ (s : State) (p : Site) (h : OpHead) (a : BranchArgs), 8 < a.cond.toNat → (branchPlan (s.ctx p) h a).fault = some 0x01)

/-- WAIT, WAIT STEP, the timeout and TRAP. A WAIT that issues holds its context until every token of WMASK is at least 1: with them there it
takes 1 from each, writes 0 to S[D], raises its ST token and moves on; without them the context is held with that mask, timeout, register
and token. WAIT STEP holds the main context at the step boundary; in a guest it does not issue. A timeout above 0 that passes while the
tokens are not all there takes none of them, writes 1 to S[D], counts WAIT_TIMEOUT, raises the ST token and moves on; where that token would
pass 15 the context stops with a token fault, its tokens and registers unchanged and WAIT_TIMEOUT not counted; on a context that no WAIT of
tokens with a timeout holds nothing changes. TRAP with CODE 0 and NEXT 0xFFFF ends the routine, with a NEXT that can start it starts that
routine at position 0 with the registers and tokens as they are, and with CODE 1 to 0x7FFF stops the context with that code and posts
JOB_TRAP for its slot. The ops leave the core's memories (a guest routine of another slot first clears the guest's operand lines) and send
no message. -/
def Obligations.WaitsAndTraps : Prop :=
  (∀ (s : State) (p : Site) (h : OpHead) (to' : BitVec 32) (d : BitVec 4),
    s.issues p { h with st := false } (waitPlan h to' d) = true → (s.ctx p).tokensReady h.wmask = false →
    ∃ t, exec (.wait p h to' d) s = .next t ∧
      t.ctx p = { (s.issued p { h with st := false } (waitPlan h to' d)).ctx p with
        status := .waitTok h.wmask to' d (if h.st then some h.tok.toNat else none), waitWord := waitWord h false to' d } ∧
      (t.core (Site.no p)).rest = (s.core (Site.no p)).rest ∧ t.opFrame s p) ∧
  (∀ (s : State) (p : Site) (h : OpHead) (to' : BitVec 32) (d : BitVec 4),
    s.issues p { h with st := false } (waitPlan h to' d) = true → (s.ctx p).tokensReady h.wmask = true →
    (h.st = true → ((s.ctx p).takeTokens h.wmask).token h.tok.toNat < 15) → (s.ctx p).staysIn = true →
    ∃ t, exec (.wait p h to' d) s = .next t ∧
      t.ctx p = (({ ((((s.issued p { h with st := false } (waitPlan h to' d)).ctx p).takeTokens h.wmask).setSreg d 0#32) with
        waitWord := waitWord h false to' d } : Ctx).raised (if h.st then some h.tok.toNat else none)).goto ((s.ctx p).pos + 1) ∧
      (t.core (Site.no p)).rest = (s.core (Site.no p)).rest ∧ t.opFrame s p) ∧
  (∀ (s : State) (p : Site) (h : OpHead) (to' : BitVec 32) (d : BitVec 4),
    s.issues p { h with st := false } (waitStepPlan p h to' d) = true →
    p.guest = false ∧ ∃ t, exec (.waitStep p h to' d) s = .next t ∧
      t.ctx p = { (s.issued p { h with st := false } (waitStepPlan p h to' d)).ctx p with
        status := .waitStep d (if h.st then some h.tok.toNat else none), waitWord := waitWord h true to' d } ∧
      (t.core (Site.no p)).rest = (s.core (Site.no p)).rest ∧ t.opFrame s p) ∧
  (∀ (s : State) (p : Site) (mask : BitVec 16) (to' : Word) (d : BitVec 4) (tok : Option Nat), (s.ctx p).status = .waitTok mask to' d tok →
    to' ≠ 0#32 → (s.ctx p).tokensReady mask = false → (s.ctx p).staysIn = true → (∀ k, tok = some k → (s.ctx p).token k < 15) →
    ∃ t, exec (.waitTimeout p) s = .next t ∧
      t.ctx p = (({ (s.ctx p).setSreg d 1#32 with status := .running } : Ctx).raised tok).goto ((s.ctx p).pos + 1) ∧
      t.counters = ctrAdd s.counters (ckCtx Ctr.waitTimeout p) 1 ∧ (t.core (Site.no p)).rest = (s.core (Site.no p)).rest ∧
      t.opFrame s p) ∧
  (∀ (s : State) (p : Site) (mask : BitVec 16) (to' : Word) (d : BitVec 4) (k : Nat), (s.ctx p).status = .waitTok mask to' d (some k) →
    to' ≠ 0#32 → (s.ctx p).tokensReady mask = false → 15 ≤ (s.ctx p).token k →
    ∃ t, exec (.waitTimeout p) s = .next t ∧ t.ctx p = { s.ctx p with status := .faulted 0x07 } ∧
      t.counters = ctrAdd s.counters (ckCtx Ctr.routineFaults p) 1 ∧ (t.core (Site.no p)).rest = (s.core (Site.no p)).rest) ∧
  (∀ (s : State) (p : Site), (s.ctx p).held = false → exec (.waitTimeout p) s = .next s) ∧
  (∀ (s : State) (p : Site) (h : OpHead) (next : BitVec 16), s.issues p h (trapPlan s p h 0#16 next) = true →
    (next = 0xFFFF#16 → ∃ t, exec (.trap p h 0#16 next) s = .next t ∧ (t.ctx p).status = .idle ∧ (t.ctx p).sregs = (s.ctx p).sregs ∧
      (t.core (Site.no p)).rest = (s.core (Site.no p)).rest ∧ { t with domains := s.domains }.opFrame s p) ∧
    (next ≠ 0xFFFF#16 → ∃ t, exec (.trap p h 0#16 next) s = .next t ∧ (t.ctx p).status = .running ∧ (t.ctx p).pos = 0 ∧
      (t.ctx p).loops = [] ∧ (t.ctx p).win = none ∧ (t.ctx p).sregs = (s.ctx p).sregs ∧
      (t.ctx p).tokens = ((s.issued p h (trapPlan s p h 0#16 next)).ctx p).tokens ∧
      (t.ctx p).hdr = parseHdr (s.core (Site.no p)).lmem.read (fld (dirEntry (s.core (Site.no p)) p.guest next.toNat) 13 0) ∧
      (t.core (Site.no p)).lmem = (s.core (Site.no p)).lmem ∧ { t with domains := s.domains }.opFrame s p)) ∧
  (∀ (s : State) (p : Site) (h : OpHead) (code next : BitVec 16), code ≠ 0#16 → s.issues p h (trapPlan s p h code next) = true →
    ∃ t, exec (.trap p h code next) s = .next t ∧ (t.ctx p).status = .trapped code.toNat ∧ (t.ctx p).pos = (s.ctx p).pos ∧
      (t.ctx p).sregs = (s.ctx p).sregs ∧ (t.core (Site.no p)).rest = (s.core (Site.no p)).rest ∧ t.wire = s.wire ∧
      (∀ no, no ≠ Site.no p → t.core no = s.core no) ∧ t.slots = s.slots ∧ t.mem = s.mem ∧
      ∃ e, t.events = s.events ++ [e] ∧ e.code = 0x0201 ∧ e.slot = some (s.ctx p).slot)

/-- Every VEC op that issues runs its rows in order and writes only its destination. For each of the 39 functions of R134 (the command
vecInstr fn) and every operand form: an op that issues, whose operands resolve (a TQ source has a FULL entry), to which no TAP op is bound
and which does not end its routine, completes. The operand cache, the local store and the tile registers of its core are then what the rows
give, one after another, each row reading after the rows before it have written; the context is as the issue left it, moved on, and with a
TQ source its TQ_TAG holds the tag of the oldest FULL entry. POP takes that entry out of the queue; without POP it stays, marked as being
read; without a TQ source the queue stays. Everything that State.opFrame names stays. An op with a TQ source that issues while no entry is
FULL goes in flight with the scalar registers and the routine header of its issue, to run when one is, and changes nothing else but the
position. -/
def Obligations.VectorOpsComplete : Prop :=
  (∀ (fn : VecFn) (s : State) (p : Site) (h : OpHead) (a : VecArgs), s.issues p h (vecPlan s p h fn a) = true →
    (s.ctx p).staysIn = true → vecReadsTq fn a = true → (s.core (Site.no p)).tqFull p.guest = none →
    (vecPlan s p h fn a).finish = .deferred { op := .vec fn a, sregs := (s.ctx p).sregs, hdr := (s.ctx p).hdr } ∧
    ∃ t, exec (vecInstr fn p h a) s = .next t ∧ t.stepsCtx s p h (vecPlan s p h fn a) id) ∧
  ∀ (fn : VecFn) (s : State) (p : Site) (h : OpHead) (a : VecArgs) (d x y z : RowPlace),
    s.issues p h (vecPlan s p h fn a) = true → (s.ctx p).staysIn = true → openTaps (s.ctx p).inflight = [] →
    vecPlaces (s.core (Site.no p)) p.guest fn a = some (d, x, y, z) →
    ∃ t, exec (vecInstr fn p h a) s = .next t ∧
      (t.core (Site.no p)).lmem = (vecRows fn a.sat d x y z (a.nM1.toNat + 1) 0 (s.core (Site.no p))).1.lmem ∧
      (t.core (Site.no p)).oc = (vecRows fn a.sat d x y z (a.nM1.toNat + 1) 0 (s.core (Site.no p))).1.oc ∧
      (t.core (Site.no p)).ta = (vecRows fn a.sat d x y z (a.nM1.toNat + 1) 0 (s.core (Site.no p))).1.ta ∧
      (vecReadsTq fn a = false →
        t.ctx p = ((s.issued p h (vecPlan s p h fn a)).ctx p).goto ((s.ctx p).pos + 1) ∧
        (t.core (Site.no p)).tq = (s.core (Site.no p)).tq) ∧
      (vecReadsTq fn a = true → ∃ e, (s.core (Site.no p)).tqFull p.guest = some e ∧
        t.ctx p = { (s.issued p h (vecPlan s p h fn a)).ctx p with tqTag := e.tag }.goto ((s.ctx p).pos + 1) ∧
        (a.pop = true → ∀ f, f ∈ (t.core (Site.no p)).tq ↔ f ∈ (s.core (Site.no p)).tq ∧ f.id ≠ e.id) ∧
        (a.pop = false → (t.core (Site.no p)).tq =
          (s.core (Site.no p)).tq.map (fun f => if f.id = e.id then { f with reading := true } else f))) ∧
      t.opFrame s p

/-- A row of operands is read back as written, and no other byte changes. A row of 64 words written to row i of an operand-cache,
local-store or tile-register destination reads back from the same row lane by lane; every byte of that memory outside the row's 256 bytes
reads as before, and the two other memories of the core stay. A narrowing row writes 64 elements of w bytes from destination byte address
+ i x 64 x w on, element j in bytes j x w to j x w + w - 1, and nothing else. A broadcast operand gives its word in every lane of every
row. A VEC op of N + 1 rows is its first row followed by the rest, each lane of the row the function of its three source lanes. -/
def Obligations.RowsReadBack : Prop :=
  (∀ (c : Core) (base stride i : Nat) (vs : List Word), vs.length = 64 →
    rowRead (rowWrite c (.oc base stride) 4 i 0 vs) (.oc base stride) 4 i = vs ∧
    rowRead (rowWrite c (.ls base stride) 4 i 0 vs) (.ls base stride) 4 i = vs ∧
    (∀ a, a < base + i * stride ∨ base + i * stride + 256 ≤ a →
      (rowWrite c (.oc base stride) 4 i 0 vs).oc.read a = c.oc.read a ∧
      (rowWrite c (.ls base stride) 4 i 0 vs).lmem.read a = c.lmem.read a) ∧
    (rowWrite c (.oc base stride) 4 i 0 vs).lmem = c.lmem ∧ (rowWrite c (.oc base stride) 4 i 0 vs).ta = c.ta ∧
    (rowWrite c (.ls base stride) 4 i 0 vs).oc = c.oc ∧ (rowWrite c (.ls base stride) 4 i 0 vs).ta = c.ta) ∧
  (∀ (c : Core) (n i : Nat) (vs : List Word), vs.length = 64 →
    rowRead (rowWrite c (.ta n) 4 i 0 vs) (.ta n) 4 i = vs ∧
    (∀ a, a < n * 4096 + i * 256 ∨ n * 4096 + i * 256 + 256 ≤ a → (rowWrite c (.ta n) 4 i 0 vs).ta.read a = c.ta.read a) ∧
    (rowWrite c (.ta n) 4 i 0 vs).lmem = c.lmem ∧ (rowWrite c (.ta n) 4 i 0 vs).oc = c.oc) ∧
  (∀ (c : Core) (base stride w i j b : Nat) (vs : List Word), vs.length = 64 → (w = 1 ∨ w = 2) → j < 64 → b < w →
    (rowWrite c (.oc base stride) w i 0 vs).oc.read (base + i * 64 * w + j * w + b) =
      BitVec.ofNat 8 ((vs.getD j 0#32).toNat / 256 ^ b) ∧
    (rowWrite c (.ls base stride) w i 0 vs).lmem.read (base + i * 64 * w + j * w + b) =
      BitVec.ofNat 8 ((vs.getD j 0#32).toNat / 256 ^ b) ∧
    (∀ a, a < base + i * 64 * w ∨ base + i * 64 * w + 64 * w ≤ a →
      (rowWrite c (.oc base stride) w i 0 vs).oc.read a = c.oc.read a ∧
      (rowWrite c (.ls base stride) w i 0 vs).lmem.read a = c.lmem.read a)) ∧
  (∀ (c : Core) (v : Word) (w i j : Nat), j < 64 → (rowRead c (.all v) w i).getD j 0#32 = v) ∧
  (∀ (fn : VecFn) (sat : Bool) (d a b c : RowPlace) (n i : Nat) (k : Core),
    (vecRows fn sat d a b c (n + 1) i k).1 = (vecRows fn sat d a b c n (i + 1)
      (rowWrite k d ((Vec.narrowBytes fn).getD 4) i 0 ((List.range 64).map (fun j => (Vec.lane fn sat
        ((rowRead k a ((Vec.widenBytes fn).getD 4) i).getD j 0#32) ((rowRead k b 4 i).getD j 0#32)
        ((rowRead k c 4 i).getD j 0#32)).v)))).1)

/-- The integer lanes: clamp and wrap, shifts and their amounts. With SAT, a result of IADD, ISUB, IMUL, IABS or INEG outside the signed
32-bit range is the nearer end and is marked clamped, and one inside is exact and is not; without SAT it is the low 32 bits of the exact
result. Of a shift amount only b[5:0] is read: 32 to 63 gives 0 for SHR and for SHL without SAT, and 32 copies of the sign for SRA. SHL with
SAT clamps exactly when the result differs from a x 2^amount, and a zero a never clamps. The logic functions and SEL act on the bits. IMIN,
IMAX, ICMPEQ and ICMPLT take the lanes as signed 32-bit values. A VEC op that runs adds to INT_SAT of its context one for each lane clamped
(the counter itself saturates at 2^32 - 1). -/
def Obligations.IntegerLanesClampOrWrap : Prop :=
  (∀ (a b c : Word) (fn : VecFn) (x : Int), (fn, x) ∈ [(VecFn.iadd, a.toInt + b.toInt), (.isub, a.toInt - b.toInt),
      (.imul, a.toInt * b.toInt), (.iabs, (a.toInt.natAbs : Int)), (.ineg, -a.toInt)] →
    ((Vec.lane fn true a b c).v.toInt = max (-(2 ^ 31)) (min x (2 ^ 31 - 1))) ∧
    ((Vec.lane fn true a b c).intSat = true ↔ x < -(2 ^ 31) ∨ 2 ^ 31 - 1 < x) ∧
    (Vec.lane fn false a b c).v = BitVec.ofInt 32 x ∧ (Vec.lane fn false a b c).intSat = false) ∧
  (∀ (a b c : Word) (sat : Bool), 32 ≤ b.toNat % 64 →
    (Vec.lane .shr sat a b c).v = 0#32 ∧ (Vec.lane .shl false a b c).v = 0#32 ∧
    (Vec.lane .sra sat a b c).v = if a.msb then 0xFFFFFFFF#32 else 0#32) ∧
  (∀ (a b c : Word) (sat : Bool), b.toNat % 64 < 32 →
    (Vec.lane .shr sat a b c).v = a >>> (b.toNat % 64) ∧ (Vec.lane .shl false a b c).v = a <<< (b.toNat % 64) ∧
    (Vec.lane .sra sat a b c).v.toInt = a.toInt / 2 ^ (b.toNat % 64)) ∧
  (∀ (a b c : Word), ((Vec.lane .shl true a b c).intSat = true ↔ (Vec.lane .shl true a b c).v.toInt ≠ a.toInt * 2 ^ (b.toNat % 64)) ∧
    (Vec.lane .shl true a b c).v.toInt = max (-(2 ^ 31)) (min (a.toInt * 2 ^ (b.toNat % 64)) (2 ^ 31 - 1)) ∧
    (Vec.lane .shl true 0#32 b c).intSat = false) ∧
  (∀ (a b c : Word) (sat : Bool), (Vec.lane .and sat a b c).v = a &&& b ∧ (Vec.lane .or sat a b c).v = a ||| b ∧
    (Vec.lane .xor sat a b c).v = a ^^^ b ∧ (Vec.lane .andn sat a b c).v = a &&& ~~~b ∧
    (Vec.lane .sel sat a b c).v = (if c = 0#32 then b else a) ∧ (Vec.lane .mov sat a b c).v = a ∧
    (Vec.lane .imin sat a b c).v.toInt = min a.toInt b.toInt ∧ (Vec.lane .imax sat a b c).v.toInt = max a.toInt b.toInt ∧
    (Vec.lane .icmpeq sat a b c).v = (if a = b then 0xFFFFFFFF#32 else 0#32) ∧
    (Vec.lane .icmplt sat a b c).v = (if a.toInt < b.toInt then 0xFFFFFFFF#32 else 0#32)) ∧
  (∀ (fn : VecFn) (s : State) (p : Site) (h : OpHead) (a : VecArgs) (d x y z : RowPlace) (n : Nat),
    s.issues p h (vecPlan s p h fn a) = true → (s.ctx p).staysIn = true →
    vecPlaces (s.core (Site.no p)) p.guest fn a = some (d, x, y, z) →
    n = ((vecRows fn a.sat d x y z (a.nM1.toNat + 1) 0 (s.core (Site.no p))).2.flatten.filter (fun o => o.intSat)).length →
    ctrGet s.counters (ckCtx Ctr.intSat p) + n < 2 ^ 32 →
    ∃ t, exec (vecInstr fn p h a) s = .next t ∧
      ctrGet t.counters (ckCtx Ctr.intSat p) = ctrGet s.counters (ckCtx Ctr.intSat p) + n)

/-- The FP32 minimum, maximum, signs and compares. FMIN and FMAX give the canonical NaN when either operand is NaN, and otherwise the
operand that is lower or higher in the order of the values, in which -0.0 lies below +0.0. FABS clears and FNEG flips the sign bit of any
operand but a NaN, which gives the canonical NaN. FCMPEQ, FCMPLT and FCMPLE give 0 whenever either operand is NaN, and otherwise all ones
exactly when the values are equal, less, or less or equal, the two zeros being equal. FFMA gives the canonical NaN for an infinity times
zero, for an infinite product added to the opposite infinity, and for a NaN operand. SAT makes no difference to any of them. -/
def Obligations.FloatLanesFollowTheRules : Prop :=
  (∀ (a b c : Word) (sat : Bool), nanWord a ∨ nanWord b →
    Vec.lane .fmin sat a b c = { v := 0x7FC00000#32 } ∧ Vec.lane .fmax sat a b c = { v := 0x7FC00000#32 } ∧
    Vec.lane .fcmpeq sat a b c = { v := 0#32 } ∧ Vec.lane .fcmplt sat a b c = { v := 0#32 } ∧
    Vec.lane .fcmple sat a b c = { v := 0#32 } ∧ Vec.lane .ffma sat a b c = { v := 0x7FC00000#32 }) ∧
  (∀ (a b c : Word) (sat : Bool), ¬ nanWord a → ¬ nanWord b →
    fpOrder (Vec.lane .fmin sat a b c).v = min (fpOrder a) (fpOrder b) ∧
    fpOrder (Vec.lane .fmax sat a b c).v = max (fpOrder a) (fpOrder b) ∧
    (Vec.lane .fcmpeq sat a b c).v = (if a = b ∨ (a.toNat % 2 ^ 31 = 0 ∧ b.toNat % 2 ^ 31 = 0) then 0xFFFFFFFF#32 else 0#32) ∧
    (Vec.lane .fcmplt sat a b c).v =
      (if fpOrder a < fpOrder b ∧ ¬ (a.toNat % 2 ^ 31 = 0 ∧ b.toNat % 2 ^ 31 = 0) then 0xFFFFFFFF#32 else 0#32) ∧
    (Vec.lane .fcmple sat a b c).v =
      (if fpOrder a ≤ fpOrder b ∨ (a.toNat % 2 ^ 31 = 0 ∧ b.toNat % 2 ^ 31 = 0) then 0xFFFFFFFF#32 else 0#32)) ∧
  (∀ (a b c : Word) (sat : Bool),
    (nanWord a → Vec.lane .fabs sat a b c = { v := 0x7FC00000#32 } ∧ Vec.lane .fneg sat a b c = { v := 0x7FC00000#32 }) ∧
    (¬ nanWord a → Vec.lane .fabs sat a b c = { v := a &&& 0x7FFFFFFF#32 } ∧
      Vec.lane .fneg sat a b c = { v := a ^^^ 0x80000000#32 })) ∧
  (∀ (a b c : Word) (sat : Bool), infWord a → b.toNat % 2 ^ 31 = 0 →
    (Vec.lane .ffma sat a b c).v = 0x7FC00000#32 ∧ (Vec.lane .ffma sat b a c).v = 0x7FC00000#32) ∧
  (∀ (a b c : Word) (sat : Bool), infWord a → ¬ nanWord b → b.toNat % 2 ^ 31 ≠ 0 → infWord c → c.msb ≠ (a.msb ^^ b.msb) →
    (Vec.lane .ffma sat a b c).v = 0x7FC00000#32)

/-- RED ops and TAP: what they write and what they leave. For each of the 7 functions of R143 (the command redInstr fn): a RED op that
issues, whose source resolves and which does not end its routine, completes. The memories of its core are those in which the results of its
N source rows stand in the destination lanes of R143 (a destination of kind 0 takes nothing), and nothing else differs; a TQ source puts the
oldest FULL entry's tag into TQ_TAG and with POP returns the entry; while no entry is FULL the op goes in flight to run later and changes
nothing else but the position. A TAP op that issues waits in the reduction unit with its function, its operands and the scalar registers and
header of its issue, and changes no memory. A VEC op to which TAP ops are bound writes its destination as usual and then each of them, in
order, reduces all rows that the VEC op wrote (the model's choice for a TAP op of another N, log 71); no TAP op is left open. Everything
that State.opFrame names stays. -/
def Obligations.ReductionOpsComplete : Prop :=
  (∀ (fn : RedFn) (s : State) (p : Site) (h : OpHead) (a : RedArgs), s.issues p h (redPlan s p h fn false a) = true →
    (s.ctx p).staysIn = true → isTq a.src = true → (s.core (Site.no p)).tqFull p.guest = none →
    (redPlan s p h fn false a).finish = .deferred { op := .red fn a, sregs := (s.ctx p).sregs, hdr := (s.ctx p).hdr } ∧
    ∃ t, exec (redInstr fn p h a) s = .next t ∧ t.stepsCtx s p h (redPlan s p h fn false a) id) ∧
  (∀ (fn : RedFn) (s : State) (p : Site) (h : OpHead) (a : RedArgs) (src : RowPlace),
    s.issues p h (redPlan s p h fn false a) = true → (s.ctx p).staysIn = true →
    placeOf (s.core (Site.no p)) p.guest a.lsStride.toNat a.src = some src →
    ∃ t, exec (redInstr fn p h a) s = .next t ∧
      (∀ k, k = ((placeOf (s.core (Site.no p)) p.guest a.lsStride.toNat a.d).map (fun d =>
          redWrite d 2 0 (redResults fn a.scope.toNat a.skipNf
            ((List.range (a.nM1.toNat + 1)).map (rowRead (s.core (Site.no p)) src 4))) (s.core (Site.no p)))).getD (s.core (Site.no p)) →
        (t.core (Site.no p)).lmem = k.lmem ∧ (t.core (Site.no p)).oc = k.oc ∧ (t.core (Site.no p)).ta = k.ta) ∧
      (isTq a.src = false →
        t.ctx p = ((s.issued p h (redPlan s p h fn false a)).ctx p).goto ((s.ctx p).pos + 1) ∧
        (t.core (Site.no p)).tq = (s.core (Site.no p)).tq) ∧
      (isTq a.src = true → ∃ e, (s.core (Site.no p)).tqFull p.guest = some e ∧
        t.ctx p = { (s.issued p h (redPlan s p h fn false a)).ctx p with tqTag := e.tag }.goto ((s.ctx p).pos + 1) ∧
        (a.pop = true → ∀ f, f ∈ (t.core (Site.no p)).tq ↔ f ∈ (s.core (Site.no p)).tq ∧ f.id ≠ e.id)) ∧
      t.opFrame s p) ∧
  (∀ (fn : RedFn) (s : State) (p : Site) (h : OpHead) (r : RedArgs), s.issues p h (redPlan s p h fn true r) = true →
    (s.ctx p).staysIn = true →
    ∃ t, exec (.tap p h fn r) s = .next t ∧ t.stepsCtx s p h (redPlan s p h fn true r) id ∧
      (redPlan s p h fn true r).finish = .tapWait fn r (s.ctx p).sregs (s.ctx p).hdr) ∧
  (∀ (fn : VecFn) (s : State) (p : Site) (h : OpHead) (a : VecArgs) (d x y z : RowPlace) (k : Core) (rows : List (List LaneOut)),
    s.issues p h (vecPlan s p h fn a) = true → (s.ctx p).staysIn = true →
    vecPlaces (s.core (Site.no p)) p.guest fn a = some (d, x, y, z) →
    vecRows fn a.sat d x y z (a.nM1.toNat + 1) 0 (s.core (Site.no p)) = (k, rows) →
    ∃ t, exec (vecInstr fn p h a) s = .next t ∧ openTaps (t.ctx p).inflight = [] ∧
      (t.core (Site.no p)).lmem =
        (tapAll p.guest (rows.map (fun l => l.map (fun o => o.v))) (openTaps (s.ctx p).inflight) k).lmem ∧
      (t.core (Site.no p)).oc = (tapAll p.guest (rows.map (fun l => l.map (fun o => o.v))) (openTaps (s.ctx p).inflight) k).oc ∧
      (t.core (Site.no p)).ta = (tapAll p.guest (rows.map (fun l => l.map (fun o => o.v))) (openTaps (s.ctx p).inflight) k).ta ∧
      t.opFrame s p) ∧
  (∀ (g : Bool) (rows : List (List Word)) (f : InFlight) (fn : RedFn) (r : RedArgs) (sr : SMap Word) (hd : Hdr) (line st : Nat) (k : Core),
    f.finish = .tapWait fn r sr hd → r.d = .oc (BitVec.ofNat 10 line) (BitVec.ofNat 5 st) → line < 1024 → st < 32 →
    (tapAll g rows [f] k).oc =
      (redWrite (.oc ((hd.ocBase + line) * 256) (st * 256)) 2 0 (redResults fn r.scope.toNat r.skipNf rows) k).oc ∧
    (tapAll g rows [f] k).lmem = k.lmem ∧ (tapAll g rows [f] k).ta = k.ta)

/-- The order and the corners of reductions. The tree over 4 elements combines the first two, the last two and then both; a BLOCK, ROW or
TRED result is such a tree over its lanes. SUM, SSQ and NORM chains start from +0.0, COUNT_NF from 0 and the extremes from their first
remaining element. MAX, MIN and MAXABS give the canonical NaN when any combined element is a NaN. COUNT_NF of a row is how many of its
elements are infinite or NaN, whatever SKIPNF says. With SKIPNF a scope with no remaining element gives +0.0 in every other function, and
a left-out element of a SUM, SSQ or NORM tree counts as +0.0. BLOCK gives two results a row, ROW one a row, COL one a lane, SEQ one. -/
def Obligations.ReductionOrderAndCorners : Prop :=
  (∀ (a b c d : Word),
    Red.treeOf .sum false 2 [a, b, c, d] = Fp.addRne (Fp.addRne a b) (Fp.addRne c d) ∧
    Red.treeOf .max false 2 [a, b, c, d] = Fp.fmax (Fp.fmax a b) (Fp.fmax c d) ∧
    Red.treeOf .min false 2 [a, b, c, d] = Fp.fmin (Fp.fmin a b) (Fp.fmin c d) ∧
    Red.treeOf .ssq false 2 [a, b, c, d] =
      Fp.addRne (Fp.addRne (Fp.mulRne a a) (Fp.mulRne b b)) (Fp.addRne (Fp.mulRne c c) (Fp.mulRne d d)) ∧
    Red.treeOf .norm false 2 [a, b, c, d] = Fp.sqrtF32 (Red.treeOf .ssq false 2 [a, b, c, d])) ∧
  (∀ (xs : List Word) (skip : Bool), (∀ x ∈ xs, Fp.isNonFinite x = false) →
    Red.chainOf .sum skip xs = xs.foldl Fp.addRne 0#32 ∧
    Red.chainOf .ssq skip xs = xs.foldl (fun acc x => Fp.addRne acc (Fp.mulRne x x)) 0#32 ∧
    Red.chainOf .countNf skip xs = 0#32 ∧
    (∀ x l, xs = x :: l → Red.chainOf .max skip xs = l.foldl Fp.fmax (Fp.fmax x x))) ∧
  (∀ (xs : List Word) (x : Word) (fn : RedFn), fn = .max ∨ fn = .min ∨ fn = .maxabs → xs.length = 64 → x ∈ xs → nanWord x = true →
    Red.treeOf fn false 6 xs = 0x7FC00000#32 ∧ Red.chainOf fn false xs = 0x7FC00000#32) ∧
  (∀ (xs : List Word) (skip : Bool), xs.length = 64 →
    Red.treeOf .countNf skip 6 xs = BitVec.ofNat 32 (xs.filter Fp.isNonFinite).length ∧
    Red.chainOf .countNf skip xs = BitVec.ofNat 32 (xs.filter Fp.isNonFinite).length) ∧
  (∀ (xs : List Word) (fn : RedFn), fn ≠ .countNf → xs.length = 64 → (∀ x ∈ xs, Fp.isNonFinite x = true) →
    Red.treeOf fn true 6 xs = 0#32 ∧ Red.chainOf fn true xs = 0#32) ∧
  (∀ (fn : RedFn) (skip : Bool) (rows : List (List Word)),
    (redResults fn 0 skip rows).length = 2 * rows.length ∧ (redResults fn 1 skip rows).length = rows.length ∧
    (redResults fn 2 skip rows).length = 64 ∧ (redResults fn 3 skip rows).length = 1)

/-- TLOAD, TSTORE, TRED and TBIN: every element of the tile register. Each that issues and does not end its routine completes. TLOAD of
quadrant q gives TAn[i][j] the word of source row 32(q >> 1) + i at lane 32(q & 1) + j, and leaves the other tile registers, the operand
cache and the local store; a TQ source also takes the tag, or waits in flight while no entry is FULL. TSTORE writes row i of the register
into lanes 32(q & 1) to 32(q & 1) + 31 of destination row 32(q >> 1) + i, row after row, so that where the rows lie at least a line apart
each element reads back and the other lanes stay; it leaves the tile registers. TRED puts the 32 trees over the chosen axis into lanes 0-31,
or with HALF lanes 32-63, of an operand-cache line; the other half and the tile register stay. TBIN meets each element with v[i] for AXIS 0
or v[j] for AXIS 1 of the chosen half of its vector operand A (the model's reading, log 23). The context is as the issue left it, moved on,
and everything that State.opFrame names stays. -/
def Obligations.TileRegisterOpsComplete : Prop :=
  (∀ (s : State) (p : Site) (h : OpHead) (v : VecArgs) (n : BitVec 4) (rs : BitVec 11) (src : RowPlace),
    s.issues p h (tloadPlan s p h v) = true → (s.ctx p).staysIn = true → v.d = .ta n rs →
    placeOf (s.core (Site.no p)) p.guest v.lsStride.toNat v.a = some src →
    ∃ t, exec (.tload p h v) s = .next t ∧
      (∀ i j, i < 32 → j < 32 → taGet (t.core (Site.no p)) n.toNat i j =
        (rowRead (s.core (Site.no p)) src 4 (32 * (v.ext.toNat / 2) + i)).getD (32 * (v.ext.toNat % 2) + j) 0#32) ∧
      (∀ a, a < n.toNat * 4096 ∨ n.toNat * 4096 + 4096 ≤ a →
        (t.core (Site.no p)).ta.read a = (s.core (Site.no p)).ta.read a) ∧
      (t.core (Site.no p)).lmem = (s.core (Site.no p)).lmem ∧ (t.core (Site.no p)).oc = (s.core (Site.no p)).oc ∧
      (isTq v.a = false → t.ctx p = ((s.issued p h (tloadPlan s p h v)).ctx p).goto ((s.ctx p).pos + 1)) ∧
      (isTq v.a = true → ∃ e, (s.core (Site.no p)).tqFull p.guest = some e ∧
        t.ctx p = { (s.issued p h (tloadPlan s p h v)).ctx p with tqTag := e.tag }.goto ((s.ctx p).pos + 1)) ∧ t.opFrame s p) ∧
  (∀ (s : State) (p : Site) (h : OpHead) (v : VecArgs), s.issues p h (tloadPlan s p h v) = true → (s.ctx p).staysIn = true →
    isTq v.a = true → (s.core (Site.no p)).tqFull p.guest = none →
    (tloadPlan s p h v).finish = .deferred { op := .tload v, sregs := (s.ctx p).sregs, hdr := (s.ctx p).hdr } ∧
    ∃ t, exec (.tload p h v) s = .next t ∧ t.stepsCtx s p h (tloadPlan s p h v) id) ∧
  (∀ (s : State) (p : Site) (h : OpHead) (v : VecArgs) (n : BitVec 4) (rs : BitVec 11) (dst : RowPlace),
    s.issues p h (tstorePlan s p h v) = true → (s.ctx p).staysIn = true → v.a = .ta n rs →
    placeOf (s.core (Site.no p)) p.guest v.lsStride.toNat v.d = some dst →
    ∃ t, exec (.tstore p h v) s = .next t ∧
      (∀ k, k = (List.range 32).foldl (fun k i => rowWrite k dst 4 (32 * (v.ext.toNat / 2) + i) (32 * (v.ext.toNat % 2))
          ((List.range 32).map (taGet (s.core (Site.no p)) n.toNat i))) (s.core (Site.no p)) →
        (t.core (Site.no p)).lmem = k.lmem ∧ (t.core (Site.no p)).oc = k.oc) ∧
      ((∀ base st, dst = .oc base st ∨ dst = .ls base st → 256 ≤ st) →
      (∀ i j, i < 32 → j < 32 →
        (rowRead (t.core (Site.no p)) dst 4 (32 * (v.ext.toNat / 2) + i)).getD (32 * (v.ext.toNat % 2) + j) 0#32 =
          taGet (s.core (Site.no p)) n.toNat i j) ∧
      (∀ i j, i < 32 → j < 32 →
        (rowRead (t.core (Site.no p)) dst 4 (32 * (v.ext.toNat / 2) + i)).getD (32 * (1 - v.ext.toNat % 2) + j) 0#32 =
          (rowRead (s.core (Site.no p)) dst 4 (32 * (v.ext.toNat / 2) + i)).getD (32 * (1 - v.ext.toNat % 2) + j) 0#32)) ∧
      (t.core (Site.no p)).ta = (s.core (Site.no p)).ta ∧ (t.core (Site.no p)).tq = (s.core (Site.no p)).tq ∧
      t.ctx p = ((s.issued p h (tstorePlan s p h v)).ctx p).goto ((s.ctx p).pos + 1) ∧ t.opFrame s p) ∧
  (∀ (s : State) (p : Site) (h : OpHead) (v : VecArgs) (n : BitVec 4) (rs : BitVec 11) (line : BitVec 10) (st : BitVec 5) (fn : RedFn),
    s.issues p h (tredPlan s p h v) = true → (s.ctx p).staysIn = true → v.a = .ta n rs → v.d = .oc line st →
    tredFn v.ext.toNat = some fn →
    ∃ t, exec (.tred p h v) s = .next t ∧
      (∀ a, (t.core (Site.no p)).oc.read a =
        (rowWrite (s.core (Site.no p)) (.oc (((s.ctx p).hdr.ocBase + line.toNat) * 256) (st.toNat * 256)) 4 0
          (if v.ext.getLsbD 4 then 32 else 0)
          ((List.range 32).map (fun x => Red.treeOf fn false 5 ((List.range 32).map (fun y =>
            if v.ext.getLsbD 3 then taGet (s.core (Site.no p)) n.toNat y x else taGet (s.core (Site.no p)) n.toNat x y))))).oc.read a) ∧
      (t.core (Site.no p)).ta = (s.core (Site.no p)).ta ∧ (t.core (Site.no p)).lmem = (s.core (Site.no p)).lmem ∧
      t.ctx p = ((s.issued p h (tredPlan s p h v)).ctx p).goto ((s.ctx p).pos + 1) ∧ t.opFrame s p) ∧
  (∀ (s : State) (p : Site) (h : OpHead) (v : VecArgs) (n : BitVec 4) (rs : BitVec 11) (src : RowPlace) (op : TbinOp),
    s.issues p h (tbinPlan s p h v) = true → (s.ctx p).staysIn = true → v.d = .ta n rs →
    placeOf (s.core (Site.no p)) p.guest 0 v.a = some src → tbinOp v.ext.toNat = some op →
    ∃ t, exec (.tbin p h v) s = .next t ∧
      (∀ i j, i < 32 → j < 32 → taGet (t.core (Site.no p)) n.toNat i j =
        Tbin.apply op (taGet (s.core (Site.no p)) n.toNat i j)
          ((rowRead (s.core (Site.no p)) src 4 0).getD ((if v.ext.getLsbD 4 then 32 else 0) + (if v.ext.getLsbD 3 then j else i)) 0#32)) ∧
      (∀ a, a < n.toNat * 4096 ∨ n.toNat * 4096 + 4096 ≤ a →
        (t.core (Site.no p)).ta.read a = (s.core (Site.no p)).ta.read a) ∧
      (t.core (Site.no p)).lmem = (s.core (Site.no p)).lmem ∧ (t.core (Site.no p)).oc = (s.core (Site.no p)).oc ∧
      t.ctx p = ((s.issued p h (tbinPlan s p h v)).ctx p).goto ((s.ctx p).pos + 1) ∧ t.opFrame s p)

/-- LSMOV, LSMOV FILL, DLOAD and DSTORE: the lines written and the descriptor queued. Each that issues and does not end its routine
completes. LSMOV gives every byte of the NLINES destination lines the byte of the source lines at the same place when the two runs are
disjoint or the same; where they overlap the destination bytes are free values (the model's reading, log 24). FILL writes the routine's
constant to every word of the destination lines. Every byte outside the destination lines reads as before, and the operand cache, tile
registers and registers stay. DLOAD and DSTORE put at the end of the granted channel's queue the descriptor that stands in the named
quarter of the line, with the register offsets added to its addresses, from this core, context and grant; every other channel stays, and
no memory of the core changes yet. Everything outside the core, its governor, the counters and the channel stays. -/
def Obligations.LocalMovesComplete : Prop :=
  (∀ (s : State) (p : Site) (h : OpHead) (a : LsmovArgs) (src dst n : Nat),
    s.issues p h (lsmovPlan s p h a) = true → (s.ctx p).staysIn = true → src = (s.ctx p).line a.src * 256 →
    dst = (s.ctx p).line a.dst * 256 → n = (a.nlinesM1.toNat + 1) * 256 →
    ∃ t, exec (.lsmov p h a) s = .next t ∧
      (src + n ≤ dst ∨ dst + n ≤ src ∨ src = dst →
        ∀ b, b < n → (t.core (Site.no p)).lmem.read (dst + b) = (s.core (Site.no p)).lmem.read (src + b)) ∧
      (∀ b, b < dst ∨ dst + n ≤ b → (t.core (Site.no p)).lmem.read b = (s.core (Site.no p)).lmem.read b) ∧
      t.ctx p = ((s.issued p h (lsmovPlan s p h a)).ctx p).goto ((s.ctx p).pos + 1) ∧
      { (t.core (Site.no p)).rest with lmem := (s.core (Site.no p)).lmem } = (s.core (Site.no p)).rest ∧
      { t with free := s.free }.opFrame s p) ∧
  (∀ (s : State) (p : Site) (h : OpHead) (a : LsmovArgs) (dst n : Nat) (k : Word),
    s.issues p h (lsmovFillPlan s p h a) = true → (s.ctx p).staysIn = true → dst = (s.ctx p).line a.dst * 256 →
    n = (a.nlinesM1.toNat + 1) * 256 → constAt (s.core (Site.no p)) (s.ctx p).hdr a.const.toNat = some k →
    ∃ t, exec (.lsmovFill p h a) s = .next t ∧
      (∀ i, 4 * i < n → (t.core (Site.no p)).lmem.readLE (dst + 4 * i) 4 = k.toNat) ∧
      (∀ b, b < dst ∨ dst + n ≤ b → (t.core (Site.no p)).lmem.read b = (s.core (Site.no p)).lmem.read b) ∧
      t.ctx p = ((s.issued p h (lsmovFillPlan s p h a)).ctx p).goto ((s.ctx p).pos + 1) ∧
      { (t.core (Site.no p)).rest with lmem := (s.core (Site.no p)).lmem } = (s.core (Site.no p)).rest ∧ t.opFrame s p) ∧
  (∀ (s : State) (p : Site) (h : OpHead) (a : DmaOpArgs) (load : Bool) (pl : Plan),
    pl = dmaPlan s p h (if load then 0x10 else 0x11) a → s.issues p h pl = true → (s.ctx p).staysIn = true →
    ∃ t ch, (if load then exec (.dload p h a) s else exec (.dstore p h a) s) = .next t ∧
      grantChan (s.core (Site.no p)) (s.ctx p).hdr a.chan.toNat = some ch ∧
      (∃ j : DmaJob, (t.chan ch).queue = (s.chan ch).queue ++ [j] ∧ j.desc = opDesc (s.core (Site.no p)) (s.ctx p) a ∧
        j.from' = .core (Site.no p) p.guest a.chan.toNat 0 ∧ j.slot = (s.ctx p).slot) ∧
      (∀ c, c ≠ ch → t.chan c = s.chan c) ∧
      t.ctx p = ((s.issued p h pl).ctx p).goto ((s.ctx p).pos + 1) ∧ (t.core (Site.no p)).rest = (s.core (Site.no p)).rest ∧
      { t with dma := s.dma, domains := s.domains }.opFrame s p ∧
      (s.awake (dieKey (16 + ch / 32)) = true → t.domains = s.domains)) ∧
  (∀ (c : Core) (t : Ctx) (a : DmaOpArgs) (d : DmaDesc),
    d = parseDesc (rdBytes c.lmem.read (t.line a.line * 256 + a.quarter.toNat * 64) 64) →
    (opDesc c t a).len = d.len ∧ (opDesc c t a).op = d.op ∧
    (d.src / 2 ^ 62 = 3 → (opDesc c t a).src = (d.src + (t.sreg a.lreg).toNat * 256) % 2 ^ 64) ∧
    (d.src / 2 ^ 62 ≠ 3 → (opDesc c t a).src = (d.src + (t.sreg a.mreg).toNat * 256) % 2 ^ 64))

/-- QUANT and PINWHEEL: everything they write. Each that issues and does not end its routine completes. QUANT writes to local store
exactly the codes plane by plane, the block words, the kite words, the directory word, the descriptor's KITE_WORDS and the summary word of
its tile, in that order; S[KREG] becomes W, the number of kite words of the tile; QUANT_TILES is counted. Bytes outside those writes read
as before. PINWHEEL writes word (r, c) of tile i of its window group with lane 64 i + c of rotated line r, and nothing else; the windows
of the group are counted under the layer and the axis. Neither changes the operand cache, the tile registers, the tile queue or another
register; everything outside the core, its governor, the counters and (for QUANT) its slot's policy record stays. -/
def Obligations.QuantAndPinwheelComplete : Prop :=
  (∀ (s : State) (p : Site) (h : OpHead) (a : QuantArgs) (q : QuantIn) (bs : List QBlk),
    s.issues p h (quantPlan s p h a) = true → (s.ctx p).staysIn = true → quantIn (s.core (Site.no p)) (s.ctx p) a = some q →
    bs = quantBlocks (s.core (Site.no p)) (s.ctx p) a q →
    ∃ t, exec (.quant p h a) s = .next t ∧
      (t.core (Site.no p)).lmem = (quantWrites (s.ctx p) a q bs).foldl (fun m x => m.writeList x.1 x.2) (s.core (Site.no p)).lmem ∧
      (∀ b, (∀ x ∈ quantWrites (s.ctx p) a q bs, b < x.1 ∨ x.1 + x.2.length ≤ b) →
        (t.core (Site.no p)).lmem.read b = (s.core (Site.no p)).lmem.read b) ∧
      (t.ctx p).pos = (((s.ctx p)).goto ((s.ctx p).pos + 1)).pos ∧
      ((s.ctx p).loops = [] → (t.ctx p).sregs =
        ((s.ctx p).setSreg a.kreg (BitVec.ofNat 32 ((bs.map (fun b => b.kites.length)).sum))).sregs) ∧
      { (t.core (Site.no p)).rest with lmem := (s.core (Site.no p)).lmem } = (s.core (Site.no p)).rest ∧
      { t with slots := s.slots }.opFrame s p) ∧
  (∀ (s : State) (p : Site) (h : OpHead) (a : PinwheelArgs) (da : Nat) (d : TDesc) (ls : List (List Word × Nat)),
    s.issues p h (pinwheelPlan s p h a) = true → (s.ctx p).staysIn = true →
    descAt (s.core (Site.no p)) (s.ctx p).hdr a.desc.toNat = some (da, d) →
    ls = pinwheelLines (s.core (Site.no p)) (s.ctx p) a d (s.slot (s.ctx p).slot).seed (s.core (Site.no p)).step.toNat →
    ∃ t, exec (.pinwheel p h a) s = .next t ∧
      (∀ i r c, i < groupTiles d.rotN → r < 64 → c < 64 →
        BitVec.ofNat 32 ((t.core (Site.no p)).lmem.readLE ((s.ctx p).line a.dst * 256 + i * 16384 + r * 256 + c * 4) 4) =
          ((ls.getD r ([], 0)).1).getD (64 * i + c) 0#32) ∧
      (∀ b, b < (s.ctx p).line a.dst * 256 ∨ (s.ctx p).line a.dst * 256 + groupTiles d.rotN * 16384 ≤ b →
        (t.core (Site.no p)).lmem.read b = (s.core (Site.no p)).lmem.read b) ∧
      t.ctx p = ((s.issued p h (pinwheelPlan s p h a)).ctx p).goto ((s.ctx p).pos + 1) ∧
      { (t.core (Site.no p)).rest with lmem := (s.core (Site.no p)).lmem } = (s.core (Site.no p)).rest ∧ t.opFrame s p)

/-- MATMUL and WMATMUL issue; OP_COMPLETE ends the oldest op of a unit. A MATMUL that issues stands in the nibble array with its
descriptors, tiles and registers as at its issue, and no chunk formed; a WMATMUL that issues stands in the wide array in the same way.
OP_COMPLETE of a unit that holds no op, of a core whose clocks stand, or of array work whose context does not hold the core changes nothing.
With the oldest op of a unit paid for: a plain op leaves the context and its ST token rises by 1. A MATMUL with all chunks formed leaves its
window to the context with DEST HOLD and, with DEST TQ, fills its reserved tile-queue entry, the newest FULL one, with its tag. One whose
last chunk's final pass would start now, operands from local store, ends in a new FULL entry with that chunk formed, when the queue has room
for its context, and else stays with no pass started and counts TQ_FULL_STALL. A WMATMUL's last chunk ends in its reserved entry, or writes
its 4,096 words to its destination lines and nothing else. No other memory of the core changes at these completions. -/
def Obligations.ProductsAndCompletions : Prop :=
  (∀ (s : State) (p : Site) (h : OpHead) (a : MatmulArgs), s.issues p h (matPlan s p h a) = true → (s.ctx p).staysIn = true →
    ∃ t, exec (.matmul p h a) s = .next t ∧
      t.stepsCtx s p h (matPlan s p h a) (fun c => { c with winOpen := winAfter (s.ctx p) a }) ∧
      (matPlan s p h a).finish = .matmul (matStart (s.ctx p) a) ∧ (matStart (s.ctx p) a).done = 0) ∧
  (∀ (s : State) (p : Site) (h : OpHead) (a : WmatmulArgs), s.issues p h (wmatPlan s p h a) = true → (s.ctx p).staysIn = true →
    ∃ t, exec (.wmatmul p h a) s = .next t ∧ t.stepsCtx s p h (wmatPlan s p h a) id ∧
      (wmatPlan s p h a).finish = .wide (wideStart (s.ctx p) a) ∧ (wideStart (s.ctx p) a).done = 0) ∧
  (∀ (s : State) (p : Site) (u : OpUnit), (s.ctx p).oldest u = none ∨ s.coreActive (Site.no p) = false ∨
    (((s.ctx p).oldest u).any InFlight.needsCore = true ∧ (s.core (Site.no p)).guestIssuing ≠ p.guest) →
    exec (.opComplete p u) s = .next s) ∧
  (∀ (s : State) (p : Site) (u : OpUnit) (f : InFlight), (s.ctx p).oldest u = some f → f.units = 0 → s.coreActive (Site.no p) = true →
    (f.needsCore = false ∨ (s.core (Site.no p)).guestIssuing = p.guest) →
    f.finish = .plain → f.doneCtr = none → (s.ctx p).status = .running → (∀ k, f.tok = some k → (s.ctx p).token k < 15) →
    ∃ t, exec (.opComplete p u) s = .next t ∧ (t.ctx p).inflight = (s.ctx p).inflight.erase f ∧
      (∀ k, (t.ctx p).token k = (s.ctx p).token k + (if f.tok = some k then 1 else 0)) ∧
      { t.ctx p with inflight := (s.ctx p).inflight, tokens := (s.ctx p).tokens } = s.ctx p ∧
      (t.core (Site.no p)).rest = (s.core (Site.no p)).rest ∧ t.opFrame s p) ∧
  (∀ (s : State) (p : Site) (f : InFlight) (m : MatRun) (da : Nat) (d : TDesc), (s.ctx p).oldest .nibble = some f → f.units = 0 →
    s.coreActive (Site.no p) = true → (s.core (Site.no p)).guestIssuing = p.guest → f.finish = .matmul m →
    m.descA (s.core (Site.no p)) = some (da, d) → f.tok = none → f.doneCtr = none →
    ∃ t, exec (.opComplete p .nibble) s = .next t ∧
      (m.args.nchunkM1.toNat < m.done → m.args.dest = 0#3 →
        (t.ctx p).win = some { acc := m.acc, wide := m.wide, lm := (d.layer, d.axis) } ∧
        (t.ctx p).inflight = (s.ctx p).inflight.erase f ∧ (t.core (Site.no p)).rest = (s.core (Site.no p)).rest) ∧
      (∀ id, m.args.nchunkM1.toNat < m.done → m.args.dest = 1#3 → m.entry = some id →
        (t.core (Site.no p)).tq = (s.core (Site.no p)).tq.filter (fun e => e.id != id) ++
          [{ id := id, guest := p.guest, full := true, acc := m.acc, tag := tqTag m.out m.mb (winNf m.acc) m.wide p.guest }] ∧
        (t.ctx p).inflight = (s.ctx p).inflight.erase f ∧ (t.core (Site.no p)).lmem = (s.core (Site.no p)).lmem) ∧
      (∀ ba e x y, m.done = m.args.nchunkM1.toNat → m.args.dest = 1#3 → m.entry = none → m.args.aJ = false → m.args.bJ = false →
        m.descB (s.core (Site.no p)) = some (ba, e) → s.matIn p (some (da, d)) false m.args.a.toNat (m.aTile + m.done) = some x →
        s.matIn p (some (ba, e)) false m.args.b.toNat (m.bTile + m.done) = some y →
        (m.owe = some 0 → (s.core (Site.no p)).tqRoom p.guest = true →
          ∃ q : TqEntry, (t.core (Site.no p)).tq = (s.core (Site.no p)).tq.filter (fun e => e.id != (s.core (Site.no p)).tqNext) ++ [q] ∧
            q.full = true ∧ q.guest = p.guest ∧ q.acc = (s.formChunk p m d x y).2.acc ∧
            q.tag = tqTag m.out m.mb (winNf q.acc) (s.formChunk p m d x y).2.wide p.guest ∧
            (t.core (Site.no p)).lmem = (s.core (Site.no p)).lmem) ∧
        (m.owe.getD (chunkKind x y).energy.1 ≤ (chunkKind x y).lastPass → (s.core (Site.no p)).tqRoom p.guest = false →
          (t.core (Site.no p)).tq = (s.core (Site.no p)).tq ∧ t.gov (dieOf (Site.no p)) = s.gov (dieOf (Site.no p)) ∧
          (∃ g ∈ (t.ctx p).inflight, g.finish = .matmul { m with owe := some (m.owe.getD (chunkKind x y).energy.1) }) ∧
          t.counters = ctrAdd s.counters (ckLayer Ctr.tqFullStall p d.layer d.axis) 1))) ∧
  (∀ (s : State) (p : Site) (f : InFlight) (w : WideRun), (s.ctx p).oldest .wide = some f → f.units = 0 → s.coreActive (Site.no p) = true →
    (s.core (Site.no p)).guestIssuing = p.guest → f.finish = .wide w → f.tok = none → f.doneCtr = none → s.wideFree p = true →
    w.done = w.args.kchM1.toNat → w.owe = 0 →
    ∃ t, exec (.opComplete p .wide) s = .next t ∧
      (∀ id, w.args.dest = 0#2 → w.entry = some id →
        (t.core (Site.no p)).tq = (s.core (Site.no p)).tq.filter (fun e => e.id != id) ++
          [{ id := id, guest := p.guest, full := true, acc := ofWinList (w.chunk (s.core (Site.no p))).1
             tag := tqTag w.out w.mb (winNf (ofWinList (w.chunk (s.core (Site.no p))).1)) true p.guest }] ∧
        (t.core (Site.no p)).lmem = (s.core (Site.no p)).lmem ∧ (t.ctx p).inflight = (s.ctx p).inflight.erase f) ∧
      (w.args.dest = 0#2 → w.entry = none → (s.core (Site.no p)).tqRoom p.guest = false →
        (t.core (Site.no p)).tq = (s.core (Site.no p)).tq ∧ (t.core (Site.no p)).lmem = (s.core (Site.no p)).lmem ∧
        (∃ g ∈ (t.ctx p).inflight, g.finish = .wide w) ∧
        t.counters = ctrAdd s.counters (ckLayer Ctr.tqFullStall p w.lm.1 w.lm.2) 1) ∧
      (w.args.dest = 1#2 →
        (∀ i, i < 4096 → BitVec.ofNat 32 ((t.core (Site.no p)).lmem.readLE (w.dLine * 256 + 4 * i) 4) =
          (w.chunk (s.core (Site.no p))).1.getD i 0#32) ∧
        (∀ b, b < w.dLine * 256 ∨ w.dLine * 256 + 16384 ≤ b → (t.core (Site.no p)).lmem.read b = (s.core (Site.no p)).lmem.read b) ∧
        (t.core (Site.no p)).tq = (s.core (Site.no p)).tq ∧ (t.ctx p).inflight = (s.ctx p).inflight.erase f))

/-- The exact order of products: block terms, chunks and wide chains. A group sum of the wide array is the pairwise tree of its 16
products, and a wide chain over 16 n elements adds its n group sums in ascending order from +0.0. A chunk of a tile fall-back adds to each
window element its wide chain with one addition; 64 further contraction indices of a WMATMUL go on with the element's own chain, group after
group. In the nibble array a pair with a non-finite block adds one NaN in pass 1, a pair with a
zero block adds nothing, a pair with a fall-back block adds 32 products in pass 1, and a block with fewer planes than the pass adds
nothing; every other pair adds its integer sum times the factor and then, in pass 1, the side terms of its kites in ascending order. The
worked example of chapter 5 comes out: a chunk that starts at +0.0 with its two blocks ends at 2.546875. -/
def Obligations.ProductOrder : Prop :=
  (∀ (a b : List (BitVec 19)), a.length = 16 → b.length = 16 →
    ∀ q, q = (fun i => Fp.mulRne (Fp.ofF19 (a.getD i 0#19)) (Fp.ofF19 (b.getD i 0#19))) →
    Prod.groupSum a b =
      Fp.addRne
        (Fp.addRne (Fp.addRne (Fp.addRne (q 0) (q 1)) (Fp.addRne (q 2) (q 3))) (Fp.addRne (Fp.addRne (q 4) (q 5)) (Fp.addRne (q 6) (q 7))))
        (Fp.addRne (Fp.addRne (Fp.addRne (q 8) (q 9)) (Fp.addRne (q 10) (q 11)))
          (Fp.addRne (Fp.addRne (q 12) (q 13)) (Fp.addRne (q 14) (q 15))))) ∧
  (∀ (n : Nat) (a b : List (BitVec 19)), a.length = 16 * n → b.length = 16 * n →
    Prod.wideChain a b =
      (List.range n).foldl (fun acc g => Fp.addRne acc (Prod.groupSum ((a.drop (16 * g)).take 16) ((b.drop (16 * g)).take 16))) 0#32) ∧
  (∀ (a b : List (List (BitVec 19))) (i j : Nat), a.length = 64 → b.length = 64 → i < 64 → j < 64 →
    (Prod.wideTile a b).getD (64 * i + j) 0#32 = Prod.wideChain (a.getD i []) (b.getD j [])) ∧
  (∀ (acc : List Word) (la lb : List (List Word)) (rnd : Bool) (i : Nat), acc.length = 4096 → la.length = 64 → lb.length = 64 → i < 4096 →
    (Prod.wideChunkLines acc la lb rnd).1.getD i 0#32 =
      Fp.addRne (acc.getD i 0#32) ((Prod.wideTile (Prod.toF19Lines la rnd).1 (Prod.toF19Lines lb rnd).1).getD i 0#32)) ∧
  (∀ (acc : List Word) (a b : List (List (BitVec 19))) (i j : Nat), acc.length = 4096 → a.length = 64 → b.length = 64 →
    (∀ l ∈ a, l.length = 64) → i < 64 → j < 64 →
    (Prod.wideOn acc a b).getD (64 * i + j) 0#32 = (List.range 4).foldl (fun v g =>
      Fp.addRne v (Prod.groupSum (((a.getD i []).drop (16 * g)).take 16) (((b.getD j []).drop (16 * g)).take 16))) (acc.getD (64 * i + j) 0#32)) ∧
  (∀ (acc gab : Word) (ta tb : OpTile) (a b : Blk) (k : Nat), 1 ≤ k →
    (a.kind = .nonfinite ∨ b.kind = .nonfinite →
      Prod.blockTerm acc ta tb a b k gab = if k = 1 then 0x7FC00000#32 else acc) ∧
    (a.kind ≠ .nonfinite → b.kind ≠ .nonfinite → (a.kind = .zero ∨ b.kind = .zero) → Prod.blockTerm acc ta tb a b k gab = acc) ∧
    (a.kind = .normal ∨ a.kind = .const → b.kind = .normal ∨ b.kind = .const → a.p < k → Prod.blockTerm acc ta tb a b k gab = acc) ∧
    (a.kind = .normal ∨ a.kind = .const → b.kind = .normal ∨ b.kind = .const → k ≤ a.p → 1 < k →
      Prod.blockTerm acc ta tb a b k gab = Fp.addRne acc (Fp.mulRne (Fp.ofInt (Prod.intSum ta.fmt tb.fmt a b k))
        (Fp.mulRne (Fp.mulRne (Prod.termScale a k) (Prod.termScale b 1)) gab)))) ∧
  (∀ (ta tb : OpTile) (a b : Blk),
    ta = { blks := [], fmt := Coding.fmtB4, g := 0x3F800000#32, bws := [] } → tb = ta →
    a = { kind := .normal, e := 0x7D, m := 0, p := 1, planes := [[2, 1, 9, 3, 4, 8] ++ List.replicate 26 0], kites := [(5, 0x40C0)] } →
    b = { kind := .normal, e := 0x7A, m := 2, p := 1, planes := [[1, 0xB, 5, 8] ++ List.replicate 28 0], kites := [(3, 0x4060)] } →
    Prod.termScale a 1 = 0x3E800000#32 ∧ Prod.blockTerm 0#32 ta tb a b 1 0x3F800000#32 = 0x40230000#32)

/-- SEND, RECV, RFREE, FWD and SYNC: the message sent and the credits. Each that issues and does not end its routine completes. SEND puts
one DATA message on its way to the endpoint's destination and channel, with the words of local store from SRC on, SEQ, END and NF, and the
CRC of its header as HCHECK; on an endpoint that is not a JOIN one it takes one credit; on a JOIN one the segment joins the open tile of the send log with stream, plane, TEND and format in the ARG, and only the one that opens a tile takes a credit; NF sets the NF mark of the
job slot. RECV hands over the oldest message that waits: S[D] is the first line of its ring slot and S[L] its LENGTH with END in bit 16
and NF in bit 17 (outside every loop; at a body's end the loop's STEP follows); the message is then held. RFREE stands in the router until
its completion, which frees the oldest held slot and sends its sender one CREDIT of 1 on the same channel. FWD sends the oldest held
message's words, SEQ, END and NF on to an endpoint for one credit. SYNC to this core adds its count to the token, and to another
destination sends one TOKEN message with the token and the count. Memories, other channels and endpoints, other cores and the rest of the
block stay. -/
def Obligations.CommOpsComplete : Prop :=
  (∀ (s : State) (p : Site) (h : OpHead) (a : SendArgs) (e : Endp), s.issues p h (sendPlan s p h a) = true → (s.ctx p).staysIn = true →
    e = (s.ctx p).endp a.ep.toNat →
    ∃ t m, exec (.send p h a) s = .next t ∧ t.wire = s.wire ++ [m] ∧ m.destDev = BitVec.ofNat 14 e.dev ∧
      m.destX = BitVec.ofNat 6 e.x ∧ m.destY = BitVec.ofNat 6 e.y ∧ m.channel = BitVec.ofNat 8 e.ch ∧ m.tc = BitVec.ofNat 2 e.tc ∧
      m.kind = 0#4 ∧ m.srcDev = s.modId ∧ m.slot = BitVec.ofNat 2 (s.ctx p).slot ∧ m.endf = a.endf ∧ m.nf = a.nf ∧
      m.seq.toNat = (((s.ctx p).sreg a.seqReg).toNat + a.seqOff.toNat) % 65536 ∧
      m.payload.length = ((s.ctx p).sreg a.lreg + BitVec.ofNat 32 a.len.toNat).toNat ∧
      (∀ i, i < m.payload.length → m.payload.getD i 0#32 =
        BitVec.ofNat 32 ((s.core (Site.no p)).lmem.readLE (4 * ((s.ctx p).word a.src + i)) 4)) ∧
      m.hcheck = crc16 (leBytes 14 (msgHeader m)) ∧
      (e.join = false → (t.ctx p).endp a.ep.toNat = { e with credits := e.credits - 1 } ∧ 0 < e.credits ∧ m.rsd = false ∧ m.arg = 0#12) ∧
      (e.join = true → m.arg.toNat = a.stream.toNat + 4 * a.planeM1.toNat + 16 * b2n a.tend + 32 * a.wfmt.toNat ∧
        (∀ l, e.openTile = some l → m.rsd = l.resent ∧ ((t.ctx p).endp a.ep.toNat).credits = e.credits ∧
          ∃ l' ∈ ((t.ctx p).endp a.ep.toNat).log, l'.first = l.first ∧ l'.segs = l.segs ++ [sendSeg (s.ctx p) a] ∧ l'.closed = a.tend) ∧
        (e.openTile = none → m.rsd = false ∧ 0 < e.credits ∧ ((t.ctx p).endp a.ep.toNat).credits = e.credits - 1 ∧
          ∃ src, ((t.ctx p).endp a.ep.toNat).log = e.log ++ [TileLog.mk m.seq.toNat [sendSeg (s.ctx p) a] a.tend false src])) ∧
      (∀ j, j ≠ a.ep.toNat → (t.ctx p).endp j = (s.ctx p).endp j) ∧
      t.ctx p = { (s.issued p h (sendPlan s p h a)).ctx p with eps := (t.ctx p).eps }.goto ((s.ctx p).pos + 1) ∧
      t.slots = (if a.nf then (s.issued p h (sendPlan s p h a)).modSlot (s.ctx p).slot (fun x => { x with nf := true })
        else s.issued p h (sendPlan s p h a)).slots ∧ (a.nf = true → (t.slot (s.ctx p).slot).nf = true) ∧
      (t.core (Site.no p)).rest = (s.core (Site.no p)).rest ∧ { t with wire := s.wire, slots := s.slots }.opFrame s p) ∧
  (∀ (s : State) (p : Site) (h : OpHead) (ch : BitVec 8) (d l : BitVec 4), s.issues p h (recvPlan (s.ctx p) h ch d l) = true →
    (s.ctx p).staysIn = true →
    ∃ t m rest, exec (.recv p h ch d l) s = .next t ∧ ((s.ctx p).chan ch.toNat).waiting = m :: rest ∧
      ((t.ctx p).chan ch.toNat).waiting = rest ∧ ((t.ctx p).chan ch.toNat).held = ((s.ctx p).chan ch.toNat).held ++ [m] ∧
      t.ctx p = (({ (s.issued p h (recvPlan (s.ctx p) h ch d l)).ctx p with chans := (t.ctx p).chans }.setSreg d
        (BitVec.ofNat 32 (((s.ctx p).chan ch.toNat).slotAt m.slot / 256))).setSreg l
        (BitVec.ofNat 32 (m.len + b2n m.endf * 65536 + b2n m.nf * 131072))).goto ((s.ctx p).pos + 1) ∧ (∀ j, j ≠ ch.toNat → (t.ctx p).chan j = (s.ctx p).chan j) ∧
      (t.core (Site.no p)).rest = (s.core (Site.no p)).rest ∧ t.opFrame s p) ∧
  (∀ (s : State) (p : Site) (h : OpHead) (ch : BitVec 8), s.issues p h (rfreePlan (s.ctx p) h ch) = true → (s.ctx p).staysIn = true →
    ∃ t, exec (.rfree p h ch) s = .next t ∧ t.stepsCtx s p h (rfreePlan (s.ctx p) h ch) id) ∧
  (∀ (s : State) (p : Site) (f : InFlight) (ch : Nat) (x : Held) (rest : List Held), (s.ctx p).oldest .router = some f → f.units = 0 →
    s.coreActive (Site.no p) = true → f.finish = .freeSlot ch → f.tok = none → f.doneCtr = none →
    ((s.ctx p).chan ch).held = x :: rest →
    ∃ t, exec (.opComplete p .router) s = .next t ∧ ((t.ctx p).chan ch).held = rest ∧
      (t.ctx p).inflight = (s.ctx p).inflight.erase f ∧ (t.core (Site.no p)).rest = (s.core (Site.no p)).rest ∧
      (x.srcX = 0x3F#6 → t.wire = s.wire) ∧ (x.srcX ≠ 0x3F#6 → ∃ m, t.wire = s.wire ++ [m] ∧ m.kind = 2#4 ∧ m.arg = 1#12 ∧ m.destDev = x.srcDev ∧
      m.destX = x.srcX ∧ m.destY = x.srcY ∧ m.channel = BitVec.ofNat 8 ch ∧ m.payload = [])) ∧
  (∀ (s : State) (p : Site) (h : OpHead) (ch : BitVec 8) (ep : BitVec 6) (e : Endp), s.issues p h (fwdPlan (s.ctx p) h ch ep) = true →
    (s.ctx p).staysIn = true → e = (s.ctx p).endp ep.toNat →
    ∃ t m x, exec (.fwd p h ch ep) s = .next t ∧
      ((s.ctx p).chan ch.toNat).held[pendingFree (s.ctx p) ch.toNat]? = some x ∧ t.wire = s.wire ++ [m] ∧
      m.destDev = BitVec.ofNat 14 e.dev ∧ m.destX = BitVec.ofNat 6 e.x ∧ m.destY = BitVec.ofNat 6 e.y ∧ m.channel = BitVec.ofNat 8 e.ch ∧
      m.seq = x.seq ∧ m.endf = x.endf ∧ m.nf = x.nf ∧ m.payload.length = x.len ∧
      (∀ i, i < x.len → m.payload.getD i 0#32 =
        BitVec.ofNat 32 ((s.core (Site.no p)).lmem.readLE (((s.ctx p).chan ch.toNat).slotAt x.slot + 4 * i) 4)) ∧
      (t.ctx p).endp ep.toNat = { e with credits := e.credits - 1 } ∧ (t.core (Site.no p)).rest = (s.core (Site.no p)).rest ∧
      { t with wire := s.wire }.opFrame s p) ∧
  (∀ (s : State) (p : Site) (h : OpHead) (ep : BitVec 6) (token count : BitVec 4), s.issues p h (syncPlan s p h ep token count) = true →
    (s.ctx p).staysIn = true →
    ∃ t, exec (.sync p h ep token count) s = .next t ∧
      (toSelf s p ((s.ctx p).endp ep.toNat) = true → t.stepsCtx s p h (syncPlan s p h ep token count) (fun c =>
        c.setToken token.toNat (c.token token.toNat + count.toNat))) ∧
      (toSelf s p ((s.ctx p).endp ep.toNat) = false → ∃ m, t.wire = s.wire ++ [m] ∧ m.kind = 1#4 ∧ m.payload = [] ∧
        m.destDev = BitVec.ofNat 14 ((s.ctx p).endp ep.toNat).dev ∧ m.destX = BitVec.ofNat 6 ((s.ctx p).endp ep.toNat).x ∧
        m.destY = BitVec.ofNat 6 ((s.ctx p).endp ep.toNat).y ∧ m.arg.toNat = token.toNat + 16 * count.toNat ∧
        (t.core (Site.no p)).rest = (s.core (Site.no p)).rest ∧ { t with wire := s.wire }.opFrame s p))

/-- DATA, TOKEN and CREDIT messages that reach a core, and the messages that are discarded. A message is for a core of this module whose
clocks run and whose slot is bound, with a good HCHECK, outside the quiesce of slot 0. A DATA message that fits writes its words to ring
slot i mod SLOTS, i counting the messages of the binding, waits behind the others and counts MSG_RECEIVED; every byte outside that slot's
words, the registers and the other channels stay. The first segment of a tile that a JOIN channel has room for takes a tile slot with its
words and its sender. TOKEN adds its count to the token of a running context, or stops the context with a token fault if the token would
pass 15. CREDIT returns its count to the endpoint whose destination and channel are the message's source and channel. A message for
another module changes nothing; one with a bad HCHECK counts HDR_CHECK_DROP, and a DATA message on an unbound channel counts
MSG_UNBOUND_DROP: neither changes any core. -/
def Obligations.MessagesReachTheirContext : Prop :=
  (∀ (s : State) (m : Msg) (p : Site) (ch : Chan) (i : Nat), s.takes m p → ch = (s.ctx p).chan m.channel.toNat →
    ch.ring = true → m.payload.length ≤ ch.words → ch.waiting.length + ch.held.length < ch.slots → i = ch.arrived % max 1 ch.slots →
    ∃ t, exec (.ringMessage m) s = .next t ∧
      (∀ j, j < m.payload.length → BitVec.ofNat 32 ((t.core (Site.no p)).lmem.readLE (ch.slotAt i + 4 * j) 4) = m.payload.getD j 0#32) ∧
      (∀ b, b < ch.slotAt i ∨ ch.slotAt i + 4 * m.payload.length ≤ b →
        (t.core (Site.no p)).lmem.read b = (s.core (Site.no p)).lmem.read b) ∧
      (t.ctx p).chan m.channel.toNat = { ch with
        arrived := ch.arrived + 1
        waiting := ch.waiting ++ [Held.mk i m.srcDev m.srcX m.srcY m.seq m.payload.length m.endf m.nf] } ∧
      (∀ j, j ≠ m.channel.toNat → (t.ctx p).chan j = (s.ctx p).chan j) ∧ (t.ctx p).sregs = (s.ctx p).sregs ∧
      t.counters = ctrAdd s.counters (ckCtx Ctr.msgReceived p) 1 ∧ { t with wire := s.wire, free := s.free }.opFrame s p ∧
      (m.endf = false ∨ m.srcX ≠ 0x3F#6 ∨ m.srcY ≠ 0x3F#6 → t.wire = s.wire.erase m ∧ t.free = s.free) ∧
      (m.endf = true → m.srcX = 0x3F#6 → m.srcY = 0x3F#6 → ∃ n, t.wire = s.wire.erase m ++ [n] ∧ n.kind = 2#4 ∧ n.channel = 0xFD#8 ∧
        n.destDev = m.srcDev)) ∧
  (∀ (s : State) (m : Msg) (p : Site) (ch : Chan) (tile : Nat) (d : TDesc), s.takes m p → ch = (s.ctx p).chan m.channel.toNat →
    ch.bound = true → ch.join = true → d = s.joinDesc p ch → m.arg.toNat % 4 = 0 → m.arg.toNat / 16 % 2 = 0 →
    tile = (m.seq.toNat + 65536 - d.seqBase) % 65536 / 128 → m.seq.toNat = firstSeq d tile % 65536 →
    (∀ j ∈ (s.core (Site.no p)).joiner, ¬ (j.ch = m.channel.toNat ∧ j.guest = p.guest ∧ j.tile = tile)) →
    ((s.core (Site.no p)).joiner.filter (fun j => decide (j.ch = m.channel.toNat) && j.guest == p.guest)).length < ch.slots →
    (s.core (Site.no p)).joiner.length < 8 →
    ∃ t j, exec (.joinSegment m) s = .next t ∧ (t.core (Site.no p)).joiner = (s.core (Site.no p)).joiner ++ [j] ∧
      j.ch = m.channel.toNat ∧ j.guest = p.guest ∧ j.tile = tile ∧ j.mark = .joining ∧
      SMap.get [] j.codes (m.arg.toNat / 4 % 4) = m.payload ∧ j.senders = [{ dev := m.srcDev, x := m.srcX, y := m.srcY }] ∧
      (t.core (Site.no p)).lmem = (s.core (Site.no p)).lmem ∧ t.wire = s.wire.erase m) ∧
  (∀ (s : State) (m : Msg) (p : Site), s.takes m p → (s.ctx p).status = .running →
    ∃ t, exec (.tokenMessage m) s = .next t ∧
      ((s.ctx p).token (m.arg.toNat % 16) + m.arg.toNat / 16 % 16 ≤ 15 →
        t.ctx p = (s.ctx p).setToken (m.arg.toNat % 16) ((s.ctx p).token (m.arg.toNat % 16) + m.arg.toNat / 16 % 16) ∧
        (t.core (Site.no p)).rest = (s.core (Site.no p)).rest ∧ { t with wire := s.wire }.opFrame s p) ∧
      (15 < (s.ctx p).token (m.arg.toNat % 16) + m.arg.toNat / 16 % 16 →
        t.ctx p = { s.ctx p with status := .faulted 0x07 } ∧
          ((s.slot (s.ctx p).slot).st ≠ .haltedBeyond → (t.slot (s.ctx p).slot).st = .halted))) ∧
  (∀ (s : State) (m : Msg) (p : Site) (ep : Nat), s.takes m p → (s.ctx p).endpFor m = some ep → ((s.ctx p).endp ep).join = false →
    ∃ t, exec (.creditMessage m) s = .next t ∧
      (t.ctx p).endp ep = { (s.ctx p).endp ep with credits := ((s.ctx p).endp ep).credits + m.arg.toNat % 256 } ∧
      (∀ j, j ≠ ep → (t.ctx p).endp j = (s.ctx p).endp j) ∧ (t.core (Site.no p)).rest = (s.core (Site.no p)).rest ∧
      { t with wire := s.wire }.opFrame s p) ∧
  (∀ (s : State) (m : Msg) (p : Site) (ep : Nat) (l : TileLog), s.takes m p → (s.ctx p).endpFor m = some ep →
    ((s.ctx p).endp ep).join = true → ((s.ctx p).endp ep).log.find? (fun x => x.closed) = some l → m.arg.toNat % 256 = 1 →
    ∃ t, exec (.creditMessage m) s = .next t ∧ (t.ctx p).endp ep =
      { (s.ctx p).endp ep with credits := ((s.ctx p).endp ep).credits + 1, log := ((s.ctx p).endp ep).log.erase l }) ∧
  (∀ (s : State) (m : Msg) (act : Instr), act = .ringMessage m ∨ act = .joinSegment m ∨ act = .tokenMessage m ∨ act = .creditMessage m →
    m.destDev = s.modId → m.destX.toNat < 48 → m.destY.toNat < 48 → s.inOrder m = true → 2 ≤ (s.domain (domKey 0 (msgCore m))).rung →
    ∃ t, exec act s = .next t ∧ t.cores = s.cores ∧ t.wire = (if s.wire.contains m then s.wire else s.wire ++ [m])) ∧
  (∀ (s : State) (m : Msg), m.destDev ≠ s.modId ∨ s.inOrder m = false →
    exec (.ringMessage m) s = .next s ∧ exec (.joinSegment m) s = .next s ∧ exec (.tokenMessage m) s = .next s ∧
      exec (.creditMessage m) s = .next s) ∧
  (∀ (s : State) (m : Msg), m.destDev = s.modId → m.destX.toNat < 48 → m.destY.toNat < 48 → s.coreActive (msgCore m) = true →
    s.inOrder m = true → s.pathAwake (s.entryCore m) (msgGoal m) = true → m.slot ≠ 0#2 → m.hcheck ≠ headerCheck m →
    ∃ t, exec (.ringMessage m) s = .next t ∧ t.cores = s.cores ∧
      ∃ e, t.events = s.events ++ [e] ∧ e.code = 0x0203 ∧
        ctrGet t.counters (ckDrop Ctr.hdrCheckDrop m) =
          ctrGet (ctrAdd s.counters (ckDrop Ctr.hdrCheckDrop m) 1) (ckDrop Ctr.hdrCheckDrop m)) ∧
  (∀ (s : State) (m : Msg) (p : Site), s.takes m p → m.slot ≠ 0#2 → ((s.ctx p).chan m.channel.toNat).bound = false →
    ∃ t e, exec (.ringMessage m) s = .next t ∧ t.cores = s.cores ∧ t.events = s.events ++ [e] ∧ e.code = 0x0203)

/-- Jigsaw resends and wide requests. A JIGSAW_RESEND that a core takes and whose tile stands in the send log of its endpoint replays
every logged segment of the tile, in order, with RSD set, without touching the routine, and leaves every core's memories. A WIDE_REQUEST
sends the 1,024 elements of the logged QUANT source as one message of STREAM 3 with the source's SFMT. One for which the endpoint keeps no
such tile sends nothing. JIGSAW_RESEND_TIMEOUT on a tile that waits for its resend moves it to the wide path, counts JIGSAW_WIDE and posts
RECONCILE; for a tensor in device memory the source can be read at once, and otherwise each sender is asked for it. On any other tile it
changes nothing. -/
def Obligations.JigsawRecovery : Prop :=
  (∀ (s : State) (m : Msg) (p : Site) (ep : Nat) (l : TileLog), s.takes m p → (s.ctx p).endpFor m = some ep →
    ((s.ctx p).endp ep).logged m.seq = some l →
    ∃ t new, exec (.jigsawResend m) s = .next t ∧ t.wire = s.wire.erase m ++ new ∧ new.length = l.segs.length ∧
      (∀ i, i < new.length → ∃ x g, new[i]? = some x ∧ l.segs[i]? = some g ∧ x.rsd = true ∧ x.kind = 0#4 ∧ x.seq = g.seq ∧
        x.arg = BitVec.ofNat 12 (g.stream + g.plane * 4 + b2n (l.closed && decide (i + 1 = l.segs.length)) * 16) ∧
        x.destDev = BitVec.ofNat 14 ((s.ctx p).endp ep).dev ∧ x.channel = BitVec.ofNat 8 ((s.ctx p).endp ep).ch ∧
        x.payload = (List.range g.len).map (fun k => BitVec.ofNat 32 ((s.core (Site.no p)).lmem.readLE (4 * (g.word + k)) 4))) ∧
      ((t.ctx p).endp ep).log = ((s.ctx p).endp ep).log.map (fun x => if x = l then { x with resent := true } else x) ∧
      (t.core (Site.no p)).rest = (s.core (Site.no p)).rest ∧
      { t.ctx p with eps := (s.ctx p).eps, purse := (s.ctx p).purse } = s.ctx p) ∧
  (∀ (s : State) (m : Msg) (p : Site) (ep line sfmt r : Nat) (l : TileLog), s.takes m p → (s.ctx p).endpFor m = some ep →
    ((s.ctx p).endp ep).logged m.seq = some l → l.src = some (line, sfmt, r) → sfmt ≤ 4 →
    ∃ t x, exec (.wideRequest m) s = .next t ∧ t.wire = s.wire.erase m ++ [x] ∧ x.kind = 0#4 ∧ x.arg.toNat = 3 + 32 * sfmt ∧ x.seq = m.seq ∧
      x.payload = (List.range (1024 * Coding.sfmtBytes sfmt)).map (fun k =>
        BitVec.ofNat 32 ((s.core (Site.no p)).lmem.readLE (4 * (line * 64 + k)) 4)) ∧
      (t.core (Site.no p)).rest = (s.core (Site.no p)).rest) ∧
  (∀ (s : State) (m : Msg) (p : Site), s.takes m p →
    (s.ctx p).endpFor m = none ∨ (∀ ep, (s.ctx p).endpFor m = some ep → ((s.ctx p).endp ep).logged m.seq = none) →
    ∃ t, exec (.jigsawResend m) s = .next t ∧ exec (.wideRequest m) s = .next t ∧ t = { s with wire := s.wire.erase m }) ∧
  (∀ (s : State) (p : Site) (ch : BitVec 8) (tile : Nat) (j : JTile) (d : TDesc),
    (s.core (Site.no p)).joiner.find? (fun x => decide (x.ch = ch.toNat) && x.guest == p.guest && decide (x.tile = tile)) = some j →
    d = s.joinDesc p ((s.ctx p).chan ch.toNat) →
    (j.mark ≠ .resend → exec (.jigsawResendTimeout p ch tile) s = .next s) ∧
    (j.mark = .resend → ∃ t k e, exec (.jigsawResendTimeout p ch tile) s = .next t ∧ k ∈ (t.core (Site.no p)).joiner ∧ k.tile = tile ∧
      k.ch = ch.toNat ∧ k.guest = p.guest ∧ k.mark = (if d.codes / 2 ^ 62 = 0 then .wideReady else .wide) ∧
      t.events = s.events ++ [e] ∧ e.code = 0x0701 ∧
      t.wire.length = s.wire.length + (if d.codes / 2 ^ 62 = 0 then 0 else j.senders.length) ∧
      (t.core (Site.no p)).lmem = (s.core (Site.no p)).lmem))

/-- CORE_GATE, DOZE and NAP entries, DIE_GATE and the port gates: when they act and what they change. A core that is ACTIVE and stable,
holds no op in flight, whose main context waits and whose guest has no op to dispatch, a link port that is ACTIVE and stable with nothing to
send, and a memory port that is ACTIVE and stable, gates: rung GATED, counted, every other domain and all else as before; anywhere else the
command changes nothing. A stable core between GATED and the rung, with nothing in flight and a hint that allows it, begins its retire step
toward DOZE or NAP; else nothing changes. A stable ACTIVE die all of whose domains are at GATED or deeper gates; the module's rung becomes
the shallowest of the dies' while no command moves it, and no other domain changes. -/
def Obligations.AutomaticRungs : Prop :=
  (∀ (s : State) (k : Nat) (i : Instr) (ok : Prop),
    ((∃ x y : Fin 48, i = .coreGate x y ∧ k = domKey 0 (coreNo x.val y.val) ∧ (ok ↔ s.mayGate (coreNo x.val y.val) = true)) ∨
      (∃ p : Fin 16, i = .portGate p ∧ k = domKey 6 p.val ∧ (ok ↔ s.portIdle p.val = true)) ∨ (∃ p : Fin 48, i = .memPortGate p ∧ k = domKey 5 p.val ∧ ok)) →
    (ok ∧ (s.domain k).rung = 0 ∧ (s.domain k).phase = 0 →
      ∃ t, exec i s = .next t ∧ t.domain k = { s.domain k with rung := 1, target := 1 } ∧ (∀ j, j ≠ k → t.domain j = s.domain j) ∧
        t.counters = ctrAdd s.counters (ckDom Ctr.rungEntriesGated k) 1 ∧ { t with domains := s.domains, counters := s.counters } = s) ∧
    (¬ (ok ∧ (s.domain k).rung = 0 ∧ (s.domain k).phase = 0) → exec i s = .next s)) ∧
  (∀ (s : State) (x y : Fin 48) (k rung : Nat) (i : Instr), k = domKey 0 (coreNo x.val y.val) →
    (i = .coreDozeEntry x y ∧ rung = 2 ∨ i = .coreNapEntry x y ∧ rung = 3) →
    ((s.domain k).phase = 0 ∧ 1 ≤ (s.domain k).rung ∧ (s.domain k).rung < rung ∧ rung ≤ (s.domain k).hint + 1 ∧
        coreIdle (s.core (coreNo x.val y.val)) = true →
      ∃ t, exec i s = .next t ∧ t.domain k = { s.domain k with target := rung, phase := 2 } ∧ (∀ j, j ≠ k → t.domain j = s.domain j) ∧
        { t with domains := s.domains } = s) ∧
    ((s.domain k).phase ≠ 0 ∨ (s.domain k).rung = 0 ∨ rung ≤ (s.domain k).rung ∨ (s.domain k).hint + 1 < rung ∨
        coreIdle (s.core (coreNo x.val y.val)) = false → exec i s = .next s)) ∧
  (∀ (s : State) (die : Fin 25),
    ((s.domain (dieKey die.val)).rung = 0 ∧ (s.domain (dieKey die.val)).phase = 0 ∧
        (∀ k ∈ onDie die.val, 1 ≤ (s.domain k).rung) →
      ∃ t, exec (.dieGate die) s = .next t ∧ t.domain (dieKey die.val) = { s.domain (dieKey die.val) with rung := 1, target := 1 } ∧
        (∀ j, j ≠ dieKey die.val → j ≠ moduleKey → t.domain j = s.domain j) ∧
        ((s.domain moduleKey).phase = 0 ∧ (s.domain moduleKey).commanded = false →
          (t.domain moduleKey).rung = ((List.range 25).map (fun i => (t.domain (dieKey i)).rung)).foldl min 6) ∧
        ((s.domain moduleKey).phase ≠ 0 ∨ (s.domain moduleKey).commanded = true → t.domain moduleKey = s.domain moduleKey) ∧
        { t with domains := s.domains, counters := s.counters } = s) ∧
    (¬ ((s.domain (dieKey die.val)).rung = 0 ∧ (s.domain (dieKey die.val)).phase = 0 ∧ ∀ k ∈ onDie die.val, 1 ≤ (s.domain k).rung) →
      exec (.dieGate die) s = .next s))

/-- Shutdowns, enables and exits of a power domain. Of a unit that does not exist they change nothing. DRAIN_COMPLETE on a draining domain
(a core with nothing in flight, a memory port whose die's buffers are empty, a link port whose far end agreed) begins RETIRE.
RETIRE_STEP_COMPLETE reaches the next rung, counted; it stops there at the target or, with an enable queued, begins the exit with latency
remain + 10^rung ns; a core reaching SLEEP keeps local-store lines 0 to 1,023; the module takes its dies with it, the hub to GATED, NAP or
SLEEP, stops the hub's PLL at OFF and releases the reference at DORMANT. DOMAIN_ENABLE cancels a DRAIN where the domain stands, queues
behind a retire step with the time left, begins the exit of a stable deeper domain and of its die, and changes nothing on a port held OFF; a
wake event leaves a commanded shutdown alone. EXIT_COMPLETE, once the die above is ACTIVE, makes the domain ACTIVE, or begins the DRAIN of a
deeper rung that waited; a link port from SLEEP or deeper whose coefficients fail retrains, and the module makes every die ACTIVE and runs
the PLL with the reference. CORE_WAKE makes a GATED core of a GATED or ACTIVE die ACTIVE with it. -/
def Obligations.ShutdownsAndExits : Prop :=
  (∀ (s : State) (kind : Fin 8) (index : BitVec 24) (fails : Bool) (remain : Nat) (wake : Bool), unitExists kind.val index.toNat = false →
    exec (.drainComplete kind index) s = .next s ∧ exec (.retireStepComplete kind index) s = .next s ∧
      exec (.exitComplete kind ⟨index, fails⟩) s = .next s ∧ exec (.domainEnable kind index remain wake) s = .next s) ∧
  (∀ (s : State) (kind : Fin 8) (index : BitVec 24) (k : Nat) (d : Domain) (fails : Bool), k = domOf kind.val index.toNat → d = s.domain k →
    unitExists kind.val index.toNat = true →
    (∀ ok : Prop, (ok ↔ d.phase = 1 ∧ (kind.val = 0 → coreIdle (s.core (coreOfUnit index.toNat)) = true) ∧
        (kind.val = 5 → ∀ c, c < 4 → s.mem.buf (index.toNat / 12 * 4 + c) = []) ∧
        (kind.val = 6 → (s.lport index.toNat).up = true → d.target ≤ (s.lport index.toNat).rung)) →
      (ok → ∃ t, exec (.drainComplete kind index) s = .next t ∧ t.domain k = { d with phase := 2 } ∧
        (∀ j, j ≠ k → t.domain j = s.domain j) ∧ { t with domains := s.domains } = s) ∧
      (¬ ok → exec (.drainComplete kind index) s = .next s)) ∧
    (d.phase = 2 → ∃ t, exec (.retireStepComplete kind index) s = .next t ∧
      t.domain k = (if d.qd then { d with rung := d.rung + 1, target := 0, phase := 3, qd := false, reached := d.rung + 1
                                          lat := d.remain + exitNs (d.rung + 1) }
        else if d.target ≤ d.rung + 1 then { d with rung := d.rung + 1, target := d.rung + 1, phase := 0, reached := d.rung + 1, lat := 0 }
        else { d with rung := d.rung + 1, reached := d.rung + 1, lat := 0 }) ∧
      t.slots = s.slots ∧ t.mem = s.mem ∧ (kind.val ≠ 0 ∨ d.rung ≠ 3 → t.cores = s.cores) ∧
      (kind.val ≠ 7 → (∀ j, j ≠ k → t.domain j = s.domain j) ∧ t.boot = s.boot) ∧
      (kind.val = 7 → (∀ e, e < 25 → (t.domain (dieKey e)).rung = max (s.domain (dieKey e)).rung
          (if e = 24 then (if d.rung = 5 then 4 else if d.rung = 4 then 3 else 1) else d.rung + 1)) ∧
        t.boot = { s.boot with pll := if d.rung = 5 then false else s.boot.pll
                               refReq := if d.qd then true else if d.rung = 4 then false else s.boot.refReq }) ∧
      (kind.val ≠ 0 → kind.val ≠ 7 → d.qd = false → d.rung + 1 < d.target →
        t.counters = ctrAdd s.counters (ckDom (rungCtr (d.rung + 1)) k) 1 ∧ { t with domains := s.domains, counters := s.counters } = s)) ∧
    (d.phase ≠ 2 → exec (.retireStepComplete kind index) s = .next s) ∧
    (d.phase = 3 → s.dieUp k = true → ∃ t, exec (.exitComplete kind ⟨index, fails⟩) s = .next t ∧
      (d.deeper = none → t.domain k = { d with rung := 0, target := 0, phase := 0, commanded := false, reached := 0, lat := 0 }) ∧
      (∀ r, d.deeper = some r → t.domain k =
        { d with rung := 0, target := r, phase := 1, deeper := none, commanded := true, reached := 0, lat := 0 }) ∧
      t.cores = s.cores ∧ t.slots = s.slots ∧ t.mem = s.mem ∧
      (kind.val ≠ 7 → (∀ j, j ≠ k → j ≠ moduleKey → t.domain j = s.domain j) ∧ t.boot = s.boot) ∧
      (kind.val = 7 → (∀ e, e < 25 → (t.domain (dieKey e)).rung = 0 ∧ (t.domain (dieKey e)).phase = 0) ∧
        t.boot = { s.boot with pll := s.boot.refclk }) ∧
      (kind.val ≠ 6 → t.links = s.links) ∧
      (kind.val = 6 → (t.lport index.toNat).rung = 0 ∧ (t.lport index.toNat).retraining =
        ((s.lport index.toNat).retraining || (fails && decide (4 ≤ d.rung) && (s.lport index.toNat).up)))) ∧
    (d.phase ≠ 3 ∨ s.dieUp k = false → exec (.exitComplete kind ⟨index, fails⟩) s = .next s)) ∧
  (∀ (s : State) (index : BitVec 24) (no : Nat), no = coreOfUnit index.toNat → unitExists 0 index.toNat = true →
    (s.domain (domKey 0 no)).phase = 2 →
    (s.domain (domKey 0 no)).rung = 3 →
    ∃ t, exec (.retireStepComplete 0 index) s = .next t ∧
      (∀ a, a < 0x40000 → (t.core no).lmem.read a = (s.core no).lmem.read a) ∧ (t.core no).tq = [] ∧
      (∀ j, j ≠ no → t.core j = s.core j)) ∧
  (∀ (s : State) (kind : Fin 8) (index : BitVec 24) (remain k : Nat) (wake : Bool) (d : Domain), k = domOf kind.val index.toNat →
    d = s.domain k → unitExists kind.val index.toNat = true →
    (s.heldOff k = true ∨ (wake = true ∧ d.commanded = true ∧ (d.phase = 1 ∨ d.phase = 2)) →
      exec (.domainEnable kind index remain wake) s = .next s) ∧
    (s.heldOff k = false → (wake && d.commanded) = false →
      (d.phase = 1 → ∃ t, exec (.domainEnable kind index remain wake) s = .next t ∧
        (kind.val ≠ 7 → t.domain k = { d with target := d.rung, phase := 0, commanded := false, reached := 0, lat := 0 }) ∧
        (t.domain k).phase = 0 ∧ (t.domain k).commanded = false ∧ (∀ j, j ≠ k → j ≠ moduleKey → t.domain j = s.domain j) ∧
        { t with domains := s.domains, counters := s.counters, arbs := s.arbs, arbInst := s.arbInst } = s ∧
        (d.commanded = false → t.arbs = s.arbs)) ∧
      (d.phase = 2 → d.qd = false → ∃ t, exec (.domainEnable kind index remain wake) s = .next t ∧
        t.domain k = { d with qd := true, remain := remain } ∧ (∀ j, j ≠ k → t.domain j = s.domain j) ∧
        t.counters = ctrAdd s.counters (ckDom Ctr.retireQueued k) 1 ∧ { t with domains := s.domains, counters := s.counters } = s)) ∧
    (s.heldOff k = false → d.phase = 0 → d.rung ≠ 0 →
      ∃ t, exec (.domainEnable kind index remain wake) s = .next t ∧ t.domain k = { d with target := 0, phase := 3, qd := false } ∧
        (∀ j, j ≠ k → j ≠ moduleKey → (∀ e, dieOfDomain k = some e → j ≠ dieKey e) → t.domain j = s.domain j) ∧
        (∀ e, dieOfDomain k = some e → (s.domain (dieKey e)).phase ≠ 0 ∨ (s.domain (dieKey e)).rung = 0 →
          ∀ j, j ≠ k → t.domain j = s.domain j) ∧
        (∀ e, dieOfDomain k = some e → (s.domain (dieKey e)).phase = 0 → 2 ≤ (s.domain (dieKey e)).rung →
          (t.domain (dieKey e)).phase = 3 ∧ (t.domain (dieKey e)).target = 0) ∧
        t.boot = (if kind.val = 7 then { s.boot with refReq := true } else s.boot) ∧
        { t with domains := s.domains, counters := s.counters, boot := s.boot } = s) ∧
    (d.phase = 2 ∧ d.qd = true → exec (.domainEnable kind index remain wake) s = .next s) ∧
    (s.heldOff k = false → d.phase = 3 ∨ d.phase = 0 ∧ d.rung = 0 → exec (.domainEnable kind index remain wake) s = .next (s.rouseDie k))) ∧
  (∀ (s : State) (x y : Fin 48) (no : Nat), no = coreNo x.val y.val → (s.domain (domKey 0 no)).rung = 1 →
    (s.domain (domKey 0 no)).phase = 0 → (s.domain (domKey 0 no)).deeper = none → (s.domain (dieKey (dieOf no))).rung ≤ 1 →
    (s.domain (dieKey (dieOf no))).phase = 0 → (s.domain (dieKey (dieOf no))).deeper = none →
    ∃ t, exec (.coreWake x y) s = .next t ∧ t.coreActive no = true ∧ t.cores = s.cores ∧ t.slots = s.slots ∧ t.mem = s.mem ∧
      ∀ j, j ≠ domKey 0 no → j ≠ dieKey (dieOf no) → j ≠ moduleKey → t.domain j = s.domain j)

/-- Guests, shadow tiles and the bank clear on a core. GUEST_ENTRY on an active core whose guest has an op that can issue and whose main
context has none gives the core to the guest when the die grants surplus, counted: each array's partial tile of the main context is in its
save area, word by word, and the guest's come back from theirs; without surplus the denial is counted, and otherwise nothing changes.
GUEST_PREEMPT gives the core back in the same way once the main context can issue, or the guest cannot, or surplus has gone, with the peak
latency raised. A SHADOW_TILE that R103 does not select changes nothing; one of a product in wide mode counts SHADOW_SKIPPED_WIDE, on a
replay nothing; one that may not start is deferred and nothing else happens; one without the wide array changes nothing; one that the purse
does not cover stays as it stood; one with one 1,024-cycle unit left that the purse covers pays it and appends its record to the slot, and
changes no memory of the core. BANK_CLEAR with no decision due changes nothing; with one due and no read of the bank in flight every byte of
the bank is 0 and every other byte stays. -/
def Obligations.GuestsShadowsAndBank : Prop :=
  (∀ (s : State) (x y : Fin 48) (no : Nat) (may : Bool), no = coreNo x.val y.val →
    may = (!(s.core no).guestIssuing && s.nextReady (siteOf no true) && !s.nextReady (siteOf no false) && s.coreActive no) →
    (may = true → (s.gov (dieOf no)).surplus = true →
      ∃ t, exec (.guestEntry x y) s = .next t ∧ (t.core no).guestIssuing = true ∧
        (∀ wide acc lm, (s.core no).main.partialOf (s.core no) wide = some (acc, lm) →
          ∀ i, i < 4096 → BitVec.ofNat 32 ((t.core no).lmem.readLE (saveAt false wide + 4 * i) 4) = (winList acc).getD i 0#32) ∧
        (∀ b, b < 10112 * 256 ∨ 10240 * 256 ≤ b → (t.core no).lmem.read b = (s.core no).lmem.read b) ∧
        (t.core no).main = [false, true].foldl (fun m w => if (m.partialOf (s.core no) w).isSome then m.moved w none else m) (s.core no).main ∧
        (t.core no).guest = ((s.core no).guest.moved false (some ((s.core no).saved true false))).moved true
          (some ((s.core no).saved true true)) ∧
        (∀ j, j ≠ no → t.core j = s.core j) ∧ { t with cores := s.cores, counters := s.counters } = s) ∧
    (may = true → (s.gov (dieOf no)).surplus = false → exec (.guestEntry x y) s =
      .next { s with counters := ctrAdd s.counters (ckCtx Ctr.guestDeniedCycles (siteOf no true)) 1 }) ∧
    (may = false → exec (.guestEntry x y) s = .next s)) ∧
  (∀ (s : State) (x y : Fin 48) (no cycles : Nat) (due : Bool), no = coreNo x.val y.val →
    due = ((s.core no).guestIssuing &&
      (s.nextReady (siteOf no false) || !s.nextReady (siteOf no true) || !(s.gov (dieOf no)).surplus)) →
    (due = true →
      ∃ t, exec (.guestPreempt x y cycles) s = .next t ∧ (t.core no).guestIssuing = false ∧
        (∀ wide acc lm, (s.core no).guest.partialOf (s.core no) wide = some (acc, lm) →
          ∀ i, i < 4096 → BitVec.ofNat 32 ((t.core no).lmem.readLE (saveAt true wide + 4 * i) 4) = (winList acc).getD i 0#32) ∧
        (t.core no).guest = [false, true].foldl (fun m w => if (m.partialOf (s.core no) w).isSome then m.moved w none else m) (s.core no).guest ∧
        (t.core no).main = ((s.core no).main.moved false (some ((s.core no).saved false false))).moved true
          (some ((s.core no).saved false true)) ∧
        (min cycles (2 ^ 32 - 1) ≤ ctrGet t.counters (ckCtx Ctr.preemptMax (siteOf no true))) ∧
        (∀ b, b < 12160 * 256 ∨ 12288 * 256 ≤ b → (t.core no).lmem.read b = (s.core no).lmem.read b) ∧
        (∀ j, j ≠ no → t.core j = s.core j) ∧ { t with cores := s.cores, counters := s.counters } = s) ∧
    (due = false → exec (.guestPreempt x y cycles) s = .next s)) ∧
  (∀ (c : Core) (t : Ctx) (w : Win) (acc : SMap Word), t.inflight = [] → t.win = some w → w.spilled = false →
    t.partialOf c false = some (w.acc, w.lm) ∧ (t.moved false none).win = some { w with spilled := true } ∧
      ((t.moved false none).moved false (some acc)).win = some { w with acc := acc }) ∧
  (∀ (s : State) (p : Site) (a : ShadowArgs) (mode : Word) (sel : Bool), mode = s.shadowMode p a.layer.toNat →
    sel = shadowSelected mode (s.slot (s.ctx p).slot).seed (s.core (Site.no p)).step.toNat a →
    (sel = false → exec (.shadowTile p a) s = .next s) ∧
    (sel = true → mode.getLsbD a.product.toNat = true → (∀ r, (s.slot (s.ctx p).slot).run = some r → r.replay = true) →
      (s.slot (s.ctx p).slot).run ≠ none → exec (.shadowTile p a) s = .next s) ∧
    (sel = true → mode.getLsbD a.product.toNat = true → (∀ r, (s.slot (s.ctx p).slot).run = some r → r.replay = false) →
      exec (.shadowTile p a) s = .next { s with counters := ctrAdd s.counters (ckLayer Ctr.shadowSkippedWide p a.layer.toNat a.product.toNat) 1 }) ∧
    (sel = true → mode.getLsbD a.product.toNat = false → s.shadowMayStart (Site.no p) = false →
      ∃ t, exec (.shadowTile p a) s = .next t ∧ Site.no p ∈ (t.gov (dieOf (Site.no p))).deferred ∧ t.cores = s.cores ∧
        { t with govs := s.govs } = s) ∧
    (sel = true → mode.getLsbD a.product.toNat = false → s.shadowMayStart (Site.no p) = true → s.shadowFree (Site.no p) = false →
      exec (.shadowTile p a) s = .next s) ∧
    (sel = true → mode.getLsbD a.product.toNat = false → s.shadowMayStart (Site.no p) = true → s.shadowFree (Site.no p) = true →
      0 < (s.core (Site.no p)).shadowLeft a → (s.ctx p).purse < chargeAt 17000 (s.gov (dieOf (Site.no p))).clock →
      ∃ t, exec (.shadowTile p a) s = .next t ∧ (t.core (Site.no p)).shadowLeft a = (s.core (Site.no p)).shadowLeft a ∧
        (t.ctx p).purse = (s.ctx p).purse ∧ t.slots = s.slots) ∧
    (sel = true → mode.getLsbD a.product.toNat = false → s.shadowMayStart (Site.no p) = true → s.shadowFree (Site.no p) = true →
      (s.core (Site.no p)).shadowLeft a = 1 →
      chargeAt 17000 (s.gov (dieOf (Site.no p))).clock ≤ (s.ctx p).purse →
      ∃ t, exec (.shadowTile p a) s = .next t ∧
        (t.ctx p).purse = (s.ctx p).purse - chargeAt 17000 (s.gov (dieOf (Site.no p))).clock ∧
        (t.slot (s.ctx p).slot).shadows = (s.slot (s.ctx p).slot).shadows ++
          [shadowRecord (s.core (Site.no p)).step.toNat a (shadowOut mode a).1] ∧
        (t.core (Site.no p)).lmem = (s.core (Site.no p)).lmem ∧ (t.core (Site.no p)).ta = (s.core (Site.no p)).ta ∧
        (t.ctx p).sregs = (s.ctx p).sregs ∧ (∀ j, j ≠ Site.no p → t.core j = s.core j) ∧
        { t with cores := s.cores, govs := s.govs, slots := s.slots, counters := s.counters } = s)) ∧
  (∀ (s : State) (x y : Fin 48) (no : Nat) (due : Bool), no = coreNo x.val y.val →
    due = ((s.core no).bankClearing || (s.slot 0).decision.isSome || decide ((s.slot 0).st = .replaying)) →
    (due = false → exec (.bankClear x y) s = .next s) ∧
    (due = true → s.bankRead no = false → (s.core no).lmem.erased = false →
      ∃ t, exec (.bankClear x y) s = .next t ∧
        (∀ b, 0x400000 ≤ b → b < 0x500000 → (t.core no).lmem.read b = 0#8) ∧
        (∀ b, b < 0x400000 ∨ 0x500000 ≤ b → (t.core no).lmem.read b = (s.core no).lmem.read b) ∧ (t.core no).bankClearing = false ∧
        (t.core no).bankNf = [] ∧ (∀ j, j ≠ no → t.core j = s.core j) ∧ { t with cores := s.cores } = s) ∧
    (due = true → s.bankRead no = true →
      ∃ t, exec (.bankClear x y) s = .next t ∧ t.core no = { s.core no with bankClearing := true } ∧
        (∀ j, j ≠ no → t.core j = s.core j) ∧ { t with cores := s.cores } = s))

/-- BUDGET_REFILL: one microsecond of a die's bucket and floor. While the die's bucket stays at or above the surplus mark, BUDGET_REFILL
sets B to B + add within -C and C, with add the derated cap less the floor, the base and with the correction, raised to 2,000 nJ while main
work waits; F becomes FLOOR_W x 1,000 nJ; from 103 degrees the thermal ceiling falls by 50 MHz, to 400 at the lowest; other governors and
everything but the counters stay. Below the surplus mark each guest purse of the die is empty afterwards (R354). The cap derates to a
quarter from T_SOFT to 103 degrees and is 0 from there. Energies are held in units of 0.01 nJ. -/
def Obligations.RefillFollowsR351 : Prop :=
  ∀ (s : State) (die : Fin 16) (g : Gov) (add b : Int), g = s.gov die.val →
    (add = if g.derated * 100 - g.cfg.floorW * 100000 - g.base + g.corr < 200000 ∧ (∃ r ∈ g.reqs, r.guest = false) then 200000
      else g.derated * 100 - g.cfg.floorW * 100000 - g.base + g.corr) → b = max (-g.cap) (min (g.b + add) g.cap) →
    ∃ t, exec (.budgetRefill die) s = .next t ∧ (t.gov die.val).f = g.cfg.floorW * 1000 * 100 ∧
      (g.mark g.cfg.surplusPct ≤ b → (t.gov die.val).b = b ∧ t.cores = s.cores) ∧
      (b < g.mark g.cfg.surplusPct → ∀ no, dieOf no = die.val → (t.core no).guest.purse = 0) ∧
      (t.gov die.val).thermCeil = (if 103 ≤ g.tHot then max 400 (g.thermCeil - 50) else g.thermCeil) ∧
      (g.tHot ≤ g.cfg.tSoft → g.derated = g.capNow * 1000) ∧
      ((g.cfg.tSoft : Int) < g.tHot → g.tHot < 103 → g.derated =
        g.capNow * 1000 * (4 * (103 - (g.cfg.tSoft : Int)) - 3 * (g.tHot - g.cfg.tSoft)) / (4 * (103 - (g.cfg.tSoft : Int)))) ∧
      (103 ≤ g.tHot → (g.cfg.tSoft : Int) < g.tHot → g.derated = 0) ∧
      (∀ d, d ≠ die.val → t.gov d = s.gov d) ∧ (∀ no, (t.core no).main = (s.core no).main) ∧
      { t with cores := s.cores, govs := s.govs, counters := s.counters } = s

/-- The governor's correction, sensor, requests, rounds and windows. BUDGET_CORRECTION spreads the millisecond's difference of ledger and
meter over 1,000 us within 10 % of CAP_W and takes the new base. THERMAL_SENSOR_READ sets the hottest junction, lifts the thermal ceiling up to T_SOFT, and the clock stays within the ceilings.
PURSE_REFILL_REQUEST queues one request with the charge a waiting op named, and none without. In a GOVERNOR_ROUND with one main request,
the purse gets min(512 nJ, B), as far as its room of 1,024 nJ, out of B when that covers the charge, and the request stays otherwise; with
one guest request and surplus the purse gets min(256 nJ, B less the surplus mark). GOVERNOR_WINDOW steps the chosen clock 50 MHz down when
B fell below the surplus mark, up at the high mark or at the surplus mark without a fall, keeps it between F_MIN and the ceiling, and
takes the waiting record. -/
def Obligations.GovernorCommands : Prop :=
  (∀ (s : State) (die : Fin 16) (measured base : Nat) (g : Gov) (raw lim : Int), g = s.gov die.val →
    lim = (g.cfg.capW : Int) * 1000 * 100 / 10 → raw = Int.tdiv ((g.ledger : Int) - measured) 1000 →
    ∃ t, exec (.budgetCorrection die measured base) s = .next t ∧
      t.gov die.val = { g with corr := max (-lim) (min lim raw), base := base, ledger := 0 } ∧
      (∀ d, d ≠ die.val → t.gov d = s.gov d) ∧ { t with govs := s.govs, counters := s.counters } = s ∧
      t.counters = (if lim ≤ raw ∨ raw ≤ -lim then ctrAdd s.counters (ckGov Ctr.govReconcileAdj die.val) 1 else s.counters)) ∧
  (∀ (s : State) (die : Fin 16) (temp : Int), ∃ t, exec (.thermalSensorRead die temp) s = .next t ∧
    (∀ (g : Gov) (c : Nat), g = s.gov die.val → c = (if temp ≤ g.cfg.tSoft then 1800 else g.thermCeil) →
      t.gov die.val = { g with tHot := temp, thermCeil := c, clock := min (max g.chosen g.cfg.fMin) (min g.cfg.fMax (min c g.memCeil)) }) ∧ (∀ d, d ≠ die.val → t.gov d = s.gov d) ∧ { t with govs := s.govs } = s) ∧
  (∀ (s : State) (p : Site) (d : Nat), d = dieOf (Site.no p) →
    ((s.ctx p).needCharge ≠ 0 → (∀ r ∈ (s.gov d).reqs, ¬ (r.core = Site.no p ∧ r.guest = p.guest)) →
      ∃ t, exec (.purseRefillRequest p) s = .next t ∧
        t.gov d = { s.gov d with reqs := (s.gov d).reqs ++ [RefillReq.mk (Site.no p) p.guest (s.ctx p).needCharge 0] } ∧
        (∀ j, j ≠ d → t.gov j = s.gov j) ∧ { t with govs := s.govs } = s) ∧
    ((s.ctx p).needCharge = 0 ∨ (∃ r ∈ (s.gov d).reqs, r.core = Site.no p ∧ r.guest = p.guest) →
      exec (.purseRefillRequest p) s = .next s)) ∧
  (∀ (s : State) (die : Fin 16) (g : Gov) (r : RefillReq), g = s.gov die.val → g.reqs = [r] → r.guest = false →
    ((r.charge : Int) ≤ min 51200 g.b → g.mark g.cfg.surplusPct + 51200 ≤ g.b →
      ∃ t, exec (.governorRound die) s = .next t ∧ (t.gov die.val).reqs = [] ∧
        ((t.core r.core).main.purse : Int) = (s.core r.core).main.purse + (min 51200 (102400 - ((s.core r.core).main.purse : Int))).toNat ∧
        (t.gov die.val).b = g.b - min 51200 (102400 - ((s.core r.core).main.purse : Int)) ∧
        (∀ no, no ≠ r.core → t.core no = s.core no) ∧ { t with cores := s.cores, govs := s.govs } = s) ∧
    (min 51200 g.b < (r.charge : Int) → ∃ t, exec (.governorRound die) s = .next t ∧ (t.gov die.val).reqs = [r] ∧
      (∀ no, (t.core no).main = (s.core no).main) ∧ { t with cores := s.cores, govs := s.govs } = s)) ∧
  (∀ (s : State) (die : Fin 16) (g : Gov) (r : RefillReq), g = s.gov die.val → g.reqs = [r] → r.guest = true → g.surplus = true →
    (r.charge : Int) ≤ min 25600 (g.b - g.mark g.cfg.surplusPct) → (s.core r.core).guest.purse ≤ 25600 →
    ∃ t, exec (.governorRound die) s = .next t ∧ (t.gov die.val).reqs = [] ∧
      (t.gov die.val).b + ((t.core r.core).guest.purse : Int) = g.b + ((s.core r.core).guest.purse : Int) ∧
      (∀ no, (t.core no).main = (s.core no).main) ∧ { t with cores := s.cores, govs := s.govs } = s) ∧
  (∀ (s : State) (die : Fin 16) (g : Gov) (surplus : Int) (down up : Prop), g = s.gov die.val → surplus = g.mark g.cfg.surplusPct →
    (down ↔ g.b < g.bWindow ∧ g.b < surplus) → (up ↔ ¬ down ∧ (g.mark g.cfg.highPct ≤ g.b ∨ g.bWindow ≤ g.b ∧ surplus ≤ g.b)) →
    ∃ t, exec (.governorWindow die) s = .next t ∧ (t.gov die.val).bWindow = g.b ∧
      (down → (t.gov die.val).chosen = min (max (g.chosen - 50) g.cfg.fMin) g.ceiling) ∧
      (up → (t.gov die.val).chosen = min (max (g.chosen + 50) g.cfg.fMin) g.ceiling) ∧
      (¬ down → ¬ up → (t.gov die.val).chosen = min (max g.chosen g.cfg.fMin) g.ceiling) ∧
      (g.next = none → (t.gov die.val).cfg = g.cfg ∧ (t.gov die.val).b = g.b) ∧
      (∀ r, g.next = some r → (t.gov die.val).cfg = r ∧ (t.gov die.val).next = none ∧ (t.gov die.val).b = min g.b (r.bucketUj * 100000)) ∧
      (t.gov die.val).clock = min (max (t.gov die.val).chosen (t.gov die.val).cfg.fMin) (t.gov die.val).ceiling ∧
      (t.gov die.val).capNow = t.effectiveCap die.val ∧
      (∀ d, d ≠ die.val → t.gov d = s.gov d) ∧ { t with govs := s.govs, counters := s.counters } = s)

/-- CHEST_GRANT, CHEST_RECALL and STEP_RELEASE. CHEST_GRANT grants the chunk that R209 names: its next micro-batch is taken, its credit is
out, the grant reserves its tiles, and the word MB, chunk, THIN goes to the chunk's gate; with none that fits nothing changes. CHEST_RECALL,
while fewer than PREFETCH_TILES recalled tiles wait and an SRAM tile is free, reads the off-load tile with the smallest key by an LC read of
the slot-0 partition and moves it, with the 16 KiB read, into the free tile, counted; where the read waits or fails it moves none, and else
nothing changes. STEP_RELEASE starts a permutation that waits for the boundary; with no step to release, or one that may not be released
yet, it does no more; with the slot's main contexts in WAIT STEP on S0 and no boundary command waiting it begins the step: slot, step number
and time of release are set, the chest is empty, and every main core has the step's number and runs on after its WAIT STEP. -/
def Obligations.ChestAndStepRelease : Prop :=
  (∀ (s : State), s.grantNext = none → exec .chestGrant s = .next s) ∧
  (∀ (s : State) (u mb : Nat) (thin : Bool), s.grantNext = some u → s.grantKind u = some thin → mb = SMap.get 0 s.chest.next u →
    ∃ t m, exec .chestGrant s = .next t ∧ t.wire = s.wire ++ [m] ∧ m.destDev = s.modId ∧ m.slot = 0#2 ∧
      m.payload = [BitVec.ofNat 32 (mb + u * 4096 + b2n thin * 32768)] ∧ m.channel = BitVec.ofNat 8 (s.stage.gateCh.getD u 0) ∧
      m.destX = BitVec.ofNat 6 (s.stage.gateCore.getD u 0) ∧ m.hcheck = headerCheck m ∧
      SMap.get 0 t.chest.next u = mb + 1 ∧ (∀ v, v ≠ u → SMap.get 0 t.chest.next v = SMap.get 0 s.chest.next v) ∧
      t.chest.out = s.chest.out ++ [u] ∧ t.chest.reserved = s.chest.reserved + s.stage.grantTiles u thin ∧ t.chest.tiles = s.chest.tiles ∧
      { t with wire := s.wire, chest := s.chest, counters := s.counters } = s) ∧
  (∀ (s m : State) (x : CTile) (p : Nat) (bs : List Byte), s.chest.low = some x → s.chest.freeTile true s.stage.sramTiles = some p →
    (s.chest.tiles.filter (fun t => t.recalled)).length < s.stage.prefetch →
    s.memRead (chestReq (s.stage.dramPlace x.place) 16384 0) = (m, .ok bs) → bs.length = 16384 →
    ∃ t, exec .chestRecall s = .next t ∧ t.sramRead p 16384 0 = bs ∧
      { x with sram := true, place := p, recalled := true } ∈ t.chest.tiles ∧
      (∀ y, y ∈ s.chest.tiles → y ≠ x → y ∈ t.chest.tiles) ∧ t.chest.tiles.length = s.chest.tiles.length ∧
      t.counters = ctrAdd m.counters (ckChest Ctr.chestRecallTiles) 1 ∧
      { t with chest := s.chest, cores := s.cores, counters := m.counters } = m) ∧
  (∀ (s : State) (x : CTile) (p : Nat) (q : MemReq), s.chest.low = some x → s.chest.freeTile true s.stage.sramTiles = some p →
    (s.chest.tiles.filter (fun t => t.recalled)).length < s.stage.prefetch → q = chestReq (s.stage.dramPlace x.place) 16384 0 →
    (∀ bs, (s.memRead q).2 ≠ .ok bs) → exec .chestRecall s = .next (s.memRead q).1) ∧
  (∀ (s : State), (s.chest.low = none ∨ s.chest.freeTile true s.stage.sramTiles = none ∨
      s.stage.prefetch ≤ (s.chest.tiles.filter (fun t => t.recalled)).length) → exec .chestRecall s = .next s) ∧
  (∀ (s u : State), u = s.startReshard → u.nextRun = none ∨ u.releasable = false → exec .stepRelease s = .next u) ∧
  (∀ (s : State) (r : Run), s.startReshard = s → s.nextRun = some r → s.releasable = true → s.commandsBefore r = [] →
    (∀ no ∈ s.mainCores, no < 2304 ∧ (s.core no).main.status = .waitStep 0 none ∧ (s.core no).main.loops = [] ∧
      (s.core no).main.pos + 1 < (s.core no).main.hdr.nOps) →
    ∃ t, exec .stepRelease s = .next t ∧ (t.slot 0).st = (if r.replay then .replaying else .running) ∧
      (t.slot 0).run = some { r with tRelease := s.timeUs } ∧ (t.slot 0).step = BitVec.ofNat 32 r.step ∧
      (t.slot 0).decision = none ∧ (t.slot 0).shadows = [] ∧ t.chest = {} ∧
      (∀ no, no ∈ s.mainCores → (t.core no).step = BitVec.ofNat 32 r.step ∧ (t.core no).main.status = .running ∧
        (t.core no).main.pos = (s.core no).main.pos + 1 ∧ (t.core no).main.sregs = (s.core no).main.sregs) ∧
      (∀ no, no ∉ s.mainCores → t.core no = s.core no))

/-- Core faults, swaps, module faults and seam replays. CORE_FAULT is counted; where the row's spare is free and no other core of the row is
faulty the core is marked for a swap, and nothing else changes unless slot 0 binds it: then its step is abandoned and slot 0 is quiesced.
Where the spare is used up, or another core of the row waits for it, every loaded slot that binds the core stops beyond the model.
TIN_SOLDIER_SWAP acts only at a boundary of slot 0 on a die with marked cores: with a good spare the row map repairs the core's column; with
a bad spare the row has no spare; other rows stay. Where no slot binds a core of the row, every core of a repaired row loses its memories
and its bank is clear, and every other core, the slots and the device memory stay. MODULE_FAULT stops every loaded slot and the links.
SEAM_REPLAY counts the replays; eight that fail are a module fault. -/
def Obligations.FaultsAndSwaps : Prop :=
  (∀ (s : State) (x y : Fin 48) (no : Nat), no = coreNo x.val y.val → SMap.get .plain s.rows (rowOf no) = .plain →
    (∀ n ∈ s.toSwap, n ≠ no → rowOf n ≠ rowOf no) → (∀ e ∈ (s.slot 0).bound, e.1 ≠ no) →
    ∃ t, exec (.coreFault x y) s = .next t ∧ t.core no = { s.core no with swapMark := true } ∧ (∀ n, n ≠ no → t.core n = s.core n) ∧
      t.counters = ctrAdd s.counters { id := Ctr.coreFaults, core := some no } 1 ∧ { t with cores := s.cores, counters := s.counters } = s) ∧
  (∀ (s : State) (x y : Fin 48) (no : Nat), no = coreNo x.val y.val → SMap.get .plain s.rows (rowOf no) = .plain →
    (∀ n ∈ s.toSwap, n ≠ no → rowOf n ≠ rowOf no) → (∃ g, (no, g) ∈ (s.slot 0).bound) → (s.slot 0).inStep = true →
    ∃ t, exec (.coreFault x y) s = .next t ∧ (t.slot 0).quiesced = true ∧ (t.core no).swapMark = true ∧
      ((s.slot 0).quiesced = false → (t.core no).main.inflight = [] ∧ (t.core no).main.win = none)) ∧
  (∀ (s : State) (x y : Fin 48) (no : Nat), no = coreNo x.val y.val → SMap.get .plain s.rows (rowOf no) ≠ .plain ∨
      (∃ n ∈ s.toSwap, n ≠ no ∧ rowOf n = rowOf no) →
    ∃ t, exec (.coreFault x y) s = .next t ∧ t.cores = s.cores ∧ t.rows = s.rows ∧
      (∀ k g, k < 4 → (no, g) ∈ (s.slot k).bound → (s.slot k).st.loaded = true → (t.slot k).st = .haltedBeyond) ∧
      (∀ k, (∀ g, (no, g) ∉ (s.slot k).bound) → t.slot k = s.slot k)) ∧
  (∀ (s : State) (die : Fin 16) (bad : List (Fin 12)),
    (s.toSwap.filter (fun n => decide (dieOf n = die.val)) = [] ∨ s.atBoundary = false → exec (.tinSoldierSwap die bad) s = .next s) ∧
    (∀ no, s.toSwap.filter (fun n => decide (dieOf n = die.val)) = [no] → no < 2304 → s.atBoundary = true →
      ∃ t, exec (.tinSoldierSwap die bad) s = .next t ∧ t.rows =
        SMap.set .plain s.rows (rowOf no) (if ∃ b ∈ bad, b.val = rowOf no % 12 then .noSpare else .repaired (plainColumn no))) ∧
    (∀ no, s.toSwap.filter (fun n => decide (dieOf n = die.val)) = [no] → no < 2304 → s.atBoundary = true → (s.slot 0).nextEpoch = none →
      (∀ k, k < 4 → ∀ e ∈ (s.slot k).bound, rowOf e.1 ≠ rowOf no) →
      ((∀ b ∈ bad, b.val ≠ rowOf no % 12) →
        ∃ t, exec (.tinSoldierSwap die bad) s = .next t ∧ SMap.get .plain t.rows (rowOf no) = .repaired (plainColumn no) ∧
          (∀ j, j ≠ rowOf no → SMap.get .plain t.rows j = SMap.get .plain s.rows j) ∧
          (∀ n ∈ rowCores (rowOf no), (t.core n).tq = [] ∧ (t.core n).joiner = [] ∧ (t.core n).swapMark = false ∧ (t.core n).bankNf = [] ∧
            ((s.core n).lmem.erased = false → ∀ b, 0x400000 ≤ b → b < 0x500000 → (t.core n).lmem.read b = 0#8)) ∧
          (∀ n, n ∉ rowCores (rowOf no) → t.core n = s.core n) ∧ t.slots = s.slots ∧ t.mem = s.mem) ∧
      ((∃ b ∈ bad, b.val = rowOf no % 12) →
        ∃ t, exec (.tinSoldierSwap die bad) s = .next t ∧ SMap.get .plain t.rows (rowOf no) = .noSpare ∧
          (∀ j, j ≠ rowOf no → SMap.get .plain t.rows j = SMap.get .plain s.rows j) ∧ (t.core no).swapMark = false ∧
          (∀ n, n ≠ no → t.core n = s.core n) ∧ t.slots = s.slots ∧ t.mem = s.mem))) ∧
  (∀ (s : State), ∃ t, exec .moduleFault s = .next t ∧ t.links.driving = false ∧ t.cores = s.cores ∧ t.mem = s.mem ∧
    (∀ k, k < 4 → (s.slot k).st.loaded = true → (t.slot k).st = .halted ∨ (t.slot k).st = .haltedBeyond) ∧
    (∀ k, k < 4 → (t.slot k).committed = (s.slot k).committed)) ∧
  (∀ (s : State) (die : Fin 25) (n : Nat) (good : Bool) (t : State),
    t = { s with counters := ctrAdd s.counters { id := Ctr.seamReplay, die := some die.val } n } →
    (good = true ∨ n < 8 → exec (.seamReplay die n good) s = .next t) ∧
    (good = false → 8 ≤ n → exec (.seamReplay die n good) s = exec .moduleFault t))

/-- Contributions: landing, summing, closing, resending and the landing credits. The first message of a contribution that meets every check
of R225 lands in the owner's slot that the sender's cursor names, its bytes at that slot's address; a later one goes on at its offset, and
the last marks it ended and a write notice goes to the sender. One that fails a check writes nothing and returns one credit, counted by the
check; the cursor moves for every contribution of the epoch in force. CONTRIBUTION_END without a landed one changes nothing; with a good CRC
and layout it is summed at its turn in a bucket that has or gets one of the agent's two buffers: the decoded body joins the sums in the
canonical way, the member is noted, the landing is free and its credit goes back; with the last member the sums are written, the bucket
closes with its record and opens for the next step; with two other buffers open it waits. With a bad CRC for the first time it asks for the
contribution once more and sums nothing. LAND_CREDIT gives back the credits it carries, and resends that wait go on. CONTRIB_RESEND sends
the buffered contribution again with a credit, and waits without one. -/
def Obligations.ContributionsAreSummed : Prop :=
  (∀ (s : State) (m : Msg) (h : ContribHdr) (key cur : Nat), m.channel = 0xF1#8 → s.agentTakes m → m.seq = 0#16 →
    h = parseContrib (payloadBytes m) → key = creditKey m.srcDev.toNat (m.arg.toNat % 4) → cur = SMap.get 0 (s.slot 0).landCur key →
    (s.contribCheck m h = none → m.endf = true → (s.slot 0).landingOf m.srcDev.toNat (m.arg.toNat % 4) false = none →
      ∃ t n, exec (.contributionReceive m) s = .next t ∧ (t.slot 0).landing = (s.slot 0).landing ++ [Landing.mk h.tag m.srcDev.toNat h.member
          (m.arg.toNat % 4) cur (min (s.slot 0).coll.slotBytes (payloadBytes m).length) true false] ∧
        SMap.get 0 (t.slot 0).landCur key = (cur + 1) % max 1 (s.slot 0).coll.credits ∧
        t.mem = (s.devWrite ((s.slot 0).coll.landAddr (m.arg.toNat % 4) h.member cur)
          ((payloadBytes m).take (s.slot 0).coll.slotBytes)).mem ∧
        t.wire = s.wire.erase m ++ [n] ∧ n.destDev = m.srcDev ∧ n.channel = 0xFD#8 ∧ (n.payload.getD 0 0#32).toNat % 65536 = 0 ∧
        (t.slot 0).bkts = (s.slot 0).bkts ∧ t.cores = s.cores) ∧
    (∀ k, s.contribCheck m h = some k → (m.endf = false ∨ (s.slot 0).landingOf m.srcDev.toNat (m.arg.toNat % 4) false = none) →
      ∃ t n ws, exec (.contributionReceive m) s = .next t ∧ { t.slot 0 with landCur := (s.slot 0).landCur } = s.slot 0 ∧
        SMap.get 0 (t.slot 0).landCur key = (if h.epoch = (s.slot 0).epoch.epoch then (cur + 1) % max 1 (s.slot 0).coll.credits else cur) ∧
        (∀ j, j ≠ 0 → t.slot j = s.slot j) ∧ t.mem = s.mem ∧ t.cores = s.cores ∧
        t.wire = s.wire.erase m ++ n :: ws ∧ ws.length = b2n m.endf ∧ n.destDev = m.srcDev ∧ n.channel = 0xF0#8 ∧ n.arg = 16#12 ∧
        t.counters = ctrAdd (s.toAgents m).counters (ckSlot (if k = 1 then Ctr.collMisroute else if k = 2 then Ctr.staleTagDrop
          else if k = 3 then Ctr.nonmemberDrop else Ctr.dupDrop) 0) 1)) ∧
  (∀ (s : State) (m : Msg) (l : Landing), m.channel = 0xF1#8 → s.agentTakes m → m.seq ≠ 0#16 → m.endf = false →
    (s.slot 0).landingOf m.srcDev.toNat (m.arg.toNat % 4) false = some l → l.bytes = m.seq.toNat * 16384 →
    ∃ t, exec (.contributionReceive m) s = .next t ∧ t.mem = (s.devWrite ((s.slot 0).coll.landAddr l.agent l.member l.slot + l.bytes)
        ((payloadBytes m).take ((s.slot 0).coll.slotBytes - l.bytes))).mem ∧
      { l with bytes := l.bytes + min ((s.slot 0).coll.slotBytes - l.bytes) (payloadBytes m).length } ∈ (t.slot 0).landing ∧
      t.wire = s.wire.erase m ∧ (t.slot 0).bkts = (s.slot 0).bkts ∧ t.cores = s.cores) ∧
  (∀ (s : State) (dev : BitVec 14) (agent : Fin 4), (s.slot 0).landingOf dev.toNat agent.val true = none →
    exec (.contributionEnd dev agent) s = .next s) ∧
  (∀ (s : State) (dev : BitVec 14) (agent : Fin 4) (l : Landing) (a b : Nat) (h : ContribHdr) (d : BucketDef) (body : List Byte) (k : Bucket),
    (s.slot 0).landingOf dev.toNat agent.val true = some l → a = (s.slot 0).coll.landAddr l.agent l.member l.slot → 40 ≤ l.bytes →
    b = tagBucket l.tag → h = parseContrib (s.devRead a 32) → body = s.devRead (a + 32) (l.bytes - 40) → (s.slot 0).bucketDef b = some d →
    k = (s.slot 0).bkt b →
    (s.devLE (a + (l.bytes - 8)) 4 = (crc32c (s.devRead a (l.bytes - 8))).toNat → (∀ e ∈ (s.slot 0).landing, e.passed = false) →
      (s.slot 0).run = none ∨ (∃ r, (s.slot 0).run = some r ∧ r.replay = false) →
      malformed (rdList body) h d (decide (b = tailBucket)) l.bytes = false → h.nf = false → b ≠ tailBucket → d.agent = agent.val →
      (k.buf = true ∨ ((s.slot 0).buffers agent.val).length < 2 →
        ((∃ i ∈ s.groupMembers, i ≠ l.member ∧ i ∉ k.arrived) →
          ∃ t n, exec (.contributionEnd dev agent) s = .next t ∧ (t.slot 0).bkt b = { k with
              buf := true, arrived := k.arrived ++ [l.member], ab := k.ab || h.ab
              acc := Coll.addInto 0 (Coll.decode (rdList body) d.mode d.kLog2 d.tiles) k.acc } ∧
            (∀ c, c ≠ b → (t.slot 0).bkt c = (s.slot 0).bkt c) ∧ (t.slot 0).landing = (s.slot 0).landing.erase l ∧
            t.wire = s.wire ++ [n] ∧ n.destDev = BitVec.ofNat 14 l.dev ∧ n.arg = 16#12 ∧ t.mem = s.mem ∧ t.cores = s.cores) ∧
        ((∀ i ∈ s.groupMembers, i = l.member ∨ i ∈ k.arrived) → (k.ab || h.ab) = false → 0 < d.tiles →
          (∀ e ∈ (s.slot 0).landing, e ≠ l → tagBucket e.tag ≠ b) → (s.slot 0).landing.Nodup →
          ∃ t r, exec (.contributionEnd dev agent) s = .next t ∧
            (t.slot 0).bkt b = { openStep := (s.slot 0).step.toNat + 1, notes := k.notes } ∧ (t.slot 0).closes = (s.slot 0).closes ++ [r] ∧
            leAt r 0 4 % 2 ^ 20 = b ∧ leAt r 0xC 4 = (k.arrived.length + 1) % 2 ^ 32 ∧
            t.mem = (s.devWrite d.acc (((List.range (d.tiles * 4096)).map (fun e => leBytes 4 (SMap.get 0#32
              (Coll.addInto 0 (Coll.decode (rdList body) d.mode d.kLog2 d.tiles) k.acc) e).toNat)).flatten)).mem ∧
            (∀ c, c ≠ b → (t.slot 0).bkt c = (s.slot 0).bkt c) ∧ t.cores = s.cores)) ∧
      (k.buf = false → 2 ≤ ((s.slot 0).buffers agent.val).length →
        ∃ t, exec (.contributionEnd dev agent) s = .next t ∧ (t.slot 0).bkts = (s.slot 0).bkts ∧ { l with passed := true } ∈ (t.slot 0).landing ∧
          t.wire = s.wire ∧ t.mem = s.mem ∧ t.cores = s.cores)) ∧
    (s.devLE (a + (l.bytes - 8)) 4 ≠ (crc32c (s.devRead a (l.bytes - 8))).toNat →
      (l.member, k.openStep, (s.slot 0).epoch.epoch) ∉ k.notes →
      ∃ t n r, exec (.contributionEnd dev agent) s = .next t ∧
        (t.slot 0).bkt b = { k with notes := k.notes ++ [(l.member, k.openStep, (s.slot 0).epoch.epoch)] } ∧
        (t.slot 0).landing = (s.slot 0).landing.erase l ∧ t.wire = s.wire ++ [n, r] ∧ n.arg = 16#12 ∧ r.arg = 4#12 ∧
        r.destDev = BitVec.ofNat 14 l.dev ∧ r.payload = [BitVec.ofNat 32 l.tag] ∧
        t.counters = ctrAdd s.counters (ckSlot Ctr.collCrcFail 0) 1)) ∧
  (∀ (s : State) (agent : Fin 4) (m : Msg) (k : Nat), m.channel = 0xF0#8 → collOp m = 0 → s.agentTakes m → k = creditKey m.srcDev.toNat agent.val →
    (s.slot 0).resends = [] →
    ∃ t, exec (.landCredit agent m) s = .next t ∧
      SMap.get 0 (t.slot m.slot.toNat).spent k = SMap.get 0 (s.slot m.slot.toNat).spent k - m.arg.toNat / 16 ∧
      (∀ j, j ≠ k → SMap.get 0 (t.slot m.slot.toNat).spent j = SMap.get 0 (s.slot m.slot.toNat).spent j) ∧ t.wire = s.wire.erase m ∧
      (∀ j, j ≠ m.slot.toNat → t.slot j = s.slot j) ∧ { t with wire := s.wire, slots := s.slots } = s.toAgents m) ∧
  (∀ (s : State) (m : Msg) (a key tag : Nat) (d : BucketDef) (out : State → List Msg), s.agentTakes m →
    (((s.slot 0).layout.filter (fun e => decide (e.1 = 12))).map (fun e => e.2.2.2)).find? (fun a => decide (s.devLE a 4 = tag)) = some a →
    (s.slot 0).bucketDef (tagBucket tag) = some d → key = creditKey m.srcDev.toNat d.agent → (∀ t, out t = t.wire.drop (s.wire.erase m).length) →
    (m.channel = 0xF0#8 → collOp m = 4 → tag = (m.payload.headD 0#32).toNat → SMap.get 0 (s.slot 0).spent key < (s.slot 0).coll.credits →
      ∃ t, exec (.contribResend m) s = .next t ∧ SMap.get 0 (t.slot 0).spent key = SMap.get 0 (s.slot 0).spent key + 1 ∧
        t.wire = s.wire.erase m ++ out t ∧ (out t).length = max 1 ((32 + s.devLE (a + 0xC) 4 + 16383) / 16384) ∧
        (∀ x ∈ out t, x.destDev = m.srcDev ∧ x.channel = 0xF1#8 ∧ x.rsd = true ∧ x.hcheck = headerCheck x) ∧
        t.mem = s.mem ∧ t.cores = s.cores) ∧
    (m.channel = 0xF0#8 → collOp m = 4 → tag = (m.payload.headD 0#32).toNat → (s.slot 0).coll.credits ≤ SMap.get 0 (s.slot 0).spent key →
      ∃ t, exec (.contribResend m) s = .next t ∧ t.wire = s.wire.erase m ∧
        (t.slot 0).resends = (s.slot 0).resends ++ [(m.srcDev.toNat, tag)] ∧ (t.slot 0).spent = (s.slot 0).spent ∧
        { t with wire := s.wire, slots := s.slots } = s.toAgents m) ∧
    (∀ agent : Fin 4, agent.val = d.agent → m.channel = 0xF0#8 → collOp m = 0 → m.slot = 0#2 → (s.slot 0).resends = [(m.srcDev.toNat, tag)] →
      SMap.get 0 (s.slot 0).spent key - m.arg.toNat / 16 < (s.slot 0).coll.credits →
      ∃ t, exec (.landCredit agent m) s = .next t ∧ (t.slot 0).resends = [] ∧
        SMap.get 0 (t.slot 0).spent key = SMap.get 0 (s.slot 0).spent key - m.arg.toNat / 16 + 1 ∧
        t.wire = s.wire.erase m ++ out t ∧ (out t).length = max 1 ((32 + s.devLE (a + 0xC) 4 + 16383) / 16384) ∧
        (∀ x ∈ out t, x.destDev = m.srcDev ∧ x.channel = 0xF1#8 ∧ x.rsd = true)))

/-- SEALs, the decision of a step, shard commits and the firmware close. SEAL_SEND before the owned buckets have closed and the tail has
gone, or twice, changes nothing; when due, while another member's SEAL is missing, it broadcasts the SEAL of step and epoch with NF and AB
of the step's close records and records it. SEAL of another step or epoch counts STALE_TAG_DROP; with AB in a step it quiesces the slot.
Without AB it is recorded once; the last one, while the step before awaits its mirror, decides: SKIP if any SEAL has NF, else COMMIT, which
alone flips the error memory. SHARD_COMMIT of a shard not owned, before a decision, twice, or of a repaired shard that holds the step
changes nothing; while an area it writes is not free it counts UPD_AREA_WAIT; tables that R33 refuses end the updater's routine. Else it
writes what UPDATE forms, after COMMIT with the shard's header and the gain of R162, after SKIP the column coding alone, and notes the
shard; with the last shard of a step whose forerunner is committed the slot is READY. FIRMWARE_EPOCH_CLOSE outside a step changes nothing;
in one it sets AB with its cause, closes every open owned bucket with AB, quiesces the slot and sends the SEAL. -/
def Obligations.SealsDecideTheStep : Prop :=
  (∀ (s : State), s.sealDue = false → exec .sealSend s = .next s) ∧
  (∀ (s : State) (dev : Nat), s.sealDue = true → (s.slot 0).waitsForSeal s.modId.toNat dev → (∀ e ∈ (s.slot 0).seals, e.1 ≠ s.modId.toNat) →
    ∃ t m nf ab, exec .sealSend s = .next t ∧ nf = (s.slot 0).closedWith 30 ∧ ab = (s.slot 0).closedWith 31 ∧ t.wire = s.wire ++ [m] ∧
      m.payload = sealPayload (s.slot 0).step.toNat (s.slot 0).epoch.epoch nf ab ∧ isBroadcast m = true ∧ collOp m = 1 ∧
      (t.slot 0).sealSent = true ∧ (t.slot 0).seals = (s.slot 0).seals ++ [(s.modId.toNat, nf, ab)] ∧
      (t.slot 0).decision = (s.slot 0).decision ∧ { t with wire := s.wire, slots := s.slots } = s) ∧
  (∀ (s : State) (m : Msg) (w0 w1 : Nat), m.channel = 0xF0#8 → collOp m = 1 → s.agentTakes m → w0 = (m.payload.getD 0 0#32).toNat →
    w1 = (m.payload.getD 1 0#32).toNat →
    ((s.slot 0).hasEpoch = false ∨ w0 ≠ (s.slot 0).step.toNat ∨ w1 % 65536 ≠ (s.slot 0).epoch.epoch →
      exec (.seal m) s = .next { s.toAgents m with
        wire := s.wire.erase m, counters := ctrAdd (s.toAgents m).counters (ckSlot Ctr.staleTagDrop 0) 1 }) ∧
    ((s.slot 0).hasEpoch = true → w0 = (s.slot 0).step.toNat → w1 % 65536 = (s.slot 0).epoch.epoch → bitOf w1 17 = true →
      (s.slot 0).inStep = true → ∃ t, exec (.seal m) s = .next t ∧ (t.slot 0).quiesced = true) ∧
    ((s.slot 0).hasEpoch = true → w0 = (s.slot 0).step.toNat → w1 % 65536 = (s.slot 0).epoch.epoch → bitOf w1 17 = false →
      (∀ e ∈ (s.slot 0).seals, e.1 ≠ m.srcDev.toNat) →
      ((∃ d, (s.slot 0).waitsForSeal m.srcDev.toNat d) →
        ∃ t, exec (.seal m) s = .next t ∧ (t.slot 0).seals = (s.slot 0).seals ++ [(m.srcDev.toNat, bitOf w1 16, false)] ∧
          (t.slot 0).decision = (s.slot 0).decision ∧ { t with wire := s.wire, slots := s.slots } = s.toAgents m) ∧
      (∀ r, (∀ d ∈ (s.slot 0).epoch.members, d ∈ (s.slot 0).lostSeen ∨ d = m.srcDev.toNat ∨ ∃ e ∈ (s.slot 0).seals, e.1 = d) →
        (∀ e ∈ (s.slot 0).seals, e.2.2 = false) → (s.slot 0).decision = none → (s.slot 0).run = some r → r.diag = false → r.owner = true →
        r.repair = false → (s.slot 0).prev.isSome = true →
        ∃ t, exec (.seal m) s = .next t ∧ (t.slot 0).decided = r.step ∧
          (bitOf w1 16 = true ∨ (∃ e ∈ (s.slot 0).seals, e.2.1 = true) →
            (t.slot 0).decision = some 1 ∧ (t.slot 0).emCur = (s.slot 0).emCur ∧ (t.slot 0).skipped = (s.slot 0).skipped + 1) ∧
          (bitOf w1 16 = false → (∀ e ∈ (s.slot 0).seals, e.2.1 = false) →
            (t.slot 0).decision = some 0 ∧ (t.slot 0).emCur = !(s.slot 0).emCur ∧ (t.slot 0).skipped = (s.slot 0).skipped) ∧
          t.cores = s.cores))) ∧
  (∀ (s : State) (layer shard : BitVec 16) (w : UpdPlan),
    (s.slot 0).run = none ∨ s.owned.find? (fun o => decide (o.1 = layer.toNat) && decide (o.2.1 = shard.toNat)) = none →
    exec (.shardCommit layer shard w) s = .next s) ∧
  (∀ (s s1 : State) (layer shard : BitVec 16) (w : UpdPlan) (r : Run) (o : Nat × Nat × Nat) (idle : Prop) (src n : Nat) (d : Nat),
    (s.slot 0).run = some r →
    s.owned.find? (fun o => decide (o.1 = layer.toNat) && decide (o.2.1 = shard.toNat)) = some o →
    (idle ↔ ((s.slot 0).decision ≠ some 0 ∧ ((s.slot 0).decision ≠ some 1 ∨ r.diag = true)) ∨ r.owner = false ∨
      (∃ d ∈ (s.slot 0).updDone, d.layer = layer.toNat ∧ d.shard = shard.toNat) ∨
      (r.repair = true ∧ s.areaVersion o.2.2 (s.curArea o.2.2) = r.step)) →
    src = (s.slot 0).item (3 + s.sourceArea r o.2.2) layer.toNat shard.toNat →
    n = s.areaBytes src (s.shardElems o.2.2) (s.excCap o.2.2) → s1 = s.chargeBulk src n false →
    (idle → exec (.shardCommit layer shard w) s = .next s) ∧
    (¬ idle → s.areaWaits r o.2.2 = true → exec (.shardCommit layer shard w) s =
      .next { s with counters := ctrAdd s.counters (ckTensor Ctr.updAreaWait (Site.no (planSite w)) layer.toNat) 1 }) ∧
    (¬ idle → s.areaWaits r o.2.2 = false → Upd.planOk w = false → ∃ t, exec (.shardCommit layer shard w) s = .next t ∧
      (t.ctx (planSite w)).status = .faulted 0x02 ∧ t.mem = s.mem ∧ (t.slot 0).updDone = (s.slot 0).updDone) ∧
    (¬ idle → s.areaWaits r o.2.2 = false → Upd.planOk w = true → s.firstPoison src n = none → (s.slot 0).decision = some d →
      ∀ (u : Upd.Out) (k : Nat), u = s1.update r layer.toNat shard.toNat o.2.2 w (decide (d = 1)) →
      k = s1.stepGain r layer.toNat shard.toNat o.2.2 →
      ((s.slot 0).prev.isSome = true →
        ∃ t e, exec (.shardCommit layer shard w) s = .next t ∧ (t.slot 0).updDone = (s.slot 0).updDone ++ [e] ∧ e.layer = layer.toNat ∧
          e.shard = shard.toNat ∧ (t.slot 0).decision = some d ∧ (t.slot 0).run = some r ∧ t.cores = s.cores ∧ t.wire = s.wire ∧
          (d = 1 → t.mem = (s1.writeUpdate r layer.toNat shard.toNat o.2.2 u).mem) ∧
          (d ≠ 1 → r.diag = true → t.mem = (s1.writeUpdate r layer.toNat shard.toNat o.2.2 u).mem) ∧
          (d ≠ 1 → e.k = k ∧ e.frozen = u.stats.frozen ∧
            e.kNext = Upd.nextK k (s1.shardElems o.2.2) u.stats.lost u.stats.sat (s1.updRec r layer.toNat)) ∧
          (d ≠ 1 → r.diag = false →
            t.mem = ((s1.writeUpdate r layer.toNat shard.toNat o.2.2 u).writeHeader o.2.2 (1 - s1.curArea o.2.2) r.step e.kNext u.stats).mem)) ∧
      ((s.slot 0).prev = none → r.diag = false →
        (∀ p ∈ s.owned, (p.1 = layer.toNat ∧ p.2.1 = shard.toNat) ∨ ∃ e ∈ (s.slot 0).updDone, e.layer = p.1 ∧ e.shard = p.2.1) →
        ∃ t, exec (.shardCommit layer shard w) s = .next t ∧ (t.slot 0).run = none ∧ (t.slot 0).st = .ready ∧
          (t.slot 0).boundary = some (decide (d = 1), r.replay)))) ∧
  (∀ (s : State) (cause : BitVec 8), (s.slot 0).inStep = false → exec (.firmwareEpochClose cause) s = .next s) ∧
  (∀ (s : State) (cause : BitVec 8) (dev : Nat) (nf : Bool), (s.slot 0).inStep = true → (s.slot 0).quiesced = false →
    (s.slot 0).sealSent = false → (s.slot 0).epoch.epoch < 65536 →
    (s.slot 0).waitsForSeal s.modId.toNat dev → (∀ e ∈ (s.slot 0).seals, e.1 ≠ s.modId.toNat) →
    nf = ((s.slot 0).closedWith 30 || (s.ownedBuckets.filter (fun b => (s.slot 0).bktOpen b)).any (fun b => ((s.slot 0).bkt b).nf)) →
    ∃ t m, exec (.firmwareEpochClose cause) s = .next t ∧ (t.slot 0).ab = true ∧ (t.slot 0).quiesced = true ∧
      (t.slot 0).abCause = some ((s.slot 0).abCause.getD cause.toNat) ∧ (t.slot 0).sealSent = true ∧
      (∀ b ∈ s.ownedBuckets, (s.slot 0).bktOpen b = true →
        (t.slot 0).bkt b = { openStep := ((s.slot 0).bkt b).openStep, notes := ((s.slot 0).bkt b).notes }) ∧
      (t.slot 0).closes.length = (s.slot 0).closes.length + (s.ownedBuckets.filter (fun b => (s.slot 0).bktOpen b)).length ∧
      t.wire.getLast? = some m ∧ m.payload = sealPayload (s.slot 0).step.toNat (s.slot 0).epoch.epoch nf true ∧
      (t.slot 0).seals = (s.slot 0).seals ++ [(s.modId.toNat, nf, true)] ∧
      (∀ no, (t.core no).main.inflight = [] ∧ (t.core no).main.win = none) ∧ t.mem = s.mem)

/-- MIRROR_SEND and MIRROR_UNIT_RECEIVE. While a decided step awaits its mirror, MIRROR_SEND sends its next unit to the buddy on channel
0xF4 in messages of 16 KiB, marks that unit sent, and touches no memory and no core; with no such step or unit nothing changes. A mirror
message that does not end its unit lands in the staging slot in turn and nothing else moves. The last message of a unit whose trailer and
header CRC are both good puts the unit in its mirror place and its directory entry, turns to the other staging slot and returns a notice
without error; one that fails a CRC, or whose key has no mirror place, returns cause 0x13 and leaves places and directory. A message without
a staging slot is only taken off its way. -/
def Obligations.MirrorUnits : Prop :=
  (∀ (s : State) (d : DoneRun) (u : MUnit), (s.slot 0).prev = some d → (s.slot 0).mirror.find? (fun u => !u.sent) = some u →
    ∃ t out, exec .mirrorSend s = .next t ∧ t.wire = s.wire ++ out ∧ out.length = max 1 (((s.unitBytes u d.step).length + 16383) / 16384) ∧
      (∀ x ∈ out, x.destDev.toNat = s.buddyOf s.modId.toNat % 2 ^ 14 ∧ x.channel = 0xF4#8 ∧ x.kind = 6#4 ∧ x.tc = 2#2 ∧ x.hcheck = headerCheck x) ∧
      { u with sent := true } ∈ (t.slot 0).mirror ∧ (∀ v ∈ (s.slot 0).mirror, v ≠ u → v ∈ (t.slot 0).mirror) ∧
      (t.slot 0).prev = some d ∧ (∀ c, c ≠ mirrorChan → t.chan c = s.chan c) ∧
      { t with wire := s.wire, slots := s.slots, dma := s.dma, domains := s.domains, counters := s.counters } = s ∧
      (s.awake (dieKey (16 + mirrorChan / 32)) = true → t.domains = s.domains ∧ t.counters = s.counters)) ∧
  (∀ (s : State), (s.slot 0).prev = none ∨ (s.slot 0).mirror.find? (fun u => !u.sent) = none → exec .mirrorSend s = .next s) ∧
  (∀ (s : State) (m : Msg), m.channel = 0xF4#8 → s.agentTakes m →
    ((s.slot 0).staging = none → exec (.mirrorUnitReceive m) s = .next { s.toAgents m with wire := s.wire.erase m }) ∧
    (∀ st s1, (s.slot 0).staging = some st → s1 = s.devWrite (st + m.seq.toNat * 16384) (payloadBytes m) →
      (m.endf = false → ∃ t, exec (.mirrorUnitReceive m) s = .next t ∧ t.mem = s1.mem ∧ t.slots = s.slots ∧ t.wire = s.wire.erase m ∧
        t.cores = s.cores) ∧
      (∀ n unit key kind place, m.endf = true → n = m.seq.toNat * 16384 + (payloadBytes m).length - 8 → unit = s1.devRead st n →
        key = leAt unit 4 4 → kind = leAt unit 0 4 % 4 → (s.slot 0).mirrorPlace kind key = some place →
        (s1.devLE (st + n) 4 = (crc32c unit).toNat → leAt unit 0xC 4 = (crc32c (unit.drop 32)).toNat →
          ∃ t x, exec (.mirrorUnitReceive m) s = .next t ∧
            t.mem = ((s1.devWrite place unit).writeDirectory kind key (leAt unit 8 4) (leAt unit 0xC 4)).mem ∧
            (t.slot 0).mirrorTurn = !(s.slot 0).mirrorTurn ∧ t.wire = s.wire.erase m ++ [x] ∧ x.destDev = m.srcDev ∧ x.channel = 0xFD#8 ∧
            (x.payload.getD 0 0#32).toNat % 65536 = 0 ∧ t.cores = s.cores) ∧
        (s1.devLE (st + n) 4 ≠ (crc32c unit).toNat ∨ leAt unit 0xC 4 ≠ (crc32c (unit.drop 32)).toNat →
          ∃ t x, exec (.mirrorUnitReceive m) s = .next t ∧ t.mem = s1.mem ∧ t.wire = s.wire.erase m ++ [x] ∧ x.destDev = m.srcDev ∧
            (x.payload.getD 0 0#32).toNat % 65536 = 1 + 0x13 * 256 ∧ t.cores = s.cores)) ∧
      (∀ n unit, m.endf = true → n = m.seq.toNat * 16384 + (payloadBytes m).length - 8 → unit = s1.devRead st n →
        (s.slot 0).mirrorPlace (leAt unit 0 4 % 4) (leAt unit 4 4) = none →
        ∃ t x, exec (.mirrorUnitReceive m) s = .next t ∧ t.mem = s1.mem ∧ t.wire = s.wire.erase m ++ [x] ∧
          (x.payload.getD 0 0#32).toNat % 65536 = 1 + 0x13 * 256 ∧ t.cores = s.cores)))

/-- Epochs: issuing the next one, its parts, and the load that times out. NEXT_EPOCH_ISSUE acts only on the master of an abandoned step, 250
us after the last SEAL and with no member lost: then, with no swap pending, the next epoch is in force here, with MEMBERS and ROLE kept and
the abandoned step first, and its five parts are on their way to every other module; with swaps pending it waits; at epoch 0xFFFF the slot
stops beyond the model. EPOCH_PART keeps a part that is not the last; with the last, the record is adopted exactly if its length, its
signature and its number are right, and otherwise counted EPOCH_REJECT with the epoch kept. A firmware message of a slot that is neither
loaded nor loading is only counted. JOB_LOAD_EPOCH_TIMEOUT empties a loading slot 0 and completes its JOB_LOAD NOT_ALLOWED 7, and changes
nothing elsewhere. -/
def Obligations.EpochsFollowTheMaster : Prop :=
  (∀ (s : State), (s.isMaster = false ∨ (s.slot 0).decision ≠ some 2 ∨ s.timeUs < (s.slot 0).heldTime + 250 ∨
    (∃ d ∈ (s.slot 0).lostSeen, d ∈ (s.slot 0).epoch.members)) → exec .nextEpochIssue s = .next s) ∧
  (∀ (s : State), s.isMaster = true → (s.slot 0).decision = some 2 → (s.slot 0).heldTime + 250 ≤ s.timeUs →
    (∀ d ∈ (s.slot 0).lostSeen, d ∉ (s.slot 0).epoch.members) →
    ((s.slot 0).epoch.epoch = 0xFFFF → ∃ t, exec .nextEpochIssue s = .next t ∧ (t.slot 0).st = .haltedBeyond) ∧
    ((s.slot 0).epoch.epoch ≠ 0xFFFF →
      ∃ t e, exec .nextEpochIssue s = .next t ∧
        e = { (s.slot 0).epoch with epoch := (s.slot 0).epoch.epoch + 1, first := (s.slot 0).step.toNat, master := s.modId.toNat } ∧
        (s.toSwap = [] → (t.slot 0).epoch = e ∧ (t.slot 0).hasEpoch = true) ∧
        (s.toSwap ≠ [] → (t.slot 0).nextEpoch = some e ∧ (t.slot 0).epoch = (s.slot 0).epoch ∧
          (∀ d ∈ (s.slot 0).epoch.members, d ≠ s.modId.toNat → d < 2 ^ 14 → ∀ i, i < 5 →
            ∃ m ∈ t.wire, m.destDev.toNat = d ∧ m.channel = 0xF8#8 ∧ m.seq.toNat = i ∧ m.endf = decide (i = 4))))) ∧
  (∀ (s : State) (m : Msg), m.channel = 0xF8#8 → m.arg.toNat / 4 % 16 = 1 → s.agentTakes m → m.slot = 0#2 →
    (s.slot 0).st.loaded = true ∨ (s.slot 0).st = .loading →
    (m.endf = false → ∃ t, exec (.epochPart m) s = .next t ∧
      SMap.get [] (t.slot 0).parts m.seq.toNat = payloadBytes m ∧ (∀ j, j ≠ m.seq.toNat → SMap.get [] (t.slot 0).parts j = SMap.get [] (s.slot 0).parts j) ∧
      (t.slot 0).epoch = (s.slot 0).epoch ∧ t.wire = s.wire.erase m ∧ { t with wire := s.wire, slots := s.slots } = s.toAgents m) ∧
    (∀ r e good, m.endf = true →
      r = ((List.range 5).map (fun i => if i = m.seq.toNat then payloadBytes m else SMap.get [] (s.slot 0).parts i)).flatten → e = parseEpoch r →
      good = (decide (r.length = 0x108A0) && Config.verifies (Config.keyHash (deviceKey e.master)) (r.take 0x10840) (r.drop 0x10840) &&
        ((decide ((s.slot 0).st = .loading) && decide (e.epoch = 0)) || ((s.slot 0).hasEpoch && decide (e.epoch = (s.slot 0).epoch.epoch + 1)))) →
      ∃ t, exec (.epochPart m) s = .next t ∧ (t.slot 0).parts = [] ∧
        (good = true → s.toSwap = [] → (t.slot 0).epoch = e ∧ (t.slot 0).hasEpoch = true) ∧
        (good = true → s.toSwap ≠ [] → (t.slot 0).nextEpoch = some e) ∧
        (good = false → (t.slot 0).epoch = (s.slot 0).epoch ∧ (t.slot 0).hasEpoch = (s.slot 0).hasEpoch ∧
          t.counters = ctrAdd (s.toAgents m).counters (ckSlot Ctr.epochReject 0) 1 ∧ t.cores = s.cores))) ∧
  (∀ (s : State) (m : Msg) (i : Instr), m.channel = 0xF8#8 → s.agentTakes m → (s.slot m.slot.toNat).st.loaded = false →
    (s.slot m.slot.toNat).st ≠ .loading → (i = .epochPart m ∧ m.arg.toNat / 4 % 16 = 1) ∨ (i = .memberLost m ∧ m.arg.toNat / 4 % 16 = 2) →
    exec i s = .next { s.toAgents m with
      wire := s.wire.erase m, counters := ctrAdd (s.toAgents m).counters (ckSlot Ctr.staleTagDrop m.slot.toNat) 1 }) ∧
  (∀ (s : State), ((s.slot 0).st ≠ .loading ∨ s.activeCmd 0x0100 (fun c => decide (c.ring = 0)) = none →
      exec .jobLoadEpochTimeout s = .next s) ∧
    (∀ c, (s.slot 0).st = .loading → s.activeCmd 0x0100 (fun c => decide (c.ring = 0)) = some c →
      ∃ t, exec .jobLoadEpochTimeout s = .next t ∧ t = (s.setSlot 0 {}).finish c 0x11 7 ∧ t.slot 0 = {} ∧
        (∀ k, k ≠ 0 → t.slot k = s.slot k) ∧ t.cores = s.cores ∧ t.mem = s.mem))

/-- Lost members, takeovers and repairs. MEMBER_LOST is counted; about a module that is no member or is known to be lost it does no more;
about another member it notes the loss and abandons the step in progress, or, when a takeover in progress still needs it, stops the slot
beyond the model. LOST_MEMBER_TIMEOUT notes and abandons in the same way on the master once its time has passed since its own SEAL and the
member's SEAL is missing, and else nothing. A TAKEOVER that may begin stops the slot beyond the model when no spare qualifies, when the
buddy or the predecessor is lost too or when epochs are exhausted; else it begins the permutation of R400 with the next permutation number,
and with another module as the spare tells every member that its own part is done. STEP_REPAIR on a READY slot after a takeover changes
nothing on a spare with no unit older than the step, stops the slot beyond the model when no copy is valid, and else makes the step run next
in replay mode before the one that was to run. -/
def Obligations.LossTakeoverRepair : Prop :=
  (∀ (s : State) (m : Msg) (dev : Nat), m.channel = 0xF8#8 → m.arg.toNat / 4 % 16 = 2 → s.agentTakes m → (s.slot m.slot.toNat).st.loaded = true →
    dev = (m.payload.headD 0#32).toNat % 65536 →
    ((s.slot 0).isMember dev = false ∨ dev ∈ (s.slot 0).lostSeen → exec (.memberLost m) s = .next { s.toAgents m with
      wire := s.wire.erase m, counters := ctrAdd (s.toAgents m).counters (ckSlot Ctr.memberLostSeen 0) 1 }) ∧
    ((s.slot 0).isMember dev = true → dev ∉ (s.slot 0).lostSeen →
      ∃ t, exec (.memberLost m) s = .next t ∧ (t.slot 0).lostSeen = (s.slot 0).lostSeen ++ [dev] ∧
        ((s.slot 0).perm.takeover = none → (s.slot 0).inStep = true → (t.slot 0).quiesced = true) ∧
        (∀ l sp, (s.slot 0).perm.takeover = some (l, sp) → s.takeoverNeeds l sp dev = true → (t.slot 0).st = .haltedBeyond) ∧ ((s.slot 0).inStep = false → t.cores = s.cores ∧ t.mem = s.mem))) ∧
  (∀ (s : State) (dev : BitVec 14) (at' : Nat), (s.slot 0).sealTime = some at' →
    (s.isMaster = false ∨ s.timeUs < at' + (s.slot 0).lostTimeout * 1000000 ∨ (∃ e ∈ (s.slot 0).seals, e.1 = dev.toNat) →
      exec (.lostMemberTimeout dev) s = .next s) ∧
    (s.isMaster = true → at' + (s.slot 0).lostTimeout * 1000000 ≤ s.timeUs → (∀ e ∈ (s.slot 0).seals, e.1 ≠ dev.toNat) →
      (s.slot 0).isMember dev.toNat = true → dev.toNat ∉ (s.slot 0).lostSeen →
      ∃ t, exec (.lostMemberTimeout dev) s = .next t ∧ (t.slot 0).lostSeen = (s.slot 0).lostSeen ++ [dev.toNat] ∧
        ((s.slot 0).perm.takeover = none → (s.slot 0).inStep = true → (t.slot 0).quiesced = true))) ∧
  (∀ (s : State) (dev : BitVec 14), (s.slot 0).sealTime = none → exec (.lostMemberTimeout dev) s = .next s) ∧
  (∀ (s : State) (lost : BitVec 14) (able : List (BitVec 14)), (s.slot 0).hasEpoch = true → lost.toNat ∈ (s.slot 0).epoch.members →
    (s.slot 0).perm.active = false → (s.isMaster = true → (s.slot 0).heldTime + 250 ≤ s.timeUs) →
    ((s.slot 0).run = none ∨ (s.slot 0).decision ≠ none ∨ (s.slot 0).quiesced = true) →
    ((∀ m ∈ (s.slot 0).spares, BitVec.ofNat 14 m ∈ able → m ∈ (s.slot 0).epoch.members) →
      ∃ t, exec (.takeover lost able) s = .next t ∧ (t.slot 0).st = .haltedBeyond) ∧
    (∀ sp, (s.slot 0).spares.find? (fun m => able.contains (BitVec.ofNat 14 m) && !(s.slot 0).epoch.members.contains m) = some sp →
      (s.buddyOf lost.toNat ∈ (s.slot 0).lostSeen ∨ s.predOf lost.toNat ∈ (s.slot 0).lostSeen ∨ (s.slot 0).epoch.epoch = 0xFFFF →
        ∃ t, exec (.takeover lost able) s = .next t ∧ (t.slot 0).st = .haltedBeyond) ∧
      (s.buddyOf lost.toNat ∉ (s.slot 0).lostSeen → s.predOf lost.toNat ∉ (s.slot 0).lostSeen → (s.slot 0).epoch.epoch ≠ 0xFFFF →
        sp = s.modId.toNat → ∃ t, exec (.takeover lost able) s = .next t ∧ (t.slot 0).perm.active = true ∧
          (t.slot 0).perm.number = (s.slot 0).epoch.perm + 1 ∧ (t.slot 0).perm.takeover = some (lost.toNat, sp) ∧
          (t.slot 0).perm.entries = s.takeoverTable lost.toNat sp) ∧
      (s.buddyOf lost.toNat ∉ (s.slot 0).lostSeen → s.predOf lost.toNat ∉ (s.slot 0).lostSeen → (s.slot 0).epoch.epoch ≠ 0xFFFF →
        sp ≠ s.modId.toNat →
        ∃ t m, exec (.takeover lost able) s = .next t ∧ (t.slot 0).perm.active = true ∧ (t.slot 0).perm.number = (s.slot 0).epoch.perm + 1 ∧
          (t.slot 0).perm.takeover = some (lost.toNat, sp) ∧ (t.slot 0).perm.entries = s.takeoverTable lost.toNat sp ∧
          t.wire.getLast? = some m ∧ collOp m = 5 ∧ m.payload = [BitVec.ofNat 32 ((s.slot 0).epoch.perm + 1)] ∧
          t.cores = s.cores ∧ t.mem = s.mem))) ∧
  (∀ (s : State) (lost : BitVec 14) (able : List (BitVec 14)), (s.slot 0).hasEpoch = false ∨ lost.toNat ∉ (s.slot 0).epoch.members ∨
    (s.slot 0).perm.active = true ∨ (s.isMaster = true ∧ s.timeUs < (s.slot 0).heldTime + 250) ∨
    ((s.slot 0).run ≠ none ∧ (s.slot 0).decision = none ∧ (s.slot 0).quiesced = false) → exec (.takeover lost able) s = .next s) ∧
  (∀ (s : State) (step : Word) (copies : Bool),
    ((s.slot 0).stand = [] ∨ (s.slot 0).st ≠ .ready ∨ (s.slot 0).after.isSome = true → exec (.stepRepair step copies) s = .next s) ∧
    (∀ e, (s.slot 0).stand.getLast? = some e → e.2 = s.modId.toNat → s.repairDue step.toNat = false →
      exec (.stepRepair step copies) s = .next s) ∧
    (∀ e, (s.slot 0).stand.getLast? = some e → (s.slot 0).st = .ready → (s.slot 0).after = none →
      e.2 ≠ s.modId.toNat ∨ s.repairDue step.toNat = true →
      (copies = false → ∃ t, exec (.stepRepair step copies) s = .next t ∧ (t.slot 0).st = .haltedBeyond) ∧
      (copies = true → ∃ t r, exec (.stepRepair step copies) s = .next t ∧ (t.slot 0).run = some r ∧ r.step = step.toNat ∧ r.replay = true ∧
        r.repair = true ∧ r.owner = decide (e.2 = s.modId.toNat) ∧ (t.slot 0).after = (s.slot 0).run ∧ (t.slot 0).step = step ∧
        (e.2 ≠ s.modId.toNat → (t.slot 0).rollback = some step.toNat) ∧ { t with slots := s.slots } = s)))

/-- Gathers: requests, serving, reception, and backward releases. GATHER_REQ joins the requests that wait. GATHER_SERVE takes the oldest
request that need not wait: its transfer of header and body, or, for a version that is not held, of a header alone with version 0xFFFFFFFF,
goes to the requester and it waits no more; with none, nothing changes. A gather message that is not the last lands its bytes and gives
nothing back. The last one, when length, trailer, SRC_CRC and version are right, and, for a re-gather, the recorded CRC, ends the request,
writes the entry's version, CRC and VALID after the bytes, and returns a notice. Else a first gather is asked for once more with REFETCH,
and its second failure abandons the step; a re-gather is asked for once more as before, counted as SHARD_CHANGED, then from the owner with
REFETCH, and its third failure abandons the step. BWD_RELEASE is recorded once for a member of the group and a version held here, and else
counted as stale. -/
def Obligations.GathersAnswerRequests : Prop :=
  (∀ (s : State) (m : Msg) (w0 w1 : Nat), m.channel = 0xF0#8 → collOp m = 2 → s.agentTakes m → w0 = (m.payload.getD 0 0#32).toNat →
    w1 = (m.payload.getD 1 0#32).toNat →
    ∃ t g, exec (.gatherReq m) s = .next t ∧ (t.slot 0).gpend = (s.slot 0).gpend ++ [g] ∧ g.layer = w0 % 65536 ∧ g.shard = w0 / 65536 ∧
      g.coding = w1 % 2 ∧ g.refetch = bitOf w1 1 ∧ g.version = (m.payload.getD 2 0#32).toNat ∧ g.dev = m.srcDev.toNat ∧
      t.wire = s.wire.erase m ∧ { t with wire := s.wire, slots := s.slots } = s.toAgents m) ∧
  (∀ (s : State), (∀ g ∈ (s.slot 0).gpend, s.gatherAnswer g = .wait) → exec .gatherServe s = .next s) ∧
  (∀ (s : State) (g : GatherReq), (s.slot 0).gpend.find? (fun g => decide (s.gatherAnswer g ≠ .wait)) = some g →
    ∃ t out, exec .gatherServe s = .next t ∧ t.wire = s.wire ++ out ∧ (t.slot 0).gpend = (s.slot 0).gpend.erase g ∧
      (∀ x ∈ out, x.destDev = BitVec.ofNat 14 g.dev ∧ x.channel = 0xF2#8 ∧ x.hcheck = headerCheck x) ∧
      (s.gatherAnswer g = .none → out.length = 1 ∧ t.counters = ctrAdd s.counters (ckSlot Ctr.gatherNoversion 0) 1 ∧
        ∀ x ∈ out, x.endf = true ∧ x.payload.getD 2 0#32 = 0xFFFFFFFF#32) ∧
      (∀ v body, s.gatherAnswer g = .body v body → t.counters = s.counters ∧ out.length = max 1 ((32 + body.length + 16383) / 16384) ∧
        (∀ x, out[0]? = some x → x.payload.getD 2 0#32 = BitVec.ofNat 32 v ∧
          (∀ k, k < 4088 → 4 * k + 4 ≤ body.length → x.payload.getD (8 + k) 0#32 = BitVec.ofNat 32 (leNat ((body.drop (4 * k)).take 4))))) ∧
      { t with wire := s.wire, slots := s.slots, counters := s.counters } = s) ∧
  (∀ (s : State) (m : Msg) (s1 : State) (h : List Byte) (g : GatherReq) (body : Nat → List Byte) (good : Nat → Prop), m.channel = 0xF2#8 →
    s.agentTakes m → s1 = s.gatherLand m → h = SMap.get [] (s1.slot 0).ghdr (gatherSrc m) → g = s1.gatherReqOf h m.srcDev.toNat →
    (∀ a, body a = s1.devRead (s1.devLE (a + 8) 8) (leAt h 0x10 8)) →
    (∀ a, good a ↔ leAt h 0x10 8 ≤ s1.devLE (a + 0x10) 8 ∧ gatherAt m + (gatherData m).length = leAt h 0x10 8 ∧
      leNat (((payloadBytes m).drop ((payloadBytes m).length - 8)).take 4) = (crc32c (h ++ body a)).toNat ∧
      (crc32c (body a)).toNat = leAt h 0xC 4 ∧ (leAt h 8 4 = g.version ∨ g.version = 0xFFFFFFFF ∧ leAt h 8 4 ≠ 0xFFFFFFFF) ∧
      (g.regather = true → (crc32c (body a)).toNat = s1.devLE (a + 0x1C) 4)) →
    (m.endf = false → ∃ t, exec (.gatherReceive m) s = .next t ∧ t.mem = s1.mem ∧ t.slots = s1.slots ∧ t.wire = s.wire.erase m ∧ t.cores = s.cores) ∧
    (∀ a, m.endf = true → s1.gatherEntry g.layer g.shard g.coding = some a → good a →
      ∃ t x, exec (.gatherReceive m) s = .next t ∧ (t.slot 0).greqs = (s1.slot 0).greqs.erase g ∧
        SMap.get 0 (t.slot 0).glens (gatherKey g.layer g.shard g.coding) = leAt h 0x10 8 ∧
        t.mem = (((s1.devWrite (a + 0x18) (leBytes 4 (leAt h 8 4))).devWrite (a + 0x1C) (leBytes 4 (crc32c (body a)).toNat)).devWrite (a + 4)
          (leBytes 4 (g.coding + 2))).mem ∧
        t.wire = s.wire.erase m ++ [x] ∧ x.destDev = m.srcDev ∧ (x.payload.getD 0 0#32).toNat % 65536 = 0 ∧ t.cores = s.cores) ∧
    (m.endf = true → (∀ a, s1.gatherEntry g.layer g.shard g.coding = some a → ¬ good a) →
      (∀ d q n, (g.regather = false ∧ g.tries = 0 ∧ q = { g with tries := 1, refetch := true, dev := d } ∧ n = some Ctr.gatherRetry) ∨
          (g.regather = true ∧ g.tries = 0 ∧ q = { g with tries := 1, refetch := false, dev := d } ∧ n = some Ctr.shardChanged) ∨
          (g.regather = true ∧ g.tries = 1 ∧ q = { g with tries := 2, refetch := true, dev := d } ∧ n = none) →
        s1.gatherFrom g.shard q.refetch = some d →
        ∃ t x y, exec (.gatherReceive m) s = .next t ∧ (t.slot 0).greqs = (s1.slot 0).greqs.erase g ++ [q] ∧
          t.counters = (match n with | some n => ctrAdd (s.toAgents m).counters (ckSlot n 0) 1 | none => (s.toAgents m).counters) ∧
          t.mem = s1.mem ∧ t.cores = s.cores ∧ t.wire = s.wire.erase m ++ [x, y] ∧ x.destDev = BitVec.ofNat 14 d ∧ collOp x = 2 ∧
          x.payload = gatherReqWords q) ∧
      ((if g.regather then 2 ≤ g.tries else 1 ≤ g.tries) →
        ∃ t, exec (.gatherReceive m) s = .next t ∧ ((s1.slot 0).inStep = true → (t.slot 0).quiesced = true) ∧
          ((s1.slot 0).inStep = false → g.regather = false → t.cores = s.cores ∧ t.mem = s1.mem)))) ∧
  (∀ (s : State) (m : Msg) (v : Nat) (ok : Bool), m.channel = 0xF0#8 → collOp m = 3 → s.agentTakes m → v = (m.payload.headD 0#32).toNat →
    ok = ((s.slot 0).isMember m.srcDev.toNat && decide (((s.slot 0).role m.srcDev.toNat).1 = s.role.1) &&
      s.owned.any (fun o => decide (s.areaVersion o.2.2 0 = v) || decide (s.areaVersion o.2.2 1 = v))) →
    (ok = false → exec (.bwdRelease m) s = .next { s.toAgents m with
      wire := s.wire.erase m, counters := ctrAdd (s.toAgents m).counters (ckSlot Ctr.staleTagDrop 0) 1 }) ∧
    (ok = true → (v, m.srcDev.toNat) ∈ (s.slot 0).releases → exec (.bwdRelease m) s = .next { s.toAgents m with wire := s.wire.erase m }) ∧
    (ok = true → (v, m.srcDev.toNat) ∉ (s.slot 0).releases →
      ∃ t, exec (.bwdRelease m) s = .next t ∧ (t.slot 0).releases = (s.slot 0).releases ++ [(v, m.srcDev.toNat)] ∧ t.wire = s.wire.erase m ∧
        { t with wire := s.wire, slots := s.slots } = s.toAgents m))

/-- PERMUTE: entries received and reports counted. A message of no expected entry is only taken off its way. One that does not end its entry
writes its bytes at the entry's staging address and nothing else. The last one, with a good CRC and other entries still to come, marks the
entry passed, counts it and returns a notice without error; with a bad CRC for the first time the entry is retried, counted, with cause
0x13. The second failure ends the permutation with the epoch as it was, and a takeover's stops the slot beyond the model. PERMUTE_DONE of
another permutation, or that names no entry of it, is not counted. One that names a failed entry (log 84) ends the permutation in the same
way. One that reports without error records the sender, and, while some member has not reported or this module is not the epoch master,
nothing else changes. -/
def Obligations.PermutesCountTheirEntries : Prop :=
  (∀ (s : State) (m : Msg) (p : Perm) (at' : Nat) (data : List Byte) (ok : PermEntry × Nat → Bool), m.channel = 0xF3#8 → s.agentTakes m →
    p = (s.slot 0).perm → at' = m.seq.toNat * 16384 →
    data = (if m.endf then (payloadBytes m).take ((payloadBytes m).length - 8) else payloadBytes m) →
    ok = (fun e => decide (e.1.src = m.srcDev.toNat) && decide (e.2 % 1024 = m.arg.toNat / 4 % 1024) && !p.passed.contains e.2) →
    ((s.incoming p).find? ok = none → exec (.permuteEntryReceive m) s = .next { s.toAgents m with wire := s.wire.erase m }) ∧
    (∀ e i s1, (s.incoming p).find? ok = some (e, i) → s1 = s.devWrite (e.dstAddr + at') data →
      (m.endf = false → ∃ t, exec (.permuteEntryReceive m) s = .next t ∧ t.mem = s1.mem ∧ t.slots = s.slots ∧ t.wire = s.wire.erase m ∧
        t.cores = s.cores) ∧
      (m.endf = true → leNat (((payloadBytes m).drop ((payloadBytes m).length - 8)).take 4) =
          (crc32c (s1.devRead e.dstAddr (at' + data.length))).toNat →
        (∃ f ∈ s.incoming p, f.2 ≠ i ∧ f.2 ∉ p.passed) →
        ∃ t x, exec (.permuteEntryReceive m) s = .next t ∧ (t.slot 0).perm = { p with passed := p.passed ++ [i] } ∧ t.mem = s1.mem ∧
          t.wire = s.wire.erase m ++ [x] ∧ x.destDev = m.srcDev ∧ (x.payload.getD 0 0#32).toNat % 65536 = 0 ∧ t.cores = s.cores) ∧
      (m.endf = true → leNat (((payloadBytes m).drop ((payloadBytes m).length - 8)).take 4) ≠
          (crc32c (s1.devRead e.dstAddr (at' + data.length))).toNat →
        (i ∉ p.retried →
          ∃ t x, exec (.permuteEntryReceive m) s = .next t ∧ (t.slot 0).perm = { p with retried := p.retried ++ [i] } ∧ t.mem = s1.mem ∧
            t.wire = s.wire.erase m ++ [x] ∧ (x.payload.getD 0 0#32).toNat % 65536 = 1 + 0x13 * 256 ∧ t.cores = s.cores) ∧
        (i ∈ p.retried →
          ∃ t, exec (.permuteEntryReceive m) s = .next t ∧ (t.slot 0).perm = {} ∧ t.mem = s1.mem ∧
            (t.slot 0).epoch = (s.slot 0).epoch ∧ (p.takeover.isSome = true → (t.slot 0).st = .haltedBeyond))))) ∧
  (∀ (s : State) (m : Msg) (n bad : Nat), m.channel = 0xF0#8 → collOp m = 5 → s.agentTakes m → n = (m.payload.headD 0#32).toNat →
    bad = (m.payload.getD 1 0#32).toNat →
    ((s.slot 0).perm.active = false ∨ n ≠ (s.slot 0).perm.number ∨ (s.slot 0).perm.entries.length < bad →
      exec (.permuteDone m) s = .next { s.toAgents m with wire := s.wire.erase m }) ∧
    ((s.slot 0).perm.active = true → n = (s.slot 0).perm.number → bad ≠ 0 → bad ≤ (s.slot 0).perm.entries.length →
      ∃ t, exec (.permuteDone m) s = .next t ∧ (t.slot 0).perm = {} ∧ t.mem = s.mem ∧ t.cores = s.cores ∧ (t.slot 0).epoch = (s.slot 0).epoch ∧
        ((s.slot 0).perm.takeover.isSome = true → (t.slot 0).st = .haltedBeyond)) ∧
    ((s.slot 0).perm.active = true → n = (s.slot 0).perm.number → bad = 0 → s.isMaster = false ∨ (∃ d, d ∈ (s.slot 0).epoch.members ∧
        d ∉ (s.slot 0).lostSeen ∧ d ≠ m.srcDev.toNat ∧ d ∉ (s.slot 0).perm.dones) →
      ∃ t, exec (.permuteDone m) s = .next t ∧
        (t.slot 0).perm = { (s.slot 0).perm with dones := insNat m.srcDev.toNat (s.slot 0).perm.dones } ∧
        t.wire = s.wire.erase m ∧ { t with wire := s.wire, slots := s.slots } = s.toAgents m))

/-- A message survives its bytes: reading back what the link dies lay out gives every field and word. For every message of at most 8,191
payload words, the length that the header gives is the length of its bytes, and reading the header and payload back from the bytes, with
any further bytes behind them, gives the message: no field of the header and no word of the payload is dropped or moved. -/
def Obligations.MessagesSurviveTheirBytes : Prop :=
  ∀ (m : Msg) (tail : List Byte), m.payload.length < 8192 →
    msgLen (msgBytes m ++ tail) = (msgBytes m).length ∧ (msgBytes m).length = 16 + 4 * m.payload.length ∧ parseMsg (msgBytes m ++ tail) = m

/-- FLIT_RECEIVE and FLIT_FLUSH_TIMEOUT. A port that is down, or of links that are not configured or still train, takes no flit. On an
ACTIVE port of an ACTIVE die a flit with a bad CRC or in a codeword that the FEC does not correct is discarded, answered with NAK, and
changes no pair and delivers nothing; a good DATA flit out of RSEQ order, or a new one without a free unit of its channel, is discarded
whole: port and pair are as before; one in RSEQ and PSEQ order, with a unit free, that holds exactly a message for this module puts it on
its way to the mesh, moves both sequence numbers on by one and owes one credit of its channel. FLIT_FLUSH_TIMEOUT sends what a channel's
partly filled flit holds. Each is followed by what the links can send now. -/
def Obligations.FlitsAreCheckedAndDelivered : Prop :=
  (∀ (s : State) (port : Fin 16) (f : Flit), (s.lport port.val).carries = false ∨ s.links.configured = false ∨ s.links.training = true →
    exec (.flitReceive port f) s = .next s) ∧
  (∀ (s : State) (port : Fin 16) (f : Flit) (p i : Nat), p = port.val → i = p / 2 → (s.lport p).carries = true → s.links.configured = true →
    s.links.training = false → (s.domain (domKey 6 p)).rung = 0 → (s.domain (domKey 6 p)).phase = 0 → (s.domain (dieKey (20 + p / 4))).rung = 0 →
    (s.domain (dieKey (20 + p / 4))).phase = 0 →
    (fecOk f = false ∨ f.crc ≠ flitCrc f →
      ∃ u : State, exec (.flitReceive port f) s = .next u.linkWork ∧ u.lport p = { s.lport p with nak := true } ∧ u.links.pairs = s.links.pairs ∧
        u.wire = s.wire ∧ u.cores = s.cores ∧ u.slots = s.slots) ∧
    (fecOk f = true → f.crc = flitCrc f → f.ftype = 1#4 → f.cls ≠ 3#2 →
      (f.rseq ≠ (s.lport p).rx ∨ (s.unitFree i (flitChannel f) = false ∧ (s.lpair i).repeats f.pseq = false) →
        ∃ u : State, exec (.flitReceive port f) s = .next u.linkWork ∧ u.links = s.links ∧ u.wire = s.wire ∧ u.cores = s.cores ∧
          u.slots = s.slots) ∧
      (∀ m, f.nak = false → s.unitFree i (flitChannel f) = true → f.rseq = (s.lport p).rx → f.pseq = (s.lpair i).rx → f.bc = false → f.first = 0#8 → f.payload.take f.fill.toNat = msgBytes m →
        m.payload.length < 8192 → m.destDev = s.modId → (s.lpair i).ahead = [] → SMap.get {} (s.lpair i).inn (flitChannel f) = {} →
        ∃ u : State, exec (.flitReceive port f) s = .next u.linkWork ∧ u.wire = s.wire ++ [m] ∧ (u.lport p).rx = (s.lport p).rx + 1#16 ∧
          (u.lpair i).rx = (s.lpair i).rx + 1#16 ∧
          SMap.get 0 (u.lpair i).owed (flitChannel f) = SMap.get 0 (s.lpair i).owed (flitChannel f) + 1 ∧
          SMap.get 0 (u.lpair i).held (flitChannel f) = SMap.get 0 (s.lpair i).held (flitChannel f) ∧
          (∀ j, j ≠ i → u.lpair j = s.lpair j) ∧ u.cores = s.cores ∧ u.slots = s.slots ∧ u.mem = s.mem))) ∧
  (∀ (s : State) (pair : Fin 8) (ch : Fin 6) (o : OutStream), o = SMap.get {} ((s.linkWork).lpair pair.val).out ch.val →
    (o.bytes = [] → exec (.flitFlushTimeout pair ch) s = .next s.linkWork.linkWork) ∧
    (o.bytes ≠ [] →
      ∃ (u : State) (w : WFlit), exec (.flitFlushTimeout pair ch) s = .next u.linkWork ∧ (u.lpair pair.val).waiting = (s.linkWork.lpair pair.val).waiting ++ [w] ∧
        w.flit.ftype = 1#4 ∧ w.flit.payload = o.bytes ∧ flitChannel w.flit = ch.val ∧ w.flit.fill = BitVec.ofNat 8 o.bytes.length ∧
        (SMap.get {} (u.lpair pair.val).out ch.val).bytes = [] ∧ (∀ j, j ≠ pair.val → u.lpair j = s.linkWork.lpair j) ∧
        u.wire = s.linkWork.wire))

/-- Rungs, lanes, widths and training of a link port. RUNG_REQ on a port that does not carry, of a reserved rung, or deeper than GATED while
a slot is loaded, changes nothing; else the port's agreed rung is the one asked and a shallower stable port drains to it. RUNG_ACK is taken
by a draining port whose target is as deep. LANE_MAP sets the map of a carrying port. WIDTH_REQ of 8, 16 or 24 limits the width; a port
whose width it does not change carries on. LANE_RETIRE takes a lane away: with spares left a spare is trained, else LINK_DEGRADED is posted
and the port runs at the widest width that its lanes and far end allow. A port that changes its width hands its flits over and carries
nothing for 100 us; below 8 lanes it is down. LANE_SPARED ends one sparing, counted. PORT_TRAINING_COMPLETE ends the training of a port
whose lanes have locked: up with fresh sequence numbers and the pair in service if the far end is the wanted one, else down, miscabling
counted. -/
def Obligations.LinkPortsFollowTheirLanes : Prop :=
  (∀ (s : State) (port : Fin 16) (rung : BitVec 12) (p r : Nat), p = port.val → r = rung.toNat →
    ((s.lport p).carries = false ∨ r = 0 ∨ 6 < r ∨ (1 < r ∧ s.anyLoaded = true) → exec (.rungReq port rung) s = .next s) ∧
    ((s.lport p).carries = true → 1 ≤ r → r ≤ 6 → (1 < r → s.anyLoaded = false) →
      ∃ u : State, exec (.rungReq port rung) s = .next u.linkWork ∧ (u.lport p).rung = r ∧
        ((s.domain (domKey 6 p)).phase = 0 ∧ (s.domain (domKey 6 p)).rung < r →
          u.domain (domKey 6 p) = { s.domain (domKey 6 p) with target := r, phase := 1 }) ∧
        (¬ ((s.domain (domKey 6 p)).phase = 0 ∧ (s.domain (domKey 6 p)).rung < r) → u.domains = s.domains) ∧ u.cores = s.cores ∧ u.wire = s.wire) ∧
    ((s.domain (domKey 6 p)).phase = 1 → r ≤ (s.domain (domKey 6 p)).target →
      ∃ t, exec (.rungAck port rung) s = .next t ∧ t.lport p = { s.lport p with rung := r } ∧ (∀ q, q ≠ p → t.lport q = s.lport q) ∧
        { t with links := s.links } = s) ∧
    ((s.domain (domKey 6 p)).phase ≠ 1 ∨ (s.domain (domKey 6 p)).target < r → exec (.rungAck port rung) s = .next s) ∧
    ((s.lport p).carries = true → ∃ t, exec (.laneMap port rung) s = .next t ∧ t.lport p = { s.lport p with laneMap := r } ∧
      (∀ q, q ≠ p → t.lport q = s.lport q) ∧ { t with links := s.links } = s) ∧
    ((s.lport p).carries = false → exec (.laneMap port rung) s = .next s ∧ exec (.widthReq port rung) s = .next s) ∧
    ((s.lport p).carries = true → r = 8 ∨ r = 16 ∨ r = 24 → min (widthOf (s.lport p).usable) r = (s.lport p).width →
      ∃ t, exec (.widthReq port rung) s = .next t ∧ t.lport p = { s.lport p with farWidth := r } ∧ (∀ q, q ≠ p → t.lport q = s.lport q) ∧
        { t with links := s.links } = s) ∧
    ((s.lport p).carries = true → r = 8 ∨ r = 16 ∨ r = 24 → min (widthOf (s.lport p).usable) r ≠ (s.lport p).width →
      ∃ u : State, exec (.widthReq port rung) s =
          .next (if (u.linkWork.lport p).width < (s.lport p).width then u.linkWork.degraded p else u.linkWork) ∧
        u.lport p = { s.lport p with
          farWidth := r, width := min (widthOf (s.lport p).usable) r, up := decide (widthOf (s.lport p).usable ≠ 0), replay := [], replays := 0
          ctrl := [], changing := if widthOf (s.lport p).usable = 0 then none else some (s.timeUs + 100) } ∧
        (∀ q, q ≠ p → u.lport q = s.lport q) ∧ u.cores = s.cores ∧ u.wire = s.wire ∧ u.slots = s.slots)) ∧
  (∀ (s : State) (port : Fin 16) (p : Nat), p = port.val →
    ((s.lport p).up = false ∨ (s.lport p).usable = 0 → exec (.laneRetire port) s = .next s) ∧
    ((s.lport p).up = true → 24 < (s.lport p).usable →
      ∃ t, exec (.laneRetire port) s = .next t ∧
        t.lport p = { s.lport p with usable := (s.lport p).usable - 1, sparing := (s.lport p).sparing + 1 } ∧
        (∀ q, q ≠ p → t.lport q = s.lport q) ∧ { t with links := s.links } = s) ∧
    ((s.lport p).up = true → 0 < (s.lport p).usable → (s.lport p).usable ≤ 24 →
      (min (widthOf ((s.lport p).usable - 1)) (s.lport p).farWidth = (s.lport p).width →
        ∃ t ev, exec (.laneRetire port) s = .next t ∧ t.lport p = { s.lport p with usable := (s.lport p).usable - 1 } ∧
          (∀ q, q ≠ p → t.lport q = s.lport q) ∧ t.events = s.events ++ [ev] ∧ t.cores = s.cores ∧ t.slots = s.slots ∧ t.wire = s.wire ∧
          t.counters = s.counters) ∧
      (min (widthOf ((s.lport p).usable - 1)) (s.lport p).farWidth ≠ (s.lport p).width →
        ∃ u : State, exec (.laneRetire port) s = .next (u.linkWork.degraded p) ∧ (u.lport p).usable = (s.lport p).usable - 1 ∧
          (u.lport p).width = min (widthOf ((s.lport p).usable - 1)) (s.lport p).farWidth ∧ (u.lport p).carries = false ∧
          ((u.lport p).width < (s.lport p).width → u.counters = ctrAdd s.counters (ckLink Ctr.laneDegrade p) 1) ∧
          (∀ q, q ≠ p → u.lport q = s.lport q) ∧ u.cores = s.cores ∧ u.slots = s.slots ∧ u.wire = s.wire)) ∧
    (0 < (s.lport p).sparing →
      ∃ t, exec (.laneSpared port) s = .next t ∧ t.lport p = { s.lport p with sparing := (s.lport p).sparing - 1 } ∧
        (∀ q, q ≠ p → t.lport q = s.lport q) ∧ t.counters = ctrAdd s.counters (ckLink Ctr.laneSpared p) 1 ∧
        { t with links := s.links, counters := s.counters } = s) ∧
    ((s.lport p).sparing = 0 → exec (.laneSpared port) s = .next s)) ∧
  (∀ (s : State) (port : Fin 16) (far : Option PortIdent) (p : Nat), p = port.val →
    ((s.lport p).retraining = false ∨ (s.lport p).locked = false → exec (.portTrainingComplete port far) s = .next s) ∧
    ((s.lport p).retraining = true → (s.lport p).locked = true →
      ∃ u : State, exec (.portTrainingComplete port far) s = .next u.endLinkConfig.linkWork ∧ (u.lport p).retraining = false ∧
        (far = some (s.wantedIdent p) → (u.lport p).up = decide ((s.lport p).width ≠ 0) ∧ (u.lport p).tx = 0#16 ∧ (u.lport p).rx = 0#16 ∧
          (u.lpair (p / 2)).down = false) ∧
        (far ≠ some (s.wantedIdent p) → (u.lport p).up = false ∧ u.links.pairs = s.links.pairs ∧
          (far ≠ none → u.counters = ctrAdd s.counters (ckLink Ctr.linkMiscabled p) 1)) ∧
        (∀ q, q ≠ p → u.lport q = s.lport q) ∧ u.cores = s.cores ∧ u.slots = s.slots))

/-- Pairs that go down and the state of a ring's links. PAIR_DOWN changes nothing on a pair that is down, in a dimension of extent 1, before
the links are configured, or while a port is up or trains, unless the pair has stalled with flits that wait. Otherwise the pair is down and
barred, its ports hold nothing for replay, and slot 0's step, if one is in progress, is abandoned: the slot is quiesced; what the links can
send then follows. LINK_STATE of a dimension above 3, or of a slot that is not loaded, is only taken off its way, the latter counted; else
the blocked links received join the ring's blocked set and its detour word follows, and where it cuts no module off nothing else changes. -/
def Obligations.PairsAndRings : Prop :=
  (∀ (s : State) (pair : Fin 8) (stalled : Bool) (i : Nat) (dead waits : Bool), i = pair.val →
    dead = (!(s.lport (2 * i)).up && !(s.lport (2 * i + 1)).up && !(s.lport (2 * i)).retraining && !(s.lport (2 * i + 1)).retraining) →
    waits = (!(s.lpair i).waiting.isEmpty || !(s.lport (2 * i)).replay.isEmpty || !(s.lport (2 * i + 1)).replay.isEmpty) →
    ((s.lpair i).down = true ∨ s.links.configured = false ∨ s.extent (i / 2) = 1 ∨ (dead = false ∧ (stalled = false ∨ waits = false)) →
      exec (.pairDown pair stalled) s = .next s) ∧
    ((s.lpair i).down = false → s.links.configured = true → s.extent (i / 2) ≠ 1 → dead = true ∨ (stalled = true ∧ waits = true) →
      ∃ u : State, exec (.pairDown pair stalled) s = .next u.linkWork ∧ (u.lpair i).down = true ∧ (u.lpair i).barred = true ∧
        (u.lport (2 * i)).replay = [] ∧ (u.lport (2 * i + 1)).replay = [] ∧ (∀ p, (u.lport p).up = (s.lport p).up) ∧
        (∀ j, j ≠ i → (u.lpair j).down = (s.lpair j).down) ∧ ((s.slot 0).inStep = true → (u.slot 0).quiesced = true))) ∧
  (∀ (s : State) (m : Msg) (w d : Nat), m.channel = 0xF8#8 → m.arg.toNat / 4 % 16 = 0 → s.agentTakes m → w = (m.payload.headD 0#32).toNat →
    d = w % 256 →
    ((s.slot m.slot.toNat).st.loaded = false → (s.slot m.slot.toNat).st ≠ .loading → exec (.linkState m) s = .next { s.toAgents m with
      wire := s.wire.erase m, counters := ctrAdd (s.toAgents m).counters (ckSlot Ctr.staleTagDrop m.slot.toNat) 1 }) ∧
    ((s.slot m.slot.toNat).st.loaded = true → 4 ≤ d → exec (.linkState m) s = .next { s.toAgents m with wire := s.wire.erase m }) ∧
    (∀ s1, (s.slot m.slot.toNat).st.loaded = true → d < 4 →
      s1 = { s with links := { s.links with blocked := SMap.modify 0 s.links.blocked d (fun b => b ||| w / 65536) } } →
      (∀ c, c < s.extent d → fld (s1.detourWord d) (2 * c + 1) (2 * c) ≠ 3) →
      ∃ t, exec (.linkState m) s = .next t ∧ SMap.get 0 t.links.blocked d = SMap.get 0 s.links.blocked d ||| w / 65536 ∧
        SMap.get 0 t.links.detour d = s1.detourWord d ∧ (∀ e, e ≠ d → SMap.get 0 t.links.detour e = SMap.get 0 s.links.detour e) ∧
        t.links.pairs = s.links.pairs ∧ t.links.ports = s.links.ports ∧ t.wire = s.wire.erase m ∧
        { t with wire := s.wire, links := s.links } = s.toAgents m))

/-- Device memory: reads, writes, buffers, quotas and buckets. A request that its die does not admit is refused, counted on the die, and
changes no memory. An admitted request rouses the dies and ports that it needs; it waits while one of them exits a rung, while their
scheduler is frozen, or, of class BULK, while its bucket does not cover it. With none of these and no BULK meter, a read of granules in
service answers the bytes that stand there, and one that meets a granule that cannot be rebuilt answers that it is poisoned; a write stores
its data and answers OK, or, while its bytes lie in a combining buffer, waits for its answer. Within one granule of a group with an empty
combining buffer a write reads back, and every other place reads as before. STRIPE_BUFFER_TIMEOUT moves a waiting stripe into the stored
granules, which answers the writes that waited for it, and without one changes nothing. LC_QUOTA_WINDOW clears the die's LC use alone.
TOKEN_BUCKET_FILL with no waiting request adds one cycle's fill to each metered partition's bucket on the die, up to its capacity. -/
def Obligations.MemoryServesRequests : Prop :=
  (∀ (s : State) (q : MemReq) (data : List Byte), q.who ≠ .bar2 →
    (s.admits q = false → ∃ t die, exec (.memRead q []) s = .next t ∧ t.host.resp = .refused ∧
      t.counters = ctrAdd s.counters (ckDie Ctr.memAccessRefused die) 1 ∧ t.mem = s.mem ∧
      { t with host := s.host, counters := s.counters } = s) ∧
    (s.admits { q with len := data.length } = false → ∃ t die, exec (.memWrite q data) s = .next t ∧ t.host.resp = .refused ∧
      t.counters = ctrAdd s.counters (ckDie Ctr.memAccessRefused die) 1 ∧ { t with host := s.host, counters := s.counters } = s)) ∧
  (∀ (s s1 : State) (q : MemReq) (data : List Byte) (wr ready : Bool) (locs : List Loc), q.who ≠ .bar2 → s.admits q = true →
    (wr = true → q.len = data.length) → locs = reqLocs s.mem q.addr.toNat q.len →
    s1 = (reqDomains s.mem q.addr.toNat q.len wr).foldl State.rouse s →
    ready = ((reqDomains s.mem q.addr.toNat q.len wr).all s1.awake &&
      locs.all (fun l => !s1.frozen (16 + l.die) (granPort l.gran % 12))) →
    (ready = false ∨ (ready = true ∧ q.tc = 2#2 ∧ (s.mem.part (devPart q.addr.toNat)).bulkRate ≠ 0 ∧
        ∃ d, d < 4 ∧ SMap.get 0 s.mem.tokens (d * 8 + devPart q.addr.toNat) <
          min (s.mem.part (devPart q.addr.toNat)).bucketCap (reqCharge s.mem q.addr.toNat q.len wr d * 64)) →
      ∃ t w, exec (if wr then .memWrite q data else .memRead q []) s = .next t ∧ t.host.resp = .waiting ∧
        t.mem = { s.mem with waiting := s.mem.waiting ++ [w] } ∧ w.data = (if wr then some data else none) ∧ w.q = q ∧
        { t with host := s.host, mem := s.mem } = s1) ∧
    (ready = true → (s.mem.part (devPart q.addr.toNat)).bulkRate = 0 →
      (wr = false → (∀ l ∈ locs, s.mem.lost l.gran = false) →
        ∃ t, exec (.memRead q []) s = .next t ∧ t.host.resp = .ok ∧ t.host.respData = s.devRead q.addr.toNat q.len ∧
          { t.mem with lcUsed := s.mem.lcUsed } = s.mem ∧ { t with host := s.host, mem := s.mem, counters := s1.counters } = s1) ∧
      (wr = false → (∃ l ∈ locs, s.mem.poisoned l = true) →
        ∃ t, exec (.memRead q []) s = .next t ∧ t.host.resp = .poisoned ∧ t.mem.dram = s.mem.dram ∧ t.cores = s.cores) ∧
      (wr = true → (s.devWrite q.addr.toNat data).mem.buffered q.addr.toNat q.len = false →
        ∃ t, exec (.memWrite q data) s = .next t ∧ t.host.resp = .ok ∧ t.mem = (s.devWrite q.addr.toNat data).mem ∧
          { t with host := s.host, mem := s.mem, counters := s1.counters } = s1) ∧
      (wr = true → (s.devWrite q.addr.toNat data).mem.buffered q.addr.toNat q.len = true →
        ∃ t, exec (.memWrite q data) s = .next t ∧ t.host.resp = .waiting ∧
          t.mem = { (s.devWrite q.addr.toNat data).mem with unanswered := (s.devWrite q.addr.toNat data).mem.unanswered ++ [q] } ∧
          { t with host := s.host, mem := s.mem, counters := s1.counters } = s1))) ∧
  (∀ (s : State) (a : Nat) (data : List Byte) (l : Loc), l = locate (s.mem.part (devPart a)) (devOff a) → s.mem.buf l.grp = [] → data ≠ [] →
    l.byte + data.length ≤ 256 →
    (∀ i, i < data.length → (s.devWrite a data).mem.byteAt { l with byte := l.byte + i } = data.getD i 0#8) ∧
    (∀ k : Loc, (k.grp ≠ l.grp ∨ k.row ≠ l.row ∨ k.d * 256 + k.byte < l.d * 256 + l.byte ∨
        l.d * 256 + l.byte + data.length ≤ k.d * 256 + k.byte) → (s.devWrite a data).mem.byteAt k = s.mem.byteAt k)) ∧
  (∀ (s : State) (grp : Fin 16) (row : Nat),
    ((s.mem.buf grp.val).find? (fun e => decide (e.row = row)) = none → exec (.stripeBufferTimeout grp row) s = .next s) ∧
    (∀ e, (s.mem.buf grp.val).find? (fun e => decide (e.row = row)) = some e →
      ∃ t, exec (.stripeBufferTimeout grp row) s = .next t ∧ t.mem.dram = storeEntry s.mem.dram grp.val e ∧
        t.mem.buf grp.val = (s.mem.buf grp.val).erase e ∧ (∀ g, g ≠ grp.val → t.mem.buf g = s.mem.buf g) ∧ t.mem.parts = s.mem.parts ∧
        (s.mem.unanswered = [] → t.host = s.host ∧ t.mem.unanswered = []) ∧
        (s.mem.unanswered ≠ [] → (∀ q ∈ s.mem.unanswered, t.mem.buffered q.addr.toNat q.len = false) →
          t.host.resp = .ok ∧ t.mem.unanswered = []) ∧
        { t with mem := s.mem, counters := s.counters, host := s.host } = s)) ∧
  (∀ (s : State) (die : Fin 4),
    (∃ t, exec (.lcQuotaWindow die) s = .next t ∧ (∀ k, k / 8 = die.val → SMap.get 0 t.mem.lcUsed k = 0) ∧
      (∀ k, k / 8 ≠ die.val → SMap.get 0 t.mem.lcUsed k = SMap.get 0 s.mem.lcUsed k) ∧
      { t.mem with lcUsed := s.mem.lcUsed } = s.mem ∧ { t with mem := s.mem } = s) ∧
    (s.mem.waiting = [] →
      ∃ t, exec (.tokenBucketFill die) s = .next t ∧
        (∀ k, k < 8 → (s.mem.part k).valid = true → (s.mem.part k).bulkRate ≠ 0 → SMap.get 0 t.mem.tokens (die.val * 8 + k) =
          min (SMap.get 0 s.mem.tokens (die.val * 8 + k) + (s.mem.part k).bucketFill die.val) (s.mem.part k).bucketCap) ∧
        (∀ k, k < 8 → (s.mem.part k).valid = false ∨ (s.mem.part k).bulkRate = 0 →
          SMap.get 0 t.mem.tokens (die.val * 8 + k) = SMap.get 0 s.mem.tokens (die.val * 8 + k)) ∧
        (∀ j, j / 8 ≠ die.val → SMap.get 0 t.mem.tokens j = SMap.get 0 s.mem.tokens j) ∧
        { t.mem with tokens := s.mem.tokens } = s.mem ∧ { t with mem := s.mem } = s))

/-- Memory ports: going offline, returning, MR4 polls and the patrol. PORT_OFFLINE on a port in service or rebuilding takes it out with its
cause, counted; as the first of its die it stops no slot, as the second every loaded slot with a group on the die stops beyond the model. A
port already out stays. PORT_THERMAL_RETURN starts the rebuild of a port that went out for temperature and is NORMAL, at the rate it passes,
and else nothing. PORT_REBUILD_COMPLETE puts a rebuilding port in full service; of the granules that it still had to write, those stay lost
whose stripe has lost another. MR4_POLL raises the thermal state at once and lowers it by one after 16 polls in a row that call for less;
the third poll in a row above the limit takes the port out. PATROL_SCRUB passes over a granule on a port out of service; else it counts the
granule, notes a correction of up to 4 symbols a codeword, remaps a granule corrected on two passes in a row, and rebuilds one that cannot
be corrected; with another granule of its stripe lost it is lost, and every loaded slot with a group on the die stops beyond the model. -/
def Obligations.MemoryPortsHeal : Prop :=
  (∀ (s : State) (port : Fin 48) (cause : BitVec 8) (p : Nat), p = port.val →
    ((s.mem.port p).st = 1 ∨ (s.mem.port p).st = 3 → exec (.portOffline port cause) s = .next s) ∧
    ((s.mem.port p).st ≠ 1 → (s.mem.port p).st ≠ 3 →
      ∃ t, exec (.portOffline port cause) s = .next t ∧
        t.mem.port p = { s.mem.port p with st := if cause = 0#8 then 3 else 1, cause := cause.toNat, ptr := 0 } ∧
        (∀ j, j ≠ p → t.mem.port j = s.mem.port j) ∧ t.mem.dram = s.mem.dram ∧ t.cores = s.cores ∧
        ((∀ i, i < 12 → p / 12 * 12 + i ≠ p → (s.mem.port (p / 12 * 12 + i)).st = 0) → t.slots = s.slots) ∧
        ((∃ i, i < 12 ∧ p / 12 * 12 + i ≠ p ∧ (s.mem.port (p / 12 * 12 + i)).st ≠ 0) → ∀ k, k < 4 → (s.slot k).st.loaded = true →
          0 < (s.mem.part (s.slot k).part).onDie (p / 12) → (t.slot k).st = .haltedBeyond)) ∧
    (∀ rate, (s.mem.port p).st = 1 → (s.mem.port p).cause = 1 → (s.mem.port p).thermal = 0 →
      ∃ t, exec (.portThermalReturn port (some rate)) s = .next t ∧ t.mem.port p = { s.mem.port p with st := 2, rate := rate.toNat, ptr := 0 } ∧
        (∀ j, j ≠ p → t.mem.port j = s.mem.port j) ∧ t.mem.dram = s.mem.dram ∧ t.slots = s.slots ∧ t.cores = s.cores) ∧
    (∀ rate, ((s.mem.port p).st ≠ 1 ∨ (s.mem.port p).cause ≠ 1 ∨ (s.mem.port p).thermal ≠ 0) →
      exec (.portThermalReturn port rate) s = .next s) ∧ exec (.portThermalReturn port none) s = .next s ∧
    ((s.mem.port p).st ≠ 2 → exec (.portRebuildComplete port) s = .next s) ∧
    ((s.mem.port p).st = 2 →
      ∃ t, exec (.portRebuildComplete port) s = .next t ∧ t.mem.port p = { s.mem.port p with st := 0, cause := 0, ptr := 0 } ∧
        (∀ j, j ≠ p → t.mem.port j = s.mem.port j) ∧ (∀ g, granPort g ≠ p → (g ∈ t.mem.bad ↔ g ∈ s.mem.bad)) ∧
        (∀ ch row, ch < 4 → (s.mem.port p).ptr ≤ row → row < rowsOf (s.mem.port p).density → (granNo p ch row ∈ t.mem.bad ↔
          ∃ g ∈ s.mem.bad, granPort g / 12 = p / 12 ∧ granPort g ≠ p ∧ granCh g = ch ∧ granRow g = row)) ∧
        t.mem.dram = s.mem.dram ∧ t.slots = s.slots ∧ t.cores = s.cores)) ∧
  (∀ (s : State) (port : Fin 48) (report : Mr4) (p : Nat) (x y : MPort), p = port.val → x = s.mem.port p → y = x.poll report →
    (x.thermal ≤ Mr4.code report → y.thermal = Mr4.code report ∧ y.lower = 0) ∧
    (Mr4.code report < x.thermal → x.lower < 15 → y.thermal = x.thermal ∧ y.lower = x.lower + 1) ∧
    (Mr4.code report < x.thermal → 15 ≤ x.lower → y.thermal = x.thermal - 1 ∧ y.lower = 0) ∧
    (y.shut < 3 ∨ (x.st ≠ 0 ∧ x.st ≠ 2) → ∃ t, exec (.mr4Poll port report) s = .next t ∧ t.mem.port p = y ∧ (∀ j, j ≠ p → t.mem.port j = s.mem.port j) ∧
      (2 ≤ y.thermal → p / 12 ∈ t.mem.ceil) ∧ t.mem.dram = s.mem.dram ∧ t.slots = s.slots ∧ t.cores = s.cores) ∧
    (3 ≤ y.shut → x.st = 0 ∨ x.st = 2 → ∃ t, exec (.mr4Poll port report) s = .next t ∧
      t.mem.port p = { y with st := 1, cause := 1, ptr := 0 } ∧ (∀ j, j ≠ p → t.mem.port j = s.mem.port j) ∧ t.mem.dram = s.mem.dram)) ∧
  (∀ (s : State) (port : Fin 48) (ch : Fin 4) (row g : Nat) (l : Loc), g = granNo port.val ch.val row →
    l = Loc.mk (port.val / 12 * 4 + ch.val) row ((port.val % 12 + 23 - row % 12) % 12) 0 →
    (∀ find, s.mem.portLost g = true → exec (.patrolScrub port ch row find) s = .next s) ∧
    (s.mem.portLost g = false →
      (∀ find, find = none ∨ find = some (.symbols 0 0) ∨ find = some .link →
        ∃ t, exec (.patrolScrub port ch row find) s = .next t ∧ t.mem = { s.mem with patrol := s.mem.patrol.erase g } ∧
          (find ≠ some .link → t.counters = ctrAdd s.counters (ckDie Ctr.patrolGranules (16 + port.val / 12)) 1) ∧
          { t with mem := s.mem, counters := s.counters } = s) ∧
      (∀ a b, a ≤ 4 → b ≤ 4 → 0 < a + b →
        (g ∉ s.mem.patrol → ∃ t, exec (.patrolScrub port ch row (some (.symbols a b))) s = .next t ∧
          t.mem = { s.mem with patrol := s.mem.patrol ++ [g] } ∧ { t with mem := s.mem, counters := s.counters } = s) ∧
        (g ∈ s.mem.patrol → g ∉ s.mem.remaps →
          (s.mem.remaps.filter (fun x => decide (x / 2 ^ 25 = g / 2 ^ 25))).length < sparesOf (s.mem.port (granPort g)).density →
          ∃ t, exec (.patrolScrub port ch row (some (.symbols a b))) s = .next t ∧ t.mem.remaps = s.mem.remaps ++ [g] ∧
            t.mem.dram = s.mem.dram ∧ { t with mem := s.mem, counters := s.counters } = s)) ∧
      (∀ a b, 4 < a ∨ 4 < b → l.gran = g → g ∉ s.mem.bad →
        ((∀ j ∈ stripeGrans l.grp l.row, j ≠ g → s.mem.lost j = false) →
          ∃ t, exec (.patrolScrub port ch row (some (.symbols a b))) s = .next t ∧ t.mem.bad = s.mem.bad ∧ t.mem.dram = s.mem.dram ∧
            t.slots = s.slots ∧ t.cores = s.cores) ∧
        ((∃ j ∈ stripeGrans l.grp l.row, j ≠ g ∧ s.mem.lost j = true) →
          ∃ t, exec (.patrolScrub port ch row (some (.symbols a b))) s = .next t ∧ t.mem.bad = s.mem.bad ++ [g] ∧ t.mem.dram = s.mem.dram ∧
            t.cores = s.cores ∧ ∀ k, k < 4 → (s.slot k).st.loaded = true → 0 < (s.mem.part (s.slot k).part).onDie l.die →
              (t.slot k).st = .haltedBeyond))))

/-- DMA channels: COPY, ADD_F32 and SEND. Each of the three commands changes nothing where the die has no such channel or the channel has no
descriptor to work on. Else it wakes the die, and does nothing more while the die is not awake, burst issue is frozen, or the descriptor has
another OP. A descriptor that R312 refuses ends with STATUS 0x03 and its cause, and moves no byte. One burst of a COPY between device ranges
that do not overlap, with the channel's bursts and pool units free, reads its bytes, writes them at the destination, advances DONE and the
CRC, notes the burst in flight and ends the descriptor at its last byte; one between ranges of a core's local store does the same there. One
granule of an ADD_F32 writes the sum, element by element under add_rne, into device memory, after what a combining buffer holds of its
stripe. One message of a SEND from device memory is put on its way with the fields of R315 and the trailer where asked. A transfer of a BULK
or guest descriptor whose purse does not cover the installment waits and moves nothing. -/
def Obligations.DmaChannelsMoveBytes : Prop :=
  (∀ (s : State) (die : Fin 8) (chan : BitVec 5) (n : Nat),
    chanKey die chan = none ∨ (∃ ch, chanKey die chan = some ch ∧ (s.chan ch).current = none) →
      exec (.copy die chan n) s = .next s ∧ exec (.addF32 die chan n) s = .next s ∧ exec (.dmaSend die chan n) s = .next s) ∧
  (∀ (s s1 : State) (die : Fin 8) (chan : BitVec 5) (n ch i : Nat) (j : DmaJob) (stops : Bool), chanKey die chan = some ch →
    (s.chan ch).current = some (i, j) → s1 = s.rouse (dieKey (16 + die.val)) →
    stops = (!s1.awake (dieKey (16 + die.val)) || s1.frozen (16 + die.val) (if die.val < 4 then 12 else 6)) →
    (stops = true ∨ (j.desc.op ≤ 2 ∧ j.desc.op ≠ 0) → exec (.copy die chan n) s = .next s1) ∧
    (stops = true ∨ (j.desc.op ≤ 2 ∧ j.desc.op ≠ 1) → exec (.addF32 die chan n) s = .next s1) ∧
    (stops = true ∨ (j.desc.op ≤ 2 ∧ j.desc.op ≠ 2) → exec (.dmaSend die chan n) s = .next s1) ∧
    (∀ c, stops = false → j.started = false → j.sent = false → s1.refuseCause ch (s1.chan ch) j = some c →
      (j.desc.op = 0 ∨ 2 < j.desc.op → ∃ t, exec (.copy die chan (n + 1)) s = .next t ∧
        (t.chan ch).queue = (s.chan ch).queue.modify i (fun x => { x with fin := some (3, c) }) ∧
        { t with dma := s.dma, counters := s1.counters } = s1) ∧
      (j.desc.op = 1 → ∃ t, exec (.addF32 die chan (n + 1)) s = .next t ∧
        (t.chan ch).queue = (s.chan ch).queue.modify i (fun x => { x with fin := some (3, c) }) ∧
        { t with dma := s.dma, counters := s1.counters } = s1) ∧
      (j.desc.op = 2 → ∃ t, exec (.dmaSend die chan (n + 1)) s = .next t ∧
        (t.chan ch).queue = (s.chan ch).queue.modify i (fun x => { x with fin := some (3, c) }) ∧
        { t with dma := s.dma, counters := s1.counters } = s1))) ∧
  (∀ (s s1 : State) (die : Fin 8) (chan : BitVec 5) (ch o n : Nat) (j : DmaJob) (rest : List DmaJob) (d : DmaDesc),
    chanKey die chan = some ch → (s.chan ch).queue = j :: rest → j.fin = none → j.sent = false → j.started = true → j.desc = d →
    o = j.done → o < d.len → o < j.paid → s1 = s.rouse (dieKey (16 + die.val)) → s1.awake (dieKey (16 + die.val)) = true →
    s1.frozen (16 + die.val) (if die.val < 4 then 12 else 6) = false → s1.poolRoom ch (if d.op = 1 then 2 else 1) = true →
    (d.op = 0 → rangesMeet d.src d.len d.dst d.len = false → n = min (256 - (d.dst + o) % 256) (d.len - o) → s1.chanFlight ch < 32 →
      (d.tc = 2 → windowOf (d.src + o) = 0 → windowOf (d.dst + o) = 0 → s1.serves j.who (d.src + o) n false → s1.serves j.who (d.dst + o) n true →
        (j.slot ≠ 0 ∨ j.core = none ∨ (s.slot 0).inShadow (d.dst + o) = false) →
        ∃ u v : State, { u with counters := s1.counters } = s1 ∧ v = u.devWrite (d.dst + o) (s.devRead (d.src + o) n) ∧
          exec (.copy die chan 1) s = .next (v.modJob ch 0 (fun x => { x with
            done := o + n, crc := crc32cReg x.crc (s.devRead (d.src + o) n), fin := if o + n = d.len then some (0, 0) else none
            flight := v.inFlight x ++ [(d.dst + o, n)] }))) ∧
      (∀ no g grant id bs v, j.from' = .core no g grant id → windowOf (d.src + o) = 3 → windowOf (d.dst + o) = 3 →
        bs = rdBytes (s.core no).lmem.read ((d.src + o) % 2 ^ 32) n →
        v = (s1.bankSeen no ((d.src + o) % 2 ^ 32) n).modCore no (fun c => { c with lmem := c.lmem.writeList ((d.dst + o) % 2 ^ 32) bs }) →
        windowOf d.dst = 3 →
        exec (.copy die chan 1) s = .next (v.modJob ch 0 (fun x => { x with
          done := o + n, crc := crc32cReg x.crc bs, fin := if o + n = d.len then some (0, 0) else none, flight := v.inFlight x })))) ∧
    (d.op = 1 → d.tc = 2 → s1.chanFlight ch < 32 → ∀ no g grant id sum (src : Nat → Word) (l : Loc) (s2 s3 : State),
      j.from' = .core no g grant id → windowOf (d.src + o) = 3 → windowOf (d.dst + o) = 0 → windowOf d.dst = 0 →
      l = locate (s.mem.part (devPart (d.dst + o))) (devOff (d.dst + o)) → s2 = s1.bankSeen no ((d.src + o) % 2 ^ 32) 256 →
      s3 = (match (s.mem.buf l.grp).find? (fun e => decide (e.row = l.row)) with
        | some e => (s2.modMem (fun m => { m with bufs := SMap.modify [] m.bufs l.grp (fun b => b.erase e) })).drainEntry l.grp e
        | none => s2) →
      s1.serves j.who (d.dst + o) 256 true → s.mem.lost l.gran = false →
      src = (fun k => BitVec.ofNat 32 (leNat (((rdBytes (s.core no).lmem.read ((d.src + o) % 2 ^ 32) 256).drop (4 * k)).take 4))) →
      sum = ((List.range 64).map (fun k =>
        leBytes 4 (Fp.addRne (BitVec.ofNat 32 (leNat (((s3.devRead (d.dst + o) 256).drop (4 * k)).take 4))) (src k)).toNat)).flatten →
      ∃ v : State, { v with mem := s3.mem, counters := s3.counters } = s3 ∧
        v.mem = { (s3.holdAgain (devPart (d.dst + o))).mem with
          dram := storeEntry s3.mem.dram l.grp { row := l.row, pieces := [(l.d * 256, sum)] } } ∧
        exec (.addF32 die chan 1) s = .next (v.modJob ch 0 (fun x => { x with
          done := o + 256, crc := crc32cReg x.crc sum, fin := if o + 256 = d.len then some (0, 0) else none
          flight := v.inFlight x ++ [(d.dst + o, 256)] }))) ∧
    (d.op = 2 → d.tc = 2 → d.chan ≠ 0xF1 → d.nf = false → windowOf (d.src + o) = 0 → n = min 16384 (d.len - o) →
      s1.serves j.who (d.src + o) n false →
      ∃ (u : State) (m : Msg), { u with counters := s1.counters } = s1 ∧
        exec (.dmaSend die chan 1) s = .next ((u.inject m).modJob ch 0 (fun x => { x with
          done := o + n, crc := crc32cReg x.crc (s.devRead (d.src + o) n), sent := decide (o + n = d.len) })) ∧
        m.destDev = BitVec.ofNat 14 d.dev ∧ m.channel = BitVec.ofNat 8 d.chan ∧ m.kind = BitVec.ofNat 4 d.kind ∧ m.tc = 2#2 ∧
        m.arg = BitVec.ofNat 12 d.arg ∧ m.seq = BitVec.ofNat 16 (d.seqBase + o / 16384) ∧ m.nf = j.nf ∧ m.endf = decide (o + n = d.len) ∧
        m.slot = BitVec.ofNat 2 j.slot ∧ m.srcDev = s.modId ∧ m.payload = wordsOf (s.devRead (d.src + o) n) ++
          (if o + n = d.len ∧ d.trailer = true then [BitVec.ofNat 32 (crc32cReg j.crc (s.devRead (d.src + o) n) ^^^ 0xFFFFFFFF), 0#32] else []))) ∧
  (∀ (s s1 : State) (die : Fin 8) (chan : BitVec 5) (ch : Nat) (j : DmaJob) (rest : List DmaJob) (no grant id : Nat) (g : Bool),
    chanKey die chan = some ch → (s.chan ch).queue = j :: rest → j.fin = none → j.sent = false → j.started = true → j.paid ≤ j.done →
    j.from' = .core no g grant id → g = true ∨ j.desc.tc = 2 → s1 = s.rouse (dieKey (16 + die.val)) →
    ((s.core no).ctx g).purse < chargeAt (dmaCost j.installment) (s.gov (dieOf no)).clock →
    (j.desc.op = 0 → ∃ t, exec (.copy die chan 1) s = .next t ∧ { t with cores := s.cores, counters := s1.counters } = s1 ∧
      (t.core no).lmem = (s.core no).lmem ∧ ((t.core no).ctx g).purse = ((s.core no).ctx g).purse) ∧
    (j.desc.op = 1 → ∃ t, exec (.addF32 die chan 1) s = .next t ∧ { t with cores := s.cores, counters := s1.counters } = s1 ∧
      (t.core no).lmem = (s.core no).lmem) ∧
    (j.desc.op = 2 → ∃ t, exec (.dmaSend die chan 1) s = .next t ∧ { t with cores := s.cores, counters := s1.counters } = s1 ∧
      (t.core no).lmem = (s.core no).lmem))

/-- DMA completions, notices, the completion queue and aborts. DMA_COMPLETE changes nothing while the head's work has not ended or its bytes
stand in a combining buffer; a message of a link die's channel has ended once the neighbour has acknowledged its flits. A full completion
queue holds the head. Otherwise it leaves its queue. Without a completion record and with nobody to tell, only the channel and counters
change; with a core requester and STATUS OK its notice of R318 goes on its way, and the descriptor of a bank-extension drain frees the
core's staging area; with CQ = 1 the record of R319 is written at slot producer mod 2^CQ_LOG2 and the producer count rises. CQ_HEAD_POLL
reads the consumer index of a full queue and lets completions go on when there is room. DMA_NOTICE with STATUS OK on a core completes the
oldest op that awaits its grant; one for a memory die ends the channel's oldest message that waits for the far end. DMA_CHANNEL_ABORT ends
every descriptor with work outstanding ABORTED with cause 0x10. -/
def Obligations.DmaCompletesInOrder : Prop :=
  (∀ (s : State) (die : Fin 8) (chan : BitVec 5), chanKey die chan = none →
    exec (.dmaComplete die chan) s = .next s ∧ exec (.cqHeadPoll die chan) s = .next s ∧ exec (.dmaChannelAbort die chan) s = .next s) ∧
  (∀ (s : State) (die : Fin 8) (chan : BitVec 5) (ch : Nat) (c : DmaChan), chanKey die chan = some ch → c = s.chan ch →
    (c.queue = [] ∨ (∃ (j : DmaJob) (rest : List DmaJob), c.queue = j :: rest ∧
        ((j.fin = none ∧ (j.sent = false ∨ ch / 32 < 4 ∨ s.linkAcked j = false)) ∨
          (j.fin ≠ none ∧ j.desc.op ≠ 2 ∧ ((windowOf j.desc.dst = 0 ∧ s.mem.buffered j.desc.dst j.done = true) ∨
            (windowOf j.desc.dst = 2 ∧ s.chestBuffered (chestAddr j.desc.dst) j.done = true))))) →
      exec (.dmaComplete die chan) s = .next s) ∧
    (∀ (j : DmaJob) rest st cause, c.queue = j :: rest → (st, cause) = j.fin.getD (0, 0) →
      (j.fin = none → j.sent = true ∧ 4 ≤ ch / 32 ∧ s.linkAcked j = true) →
      (j.fin ≠ none → j.desc.op ≠ 2 → windowOf j.desc.dst = 0 → s.mem.buffered j.desc.dst j.done = false) →
      (j.fin ≠ none → j.desc.op ≠ 2 → windowOf j.desc.dst = 2 → s.chestBuffered (chestAddr j.desc.dst) j.done = false) →
      (c.cqFull = true → ∃ t, exec (.dmaComplete die chan) s = .next t ∧ t.chan ch = { c with full := true } ∧
        (∀ k, k ≠ ch → t.chan k = s.chan k) ∧ { t with dma := s.dma } = s) ∧
      (c.cqFull = false → c.closing = false → j.desc.release = false → j.desc.cq = false →
        (j.from' = .driver → j.desc.irq = false →
          ∃ t, exec (.dmaComplete die chan) s = .next t ∧ t.chan ch = { c with queue := rest } ∧
            (∀ k, k ≠ ch → t.chan k = s.chan k) ∧ { t with dma := s.dma, counters := s.counters } = s ∧
            t.counters = ctrAdd (if j.desc.op = 2 then s.counters else ctrAdd s.counters (ckChan Ctr.dmaBytes ch) (j.done / 256))
              (ckChan (if st = 0 then Ctr.dmaDescDone else if st = 3 then Ctr.dmaRefused else Ctr.dmaAborted) ch) 1) ∧
        (∀ no g grant id, j.from' = .core no g grant id → st = 0 →
          ∃ t m, exec (.dmaComplete die chan) s = .next t ∧ (id = 1 → t.core no = { s.core no with bxBusy := false }) ∧
            (id ≠ 1 → t.cores = s.cores) ∧ (∀ k, k ≠ no → t.core k = s.core k) ∧ t.chan ch = { c with queue := rest } ∧
            (∀ k, k ≠ ch → t.chan k = s.chan k) ∧ t.wire = s.wire ++ [m] ∧ m.channel = 0xFD#8 ∧ m.kind = 2#4 ∧ m.destDev = s.modId ∧
            m.destX = BitVec.ofNat 6 (no % 48) ∧ m.destY = BitVec.ofNat 6 (no / 48) ∧ m.arg = 1#12 ∧
            m.payload = [BitVec.ofNat 32 (cause * 256 + grant * 65536)] ∧
            { t with dma := s.dma, counters := s.counters, wire := s.wire, cores := s.cores } = s)) ∧
      (c.cqFull = false → c.closing = false → j.desc.release = false → j.desc.cq = true → c.hasCq = true → j.from' = .driver →
        j.desc.irq = false → s.admits { who := .firmware, addr := BitVec.ofNat 64 (c.cqBase + c.producer % 2 ^ c.cqLog2 * 32), len := 32, tc := 2#2 } = true →
        c.cqBase + c.producer % 2 ^ c.cqLog2 * 32 < 2 ^ 64 →
        ∃ t u : State, exec (.dmaComplete die chan) s = .next t ∧ { u with dma := s.dma, counters := s.counters } = s ∧
          t = { u.devWrite (c.cqBase + c.producer % 2 ^ c.cqLog2 * 32) (j.record ch c.producer c.cqLog2 s.timeUs) with dma := t.dma } ∧
          t.chan ch = { c with queue := rest, producer := (c.producer + 1) % 2 ^ 32 } ∧ (∀ k, k ≠ ch → t.chan k = s.chan k)))) ∧
  (∀ (s : State) (die : Fin 8) (chan : BitVec 5) (ch : Nat) (c d : DmaChan), chanKey die chan = some ch → c = s.chan ch →
    d = { c with cqHead := s.devLE c.cqHeadAddr 4 } →
    (c.full = false → exec (.cqHeadPoll die chan) s = .next s) ∧
    (c.full = true → d.cqFull = true → ∃ t, exec (.cqHeadPoll die chan) s = .next t ∧ t.chan ch = d ∧ (∀ k, k ≠ ch → t.chan k = s.chan k) ∧
      t.counters = ctrAdd s.counters (ckChan Ctr.dmaCqFullUs ch) 1 ∧ { t with dma := s.dma, counters := s.counters } = s) ∧
    (c.full = true → d.cqFull = false → ∃ t, exec (.cqHeadPoll die chan) s = .next t ∧ t.chan ch = { d with full := false } ∧
      (∀ k, k ≠ ch → t.chan k = s.chan k) ∧ { t with dma := s.dma } = s) ∧
    (∃ t, exec (.dmaChannelAbort die chan) s = .next t ∧ (∀ k, k ≠ ch → t.chan k = s.chan k) ∧ { t with dma := s.dma } = s ∧
      t.chan ch = { c with queue := (t.chan ch).queue } ∧ (t.chan ch).queue.length = c.queue.length ∧
      (∀ (i : Nat) (j : DmaJob), c.queue[i]? = some j → (t.chan ch).queue[i]? = some (if j.outstanding s.mem then { j with fin := some (1, 0x10) } else j)))) ∧
  (∀ (s : State) (m : Msg) (v : Nat), v = (m.payload.headD 0#32).toNat →
    (∀ (p : Site) (f : InFlight), s.takes m p → (s.ctx p).awaits (v / 65536 % 64) = some f → f.unit ≠ .nibble →
      (v % 256 = 0 → f.tok = none → f.doneCtr = none →
        ∃ t, exec (.dmaNotice m) s = .next t ∧ t.ctx p = { s.ctx p with inflight := (s.ctx p).inflight.erase f } ∧
          (t.core (Site.no p)).rest = (s.core (Site.no p)).rest ∧ t.wire = s.wire.erase m ∧ { t with wire := s.wire }.opFrame s p) ∧
      (v % 256 = 1 → v / 256 % 256 = 0x12 →
        ∃ t, exec (.dmaNotice m) s = .next t ∧ t.ctx p = { s.ctx p with status := .faulted 0x0A } ∧
          (t.core (Site.no p)).rest = (s.core (Site.no p)).rest ∧ t.wire = s.wire.erase m ∧ { t with wire := s.wire }.opFrame s p)) ∧
    (m.destDev ≠ s.modId ∨ s.inOrder m = false → exec (.dmaNotice m) s = .next s) ∧
    (∀ ch i, m.destX = 0x3F#6 → m.destY = 0x3F#6 → m.destDev = s.modId → s.inOrder m = true → m.hcheck = headerCheck m →
      ch = m.arg.toNat % 4 * 32 + v / 65536 % 32 → (s.chan ch).queue.findIdx? (fun j => j.sent && j.fin.isNone) = some i →
      ∃ t, exec (.dmaNotice m) s = .next t ∧ t.wire = s.wire.erase m ∧
        (t.chan ch).queue = (s.chan ch).queue.modify i (fun j => { j with fin := some (if v % 256 = 0 then (0, 0) else (0x01, 0x13)) }) ∧
        (∀ k, k ≠ ch → t.chan k = s.chan k) ∧ { t with dma := s.dma, wire := s.wire } = s.toAgents m))

/-- Arbiters: rounds in both modes, FREEZE and MODE. A round of an instance that its die does not have changes nothing. In NORMAL mode, at
an instance that is no memory port, one of the requests that can move is granted: it holds the highest P, on a tie below 15 the first class,
then the next in index order; its P returns to the base of its class, every loser's P rises by 1 up to 15, and every other P stays. At a
memory port the class is the one that its window gives the slot to (R299), and the window counts it. After a return from PARKED mode the old
queue goes first. In PARKED mode the head of the queue is granted when it can move, else with an empty queue the oldest request; what is
left parks while the queue of 8 has room, and P stays. While FREEZE is 1 a round grants nothing. ARB_FREEZE and ARB_UNFREEZE set FREEZE of
one instance or, with ALL, of every instance of the die and of no other die; a MODE change is made only while FREEZE is 1 and stays 1, and
is otherwise counted and refused; a die that a test access parked does not return (log 102). -/
def Obligations.ArbitersFollowPriorities : Prop :=
  (∀ (s : State) (r : RoundArgs) (die inst : Nat) (a0 a1 a : Arb) (ready : List (Nat × Nat)), die = r.die.val → inst = r.inst.toNat →
    a0 = s.arb die inst → a1 = (a0.withdraw r.ends).arrive (r.arrive.map (fun x => (x.1, x.2.val))) →
    a = (if r.window then { a1 with used := [] } else a1) →
    ready = a.active.filter (fun x => r.ready.contains x.1) →
    (arbCount die ≤ inst → exec (.arbRound r) s = .next s) ∧
    (inst < arbCount die → a0.freeze = true → ∃ t b, exec (.arbRound r) s = .next t ∧ b = t.arb die inst ∧ b.busy = none ∧ b.freeze = true ∧
      b.prio = a.prio ∧ b.last = a0.last ∧ (a0.normal = true → b.active = a.active ∧ b.queue = a0.queue) ∧
      (a0.normal = false → b.queue ++ b.active = a0.queue ++ a.active ∧ b.queue.length = max a0.queue.length (min 8 (a0.queue.length + a.active.length))) ∧
      (∀ d j, d * 4096 + j ≠ die * 4096 + inst → j < 4095 → t.arb d j = s.arb d j) ∧
      { t with arbs := s.arbs, counters := s.counters } = s) ∧
    (inst < arbCount die → a0.freeze = false → a0.normal = true → a0.drainQueue = false → ¬ (16 ≤ die ∧ die < 20 ∧ inst < 12) → ready ≠ [] →
      (a.active.map (fun x => x.1)).Nodup →
      ∃ w ∈ ready, ∃ t b, exec (.arbRound r) s = .next t ∧ b = t.arb die inst ∧ b.busy = some w.1 ∧ b.last = w.1 + 1 ∧
        b.active = a.active.erase w ∧ b.queue = a0.queue ∧ b.p w.1 = basePrio w.2 ∧
        (∀ x ∈ ready, x ≠ w → a.p x.1 ≤ a.p w.1 ∧ b.p x.1 = min 15 (a.p x.1 + 1) ∧
          (a.p x.1 = a.p w.1 → (a.p w.1 < 15 → w.2 ≤ x.2) ∧ ((a.p w.1 < 15 → w.2 = x.2) → a.turn w.1 ≤ a.turn x.1))) ∧
        (∀ i, (∀ x ∈ ready, x.1 ≠ i) → b.p i = a.p i) ∧
        (∀ d j, d * 4096 + j ≠ die * 4096 + inst → j < 4095 → t.arb d j = s.arb d j) ∧
        { t with arbs := s.arbs, counters := s.counters } = s) ∧
    (∀ c, inst < arbCount die → a0.freeze = false → a0.normal = true → a0.drainQueue = false → 16 ≤ die → die < 20 → inst < 12 →
      a.slotClass (s.mem.port ((die - 16) * 12 + inst)).thermal ready = some c →
      ∃ w ∈ ready, ∃ t b, exec (.arbRound r) s = .next t ∧ b = t.arb die inst ∧ w.2 = c ∧ b.busy = some w.1 ∧ b.active = a.active.erase w ∧
        SMap.get 0 b.used c = SMap.get 0 a.used c + 1 ∧ (∀ k, k ≠ c → SMap.get 0 b.used k = SMap.get 0 a.used k) ∧ b.p w.1 = basePrio c ∧
        (∀ x ∈ ready, x.2 = c → a.p x.1 ≤ a.p w.1) ∧ { t with arbs := s.arbs, counters := s.counters } = s) ∧
    (inst < arbCount die → a0.freeze = false → a0.normal = true → a0.drainQueue = true →
      ∃ t b, exec (.arbRound r) s = .next t ∧ b = t.arb die inst ∧ b.prio = a.prio ∧ b.active = a.active ∧
        (∀ x q, a0.queue = x :: q → r.ready.contains x.1 = true → b.busy = some x.1 ∧ b.queue = q ∧ (b.drainQueue = !q.isEmpty)) ∧
        (∀ x q, a0.queue = x :: q → r.ready.contains x.1 = false → b.busy = none ∧ b.queue = a0.queue) ∧
        { t with arbs := s.arbs, counters := s.counters } = s) ∧
    (inst < arbCount die → a0.freeze = false → a0.normal = true → a0.drainQueue = false → ready = [] →
      ∃ t, exec (.arbRound r) s = .next t ∧ t.arb die inst = { a with busy := none } ∧ { t with arbs := s.arbs } = s) ∧
    (inst < arbCount die → a0.freeze = false → a0.normal = false → a0.queue.length ≤ 8 →
      ∃ t b, exec (.arbRound r) s = .next t ∧ b = t.arb die inst ∧ b.prio = a.prio ∧ { t with arbs := s.arbs, counters := s.counters } = s ∧
        (∀ x q, a0.queue = x :: q → r.ready.contains x.1 = true → b.busy = some x.1 ∧ b.queue = q ++ a.active.take (8 - q.length) ∧
          b.active = a.active.drop (8 - q.length)) ∧
        (∀ x q, a0.queue = x :: q → r.ready.contains x.1 = false → b.busy = none ∧ b.queue = a0.queue ++ a.active.take (8 - a0.queue.length) ∧
          b.active = a.active.drop (8 - a0.queue.length)) ∧
        (∀ x q, a0.queue = [] → a.active = x :: q → r.ready.contains x.1 = true → b.busy = some x.1 ∧ b.queue = q.take 8 ∧ b.active = q.drop 8) ∧
        (∀ x q, a0.queue = [] → a.active = x :: q → r.ready.contains x.1 = false → b.busy = none ∧ b.queue = a.active.take 8 ∧
          b.active = a.active.drop 8) ∧ (a0.queue = [] → a.active = [] → b = { a with busy := none }))) ∧
  (∀ (s : State) (die : Fin 25) (inst : BitVec 12) (f : Bool) (i : Instr) (a : Arb), inst.toNat < arbCount die.val → a = s.arb die.val inst.toNat →
    (f = true → i = .arbFreeze die inst false) → (f = false → i = .arbUnfreeze die inst false) →
    ∃ t, exec i s = .next t ∧ t.arb die.val inst.toNat = { a with freeze := f } ∧ SMap.get 0 t.arbInst die.val = inst.toNat ∧
      (∀ d j, d * 4096 + j ≠ die.val * 4096 + inst.toNat → j < 4095 → t.arb d j = s.arb d j) ∧
      { t with arbs := s.arbs, arbInst := s.arbInst } = s) ∧
  (∀ (s : State) (die : Fin 25) (inst : BitVec 12),
    (∃ t, exec (.arbFreeze die inst true) s = .next t ∧ (∀ j, j < 4095 → t.arb die.val j = { s.arb die.val j with freeze := true }) ∧
      (∀ d j, d ≠ die.val → j < 4095 → t.arb d j = s.arb d j) ∧ { t with arbs := s.arbs, arbInst := s.arbInst } = s) ∧
    (∃ t, exec (.arbUnfreeze die inst true) s = .next t ∧ (∀ j, j < 4095 → t.arb die.val j = { s.arb die.val j with freeze := false }) ∧
      (∀ d j, d ≠ die.val → j < 4095 → t.arb d j = s.arb d j) ∧ { t with arbs := s.arbs, arbInst := s.arbInst } = s)) ∧
  (∀ (s : State) (die : Fin 25) (inst : BitVec 12) (freeze parked : Bool) (a : Arb), inst.toNat < arbCount die.val → a = s.arb die.val inst.toNat →
    ∃ t b, exec (.arbModeChange die inst false freeze parked) s = .next t ∧ b = t.arb die.val inst.toNat ∧
      (∀ d j, d * 4096 + j ≠ die.val * 4096 + inst.toNat → j < 4095 → t.arb d j = s.arb d j) ∧
      { t with arbs := s.arbs, arbInst := s.arbInst, counters := s.counters } = s ∧
      (parked = !a.normal → b = { a with freeze := freeze } ∧ t.counters = s.counters) ∧
      (parked = a.normal → parked = true ∨ die.val ∉ s.boot.testDies → a.freeze = false ∨ freeze = false → b = { a with freeze := freeze } ∧
        t.counters = ctrAdd s.counters (ckArb Ctr.arbModeRefused die.val inst.toNat) 1) ∧
      (parked = false → a.normal = false → die.val ∈ s.boot.testDies → b = { a with freeze := freeze } ∧ t.counters = s.counters) ∧
      (parked = a.normal → parked = true ∨ die.val ∉ s.boot.testDies → a.freeze = true → freeze = true → b.normal = !parked ∧ b.freeze = true ∧ b.active = a.active ∧ b.queue = a.queue ∧
        t.counters = s.counters ∧ (parked = true → b.prio = a.prio ∧ b.drainQueue = false) ∧
        (parked = false → b.drainQueue = !a.queue.isEmpty ∧
          ∀ x ∈ a.active ++ a.queue, ((a.active ++ a.queue).map (fun y => y.1)).Nodup → b.p x.1 = basePrio x.2)))

/-- Ring registers: enable, disable, base, doorbell and ERR. A write of a ring register through a function that does not own the block, or
before BAR0 answers, changes nothing; else the BAR2 writes that arrived earlier are accepted first, and without any of those nothing but
the ring changes. An enable with SIZE_LOG2 4 to 12 sets both counts to 0 and the ring runs; another size stops it with ERR and CAUSE 3,
counted and posted. While EN is 1 a write of BASE is ignored, counted and posted, and one of X_CTRL applies IE, VECTOR, COAL_US and EN and
keeps SIZE_LOG2. A DOORBELL within the bound sets the driver's count; beyond it the ring stops with CAUSE 1. Writing 1 to ERR restarts a
stopped ring from its present counts. -/
def Obligations.RingRegistersFollowTheirWrites : Prop :=
  ∀ (s u : State) (fn : Fin 4) (ring : Fin 11) (v : Word) (r : Nat) (x c : Ring), r = ring.val → u = s.settleBar2 → x = u.ring r →
    c = { x with ie := bitOf v.toNat 5, vector := fld v.toNat 11 6, coal := fld v.toNat 19 12 } →
    ((∀ w ∈ s.mem.waiting, (decide (w.q.who = .bar2) && w.data.isSome) = false) → u = s) ∧
    (s.ringSeen fn.val r = false → exec (.ringEnable fn ring v) s = .next s ∧ exec (.ringDisable fn ring v) s = .next s ∧
      (∀ reg, exec (.ringBaseWrite fn ring reg v) s = .next s) ∧ exec (.doorbell fn ring v) s = .next s ∧
      exec (.ringErrClear fn ring) s = .next s) ∧
    (s.ringSeen fn.val r = true →
      (x.en = false → 4 ≤ fld v.toNat 4 1 → fld v.toNat 4 1 ≤ 12 → (∀ e ∈ u.mail.done, e.1 ≠ r) →
        exec (.ringEnable fn ring v) s =
          .next (u.setRing r { c with en := true, sizeLog2 := fld v.toNat 4 1, doorbell := 0#32, index := 0#32, err := false, cause := 0 })) ∧
      (x.en = false → fld v.toNat 4 1 < 4 ∨ 12 < fld v.toNat 4 1 → ∃ t, exec (.ringEnable fn ring v) s = .next t ∧
        t.ring r = { c with en := true, sizeLog2 := fld v.toNat 4 1, doorbell := 0#32, index := 0#32, err := true, cause := 3 } ∧
        (∀ j, j ≠ r → t.ring j = u.ring j) ∧ t.events = (u.ringStop r 3).events ∧
        ctrGet t.counters { id := Ctr.ringErrors } = min (ctrGet u.counters { id := Ctr.ringErrors } + 1) (2 ^ 32 - 1)) ∧
      (x.en = true → fld v.toNat 4 1 = x.sizeLog2 → exec (.ringEnable fn ring v) s = .next (u.setRing r { c with en := true }) ∧
        exec (.ringDisable fn ring v) s = .next (u.setRing r { c with en := false })) ∧
      (x.en = true → fld v.toNat 4 1 ≠ x.sizeLog2 →
        exec (.ringDisable fn ring v) s = .next ((u.setRing r { c with en := false }).ringIgnored r)) ∧
      (x.en = false → exec (.ringDisable fn ring v) s = .next (u.setRing r { c with en := false, sizeLog2 := fld v.toNat 4 1 })) ∧
      (x.en = false → exec (.ringBaseWrite fn ring .baseLo v) s = .next (u.setRing r { x with baseLo := v.toNat / 4096 * 4096 }) ∧
        exec (.ringBaseWrite fn ring .baseHi v) s = .next (u.setRing r { x with baseHi := v.toNat })) ∧
      (x.en = true → ∀ reg, reg ≠ .ctrl → ∃ t, exec (.ringBaseWrite fn ring reg v) s = .next t ∧ t.mail = u.mail ∧
        ctrGet t.counters { id := Ctr.ringWriteIgnored } = min (ctrGet u.counters { id := Ctr.ringWriteIgnored } + 1) (2 ^ 32 - 1)) ∧
      (x.en = true → x.en = (s.ring r).en → fld v.toNat 4 1 = x.sizeLog2 →
        exec (.ringBaseWrite fn ring .ctrl v) s = .next (u.setRing r { c with en := true })) ∧
      (x.run = false → exec (.doorbell fn ring v) s = .next (u.setRing r { x with doorbell := v })) ∧
      (x.run = true → r < 5 ∨ r = 10 → (r < 5 → (v - x.index).toNat ≤ x.size) →
        (r = 10 → (v - x.index).toNat = 0 ∨ 2 ^ 31 ≤ (v - x.index).toNat) →
        exec (.doorbell fn ring v) s = .next (u.setRing r { x with doorbell := v })) ∧
      (x.run = true → (r < 5 → x.size < (v - x.index).toNat) → (5 ≤ r → 0 < (v - x.index).toNat ∧ (v - x.index).toNat < 2 ^ 31) →
        ∃ t, exec (.doorbell fn ring v) s = .next t ∧ t.ring r = { x with doorbell := v, err := true, cause := 1 } ∧
          (∀ j, j ≠ r → t.ring j = u.ring j) ∧
          ctrGet t.counters { id := Ctr.ringErrors } = min (ctrGet u.counters { id := Ctr.ringErrors } + 1) (2 ^ 32 - 1)) ∧
      (x.err = false → exec (.ringErrClear fn ring) s = .next u) ∧
      (x.err = true → x.en = true → 4 ≤ x.sizeLog2 → x.sizeLog2 ≤ 12 → r < 5 ∨ r = 10 → x.badCount r = false →
        exec (.ringErrClear fn ring) s = .next (u.setRing r { x with err := false, cause := 0 })) ∧
      (x.err = true → x.en = true → 4 ≤ x.sizeLog2 → x.sizeLog2 ≤ 12 → x.badCount r = true →
        ∃ t, exec (.ringErrClear fn ring) s = .next t ∧ t.ring r = { x with err := true, cause := 1 } ∧ (∀ j, j ≠ r → t.ring j = u.ring j)))

/-- Commands are fetched and completed, records are signalled, events are written, units are swept. COMMAND_FETCH takes the ring's next
command while the completion ring has room: a good one waits, one that R371 or R365 turns away completes at once and does not wait, a
failed read stops the ring with CAUSE 2. A completion takes the command away, counts, and writes its record, PHASE added, at the
completion ring's next slot when the ring runs and has room. IRQ_COALESCE raises the ring's vector once COAL_US has passed since the first
record not signalled, into the pending bit while the entry is masked. EVENT_FLUSH writes a queued event, PHASE added, and takes it off the
queue; a failed write stops the ring with CAUSE 2. After RECONCILE_SWEEP Yucon's view of every unit agrees with its word in what firmware
compares (log 16). -/
def Obligations.RecordsGoToTheHost : Prop :=
  (∀ (s : State) (ring : Fin 5) (pcie : Bool) (r : Nat) (x : Ring) (c : Cmd), r = ring.val → x = s.ring r →
    c = { ring := r, bytes := rdBytes s.mail.host.read (x.base + x.index.toNat % x.size * 64) 64 } →
    (s.hostUp = false ∨ x.run = false ∨ x.doorbell = x.index ∨ (s.ring (r + 5)).run = false ∨ (s.ring (r + 5)).free ≤ s.outstanding r →
      exec (.commandFetch ring pcie) s = .next s) ∧
    (s.hostUp = true → x.run = true → x.doorbell ≠ x.index → (s.ring (r + 5)).run = true → s.outstanding r < (s.ring (r + 5)).free →
      (pcie = false → ∃ t, exec (.commandFetch ring pcie) s = .next t ∧ t.ring r = { x with err := true, cause := 2 } ∧
        t.mail.cmds = s.mail.cmds ∧ (∀ j, j ≠ r → t.ring j = s.ring j)) ∧
      (pcie = true → c.refusal = none → exec (.commandFetch ring pcie) s =
        .next ((s.setRing r { x with index := x.index + 1#32 }).modMail (fun m => { m with cmds := m.cmds ++ [c] }))) ∧
      (∀ st d, pcie = true → c.refusal = some (st, d) → ∃ t, exec (.commandFetch ring pcie) s = .next t ∧
        (t.ring r).index = x.index + 1#32 ∧ (∀ e ∈ t.mail.cmds, e ∈ s.mail.cmds) ∧ t.mem = s.mem ∧ t.cores = s.cores ∧ t.slots = s.slots ∧
        ctrGet t.counters { id := Ctr.commandsDone } = min (ctrGet s.counters { id := Ctr.commandsDone } + 1) (2 ^ 32 - 1)))) ∧
  (∀ (s t : State) (c : Cmd) (st d res q : Nat) (x : Ring) (rec' : List Byte), x = s.ring (c.ring + 5) → x.run = true → 0 < x.free →
    (∀ e ∈ s.mail.done, e.1 ≠ c.ring + 5) → t = s.complete c st d res → rec' = c.record st d res s.timeUs →
    q = x.base + x.index.toNat % x.size * 32 →
    t.mail.cmds = s.mail.cmds.erase c ∧ t.mail.done = s.mail.done ∧ (t.ring (c.ring + 5)).index = x.index + 1#32 ∧
      (∀ i, i < 32 → i ≠ 7 → t.mail.host.read (q + i) = rec'.getD i 0#8) ∧
      t.mail.host.read (q + 7) = BitVec.ofNat 8 (setFld (rec'.getD 7 0#8).toNat 7 7 ((x.index.toNat / x.size + 1) % 2)) ∧
      (∀ a, a < q ∨ q + 32 ≤ a → t.mail.host.read a = s.mail.host.read a) ∧
      (∀ j, j ≠ c.ring + 5 → t.ring j = s.ring j) ∧ { t with mail := s.mail, counters := s.counters } = s) ∧
  (∀ (s : State) (ring : Fin 11) (x : Ring) (fn vec : Nat), x = s.ring ring.val → fn = s.ringFn ring.val →
    vec = (if fn = 0 then x.vector % 64 else x.vector % 4) →
    (x.unsig = none → exec (.irqCoalesce ring) s = .next s) ∧
    (∀ t0, x.unsig = some t0 → (x.ie = false ∨ s.timeUs < t0 + x.coal → exec (.irqCoalesce ring) s = .next s) ∧
      (x.ie = true → t0 + x.coal ≤ s.timeUs → ∃ t, exec (.irqCoalesce ring) s = .next t ∧ t.ring ring.val = { x with unsig := none } ∧
        (∀ j, j ≠ ring.val → t.ring j = s.ring j) ∧
        ((SMap.get 0#32 s.mail.msix (msixKey fn vec 3)).getLsbD 0 = true → t.mail.irqs = s.mail.irqs ++ [(fn, vec)] ∧
          t.mail.msixPend = s.mail.msixPend) ∧
        ((SMap.get 0#32 s.mail.msix (msixKey fn vec 3)).getLsbD 0 = false → t.mail.irqs = s.mail.irqs ∧ (fn, vec) ∈ t.mail.msixPend) ∧
        { t with mail := s.mail } = s))) ∧
  (∀ (s : State) (pcie : Bool) (x : Ring) (q : Nat), x = s.ring 10 → q = x.base + x.index.toNat % x.size * 64 →
    (s.events = [] ∨ x.run = false ∨ x.free = 0 → exec (.eventFlush pcie) s = .next s) ∧
    (s.events ≠ [] → x.run = true → x.free ≠ 0 → pcie = false → ∃ t, exec (.eventFlush pcie) s = .next t ∧
      t.ring 10 = { x with err := true, cause := 2 } ∧ (∀ e ∈ s.events, e ∈ t.events)) ∧
    (∀ e, s.events = [e] → e.payload.length = 32 → x.run = true → x.free ≠ 0 → pcie = true → ∃ t, exec (.eventFlush pcie) s = .next t ∧
      t.events = [] ∧ (t.ring 10).index = x.index + 1#32 ∧ (∀ i, i < 64 → i ≠ 3 → t.mail.host.read (q + i) = e.bytes.getD i 0#8) ∧
      t.mail.host.read (q + 3) = BitVec.ofNat 8 (setFld (e.bytes.getD 3 0#8).toNat 7 7 ((x.index.toNat / x.size + 1) % 2)) ∧
      (∀ a, a < q ∨ q + 64 ≤ a → t.mail.host.read a = s.mail.host.read a) ∧
      (∀ j, j ≠ 10 → t.ring j = s.ring j) ∧ { t with mail := s.mail, events := s.events } = s)) ∧
  (∀ (s : State),
    (s.ready = false → exec .reconcileSweep s = .next s) ∧
    (s.ready = true → ∃ t, exec .reconcileSweep s = .next t ∧
      (∀ w ∈ allUnits, ∃ v, t.mail.view.lookup (viewKey w.1 w.2) = some v ∧ viewPart w.1 v = viewPart w.1 (s.unitWord w.1 w.2)) ∧
      { t with mail := s.mail, events := s.events, evSeq := s.evSeq, evLost := s.evLost, counters := s.counters } = s ∧
      { t.mail with view := s.mail.view } = s.mail))

/-- A command acts only when it is next in its ring and its unit is in the expected state. Every command row changes nothing while no
command of its opcode is the next of its class to act in its ring; RESHARD may then still start the permutation that it has loaded. When it
is and its unit's word differs from EXPECT under MASK, the command completes STATE_MISMATCH with OBSERVED the word found, after Yucon has
observed the unit, and does nothing else. Observing a unit changes only Yucon's view, the events and the counters. -/
def Obligations.CommandsMeetTheirUnits : Prop :=
  (∀ (s : State) (ring : Fin 4) (any : Fin 5) (rem : Nat),
    ∀ e ∈ ([(.nopCommand any, any.val, 0x0000), (.identify, 4, 0x0001), (.linkConfig, 4, 0x0010), (.partitionCreate, 4, 0x0020),
        (.partitionDestroy, 4, 0x0021), (.scrubPartition, 4, 0x0022), (.powerSet rem, 4, 0x0040), (.governorSet, 4, 0x0041),
        (.jobLoad ring, ring.val, 0x0100), (.jobUnload ring, ring.val, 0x0101), (.runStep, 0, 0x0110), (.cancelSteps, 0, 0x0111),
        (.epochClose, 0, 0x0131), (.journalRead, 0, 0x0150), (.replayStep, 0, 0x0151),
        (.rollbackRelease, 0, 0x0152)] : List (Instr × Nat × Nat)),
      (s.nextCmd e.2.1 e.2.2 = none → exec e.1 s = .next s) ∧
      (∀ c, s.nextCmd e.2.1 e.2.2 = some c → (s.expect c).2 = false → exec e.1 s = .next ((s.noted c).complete (s.noting c) 1))) ∧
  (∀ (s : State) (ring : Fin 4) (any : Fin 5) (rate : Option (BitVec 3)),
    ∀ e ∈ ([(.memPortSetOffline, 4, 0x0030), (.memPortSetReturn rate, 4, 0x0030), (.telemetryRead any, any.val, 0x0050),
        (.telemetryReadClear any, any.val, 0x0050), (.jobMap ring, ring.val, 0x0102), (.stateCopyIn ring, ring.val, 0x0103),
        (.stateCopyOut ring, ring.val, 0x0103), (.layerMode ring, ring.val, 0x0120), (.fallbackPolicy ring, ring.val, 0x0121),
        (.epochIssue, 0, 0x0130), (.spareSet, 0, 0x0132)] : List (Instr × Nat × Nat)),
      s.nextCmd e.2.1 e.2.2 = none → exec e.1 s = .next s) ∧
  (∀ (s : State), (s.slot 0).permNext = none → s.nextCmd 0 0x0140 = none → exec .reshard s = .next s) ∧
  (∀ (s : State) (c : Cmd) (w : Nat), w = s.unitWord c.unitKind c.unitIndex → c.unitKind ≠ 0xFF →
    ((s.expect c).2 = true ↔ w &&& c.fieldAt 0x10 4 = c.fieldAt 0x0C 4 &&& c.fieldAt 0x10 4) ∧ (s.noting c).observed = w ∧
    (∃ v, (s.noted c).mail.view.lookup (viewKey c.unitKind c.unitIndex) = some v ∧ viewPart c.unitKind v = viewPart c.unitKind w) ∧
    { s.noted c with mail := s.mail, events := s.events, evSeq := s.evSeq, evLost := s.evLost, counters := s.counters } = s ∧
    { (s.noted c).mail with view := s.mail.view, cmds := s.mail.cmds } = s.mail ∧
    (c ∈ s.mail.cmds → s.noting c ∈ (s.noted c).mail.cmds))

/-- The commands of the management ring. With the checks of R368 passed: NOP and IDENTIFY complete OK, the latter with the module's identity
in RESULT; LINK_CONFIG is refused while a slot is loaded and else sets the extents, trains the ports whose lanes have locked and, while any
trains, parks the link dies' arbiters; PARTITION_CREATE refuses a bad record, a partition that is not FREE (log 57) or rows not scrubbed and
else puts it into force; PARTITION_DESTROY clears the record and keeps the contents; SCRUB_PARTITION begins and SCRUB_DONE leaves zeros over
the partition and every other byte as it was; MEM_PORT_SET takes a port out or begins its return; POWER_SET refuses a forbidden rung,
completes where it is already, begins or deepens a drain, waits for an exit in progress, or enables; GOVERNOR_SET refuses a bad record and
else holds it for the next window; TELEMETRY_READ writes its entries to staging, and with CLEAR takes what it read from the counters. -/
def Obligations.ManagementCommandsAct : Prop :=
  (∀ (s n : State) (c d : Cmd) (ring : Fin 5), n = s.noted c → d = s.noting c → (s.expect c).2 = true →
    (s.nextCmd ring.val 0x0000 = some c → exec (.nopCommand ring) s = .next (n.finish d 0)) ∧
    (s.nextCmd 4 0x0001 = some c → exec .identify s = .next (n.finish d 0 0 (s.modId.toNat + s.boot.logDensity % 2 * 2 ^ 14 +
      s.boot.logFwVersion % 65536 * 2 ^ 16 + s.usableSpares % 256 * 2 ^ 32))) ∧
    (s.nextCmd 4 0x0010 = some c →
      (s.anyLoaded = true → exec .linkConfig s = .next (n.complete d 4 1)) ∧
      (∀ k, k = [fld (c.fieldAt 0x18 4) 3 0 + 1, fld (c.fieldAt 0x18 4) 7 4 + 1, fld (c.fieldAt 0x18 4) 10 8 + 1, fld (c.fieldAt 0x18 4) 13 11 + 1] →
        s.anyLoaded = false → (∃ q, q < 16 ∧ (s.lport q).locked = true ∧ 1 < k.getD (q / 4) 1) → ∃ t, exec .linkConfig s = .next t ∧ t.links.k = k ∧ t.links.configured = true ∧
          t.links.training = true ∧ t.links.pairs = [] ∧ t.links.detour = [] ∧ t.links.blocked = [] ∧
          (∀ q, q < 16 → (t.lport q).retraining = ((s.lport q).locked && decide (1 < k.getD (q / 4) 1)) ∧ (t.lport q).up = false ∧ (t.lport q).usable = (s.lport q).usable ∧
            (k.getD (q / 4) 1 = 1 → (t.domain (domKey 6 q)).rung = 6)) ∧
          (∀ i j, i < 4 → j < 7 → (t.arb (20 + i) j).normal = false ∧ (t.arb (20 + i) j).freeze = false) ∧
          (d ∈ n.mail.cmds → { d with active := true } ∈ t.mail.cmds) ∧ { t.mail with cmds := n.mail.cmds } = n.mail ∧
          { t with links := n.links, arbs := n.arbs, arbInst := n.arbInst, domains := n.domains, mail := n.mail } = n) ∧
      (∀ k, k = [fld (c.fieldAt 0x18 4) 3 0 + 1, fld (c.fieldAt 0x18 4) 7 4 + 1, fld (c.fieldAt 0x18 4) 10 8 + 1, fld (c.fieldAt 0x18 4) 13 11 + 1] →
        s.anyLoaded = false → (∀ q, q < 16 → (s.lport q).locked = false ∨ k.getD (q / 4) 1 ≤ 1) → ∃ t, exec .linkConfig s = .next t ∧
          t.links.k = k ∧ t.links.configured = true ∧ t.links.training = false ∧ (∀ q, q < 16 → (t.lport q).up = false) ∧ t.cores = n.cores ∧
          t.slots = n.slots)) ∧
    (s.nextCmd 4 0x0020 = some c → ∀ b p, b = (c.bytes.drop 0x18).take 32 → p = parsePart b →
      (∀ o, s.partRefusal b (rowsOf s.boot.logDensity) = some o → exec .partitionCreate s = .next (n.complete d 0x12 o)) ∧
      (s.partRefusal b (rowsOf s.boot.logDensity) = none → s.unitWord 9 c.unitIndex % 16 ≠ 0 → exec .partitionCreate s = .next (n.complete d 1)) ∧
      (s.partRefusal b (rowsOf s.boot.logDensity) = none → s.unitWord 9 c.unitIndex % 16 = 0 → s.mem.scrubDue p = true → exec .partitionCreate s = .next (n.complete d 0x13)) ∧
      (s.partRefusal b (rowsOf s.boot.logDensity) = none → s.unitWord 9 c.unitIndex % 16 = 0 → s.mem.scrubDue p = false → ∃ u : State, exec .partitionCreate s = .next (u.finish d 0) ∧
        u.mem.part c.unitIndex = p ∧ (∀ j, j ≠ c.unitIndex → u.mem.part j = s.mem.part j) ∧ u.mem.dram = s.mem.dram ∧
        (p.valid = true → ∀ g ∈ groupsOf p.groups, (g, p.baseRow, p.rows, p.owner) ∈ u.mem.owners) ∧ { u with mem := s.mem } = n)) ∧
    (s.nextCmd 4 0x0021 = some c →
      (s.partBusy c.unitIndex = true → exec .partitionDestroy s = .next (n.complete d 4 2)) ∧
      (s.partBusy c.unitIndex = false → ∃ u : State, exec .partitionDestroy s = .next (u.finish d 0) ∧ u.mem.part c.unitIndex = {} ∧
        (∀ j, j ≠ c.unitIndex → u.mem.part j = s.mem.part j) ∧ u.mem.dram = s.mem.dram ∧ u.mem.owners = s.mem.owners ∧
        u.mem.bufs = s.mem.bufs ∧ { u with mem := s.mem } = n)) ∧
    (s.nextCmd 4 0x0022 = some c →
      (s.partBusy c.unitIndex = true → exec .scrubPartition s = .next (n.complete d 4 2)) ∧
      (s.partBusy c.unitIndex = false → (s.mem.part c.unitIndex).valid = false → exec .scrubPartition s = .next (n.finish d 0)) ∧
      (s.partBusy c.unitIndex = false → (s.mem.part c.unitIndex).valid = true → ∃ t, exec .scrubPartition s = .next t ∧
        t.mem.part c.unitIndex = { s.mem.part c.unitIndex with scrubbing := true } ∧ (∀ j, j ≠ c.unitIndex → t.mem.part j = s.mem.part j) ∧
        t.mem.dram = s.mem.dram ∧ (d ∈ n.mail.cmds → { d with active := true } ∈ t.mail.cmds) ∧
        { t with mem := s.mem, mail := n.mail } = n)) ∧
    (s.nextCmd 4 0x0041 = some c → ∀ b o, b = (c.bytes.drop 0x18).take 32 →
      o = (((List.range 16).filter (fun i => decide (i ≠ c.unitIndex))).map (fun i => ((s.gov i).next.getD (s.gov i).cfg).capW)).sum →
      (∀ f, govRefusal b o (c.fieldAt 0x38 2) = some f → exec .governorSet s = .next (n.complete d 0x12 f)) ∧
      (govRefusal b o (c.fieldAt 0x38 2) = none → ∃ u : State, exec .governorSet s = .next (u.finish d 0) ∧
        u.gov c.unitIndex = { s.gov c.unitIndex with next := some (parseGov b) } ∧ (∀ j, j ≠ c.unitIndex → u.gov j = s.gov j) ∧
        u.boot = { s.boot with moduleW := c.fieldAt 0x38 2 } ∧ { u with govs := s.govs, boot := s.boot } = n))) ∧
  (∀ (s : State) (part : Fin 8) (p : PartRec), p = s.mem.part part.val →
    (p.scrubbing = false → exec (.scrubDone part) s = .next s) ∧
    (p.scrubbing = true → s.mem.dram.erased = false → s.mem.dram.lost = [] → ∃ t, exec (.scrubDone part) s = .next t ∧
      t.mem.part part.val = { p with scrubbing := false, clean := true } ∧ (∀ j, j ≠ part.val → t.mem.part j = s.mem.part j) ∧
      (∀ a, p.holds (a / 256) = true → t.mem.dram.read a = 0#8) ∧ (∀ a, p.holds (a / 256) = false → t.mem.dram.read a = s.mem.dram.read a) ∧
      (∀ g ∈ t.mem.bad, p.holds g = false ∧ g ∈ s.mem.bad) ∧ t.cores = s.cores ∧ t.slots = s.slots)) ∧
  (∀ (s n : State) (c d : Cmd), s.nextCmd 4 0x0030 = some c → n = s.noted c → d = s.noting c → (s.expect c).2 = true →
    (bitOf (c.fieldAt 0x18 1) 0 = true → exec .memPortSetOffline s = .next s) ∧
    (bitOf (c.fieldAt 0x18 1) 0 = false → (∀ rate, exec (.memPortSetReturn rate) s = .next s) ∧
      (s.dieDegraded c.unitIndex = true → exec .memPortSetOffline s = .next (n.complete d 4 3)) ∧
      (s.dieDegraded c.unitIndex = false → (s.mem.port c.unitIndex).st = 1 ∨ (s.mem.port c.unitIndex).st = 3 →
        exec .memPortSetOffline s = .next (n.finish d 0)) ∧
      (s.dieDegraded c.unitIndex = false → (s.mem.port c.unitIndex).st ≠ 1 → (s.mem.port c.unitIndex).st ≠ 3 → ∃ u : State, exec .memPortSetOffline s = .next (u.finish d 0) ∧
        u.mem.port c.unitIndex = { s.mem.port c.unitIndex with st := 1, cause := 4, ptr := 0 } ∧
        (∀ j, j ≠ c.unitIndex → u.mem.port j = s.mem.port j) ∧ u.mem.dram = s.mem.dram ∧ u.slots = s.slots)) ∧
    (bitOf (c.fieldAt 0x18 1) 0 = true → ∀ rate : Option (BitVec 3),
      (s.dieDegraded c.unitIndex = true → exec (.memPortSetReturn rate) s = .next (n.complete d 4 3)) ∧
      (s.dieDegraded c.unitIndex = false → (s.mem.port c.unitIndex).thermal ≠ 0 → exec (.memPortSetReturn rate) s = .next (n.complete d 4 4)) ∧
      (s.dieDegraded c.unitIndex = false → (s.mem.port c.unitIndex).thermal = 0 → (s.mem.port c.unitIndex).st = 0 →
        exec (.memPortSetReturn rate) s = .next (n.finish d 0)) ∧
      (s.dieDegraded c.unitIndex = false → (s.mem.port c.unitIndex).thermal = 0 → (s.mem.port c.unitIndex).st = 2 →
        exec (.memPortSetReturn rate) s = .next (n.startLong d)) ∧
      (rate = none → s.dieDegraded c.unitIndex = false → (s.mem.port c.unitIndex).thermal = 0 →
        (s.mem.port c.unitIndex).st = 1 ∨ (s.mem.port c.unitIndex).st = 3 →
        exec (.memPortSetReturn rate) s = .next (n.complete { d with observed := s.unitWord 10 c.unitIndex } 1)) ∧
      (∀ r, rate = some r → s.dieDegraded c.unitIndex = false → (s.mem.port c.unitIndex).thermal = 0 →
        (s.mem.port c.unitIndex).st = 1 ∨ (s.mem.port c.unitIndex).st = 3 → ∃ t, exec (.memPortSetReturn rate) s = .next t ∧
          t.mem.port c.unitIndex = { s.mem.port c.unitIndex with st := 2, rate := r.toNat, ptr := 0 } ∧
          (∀ j, j ≠ c.unitIndex → t.mem.port j = s.mem.port j) ∧ (d ∈ n.mail.cmds → { d with active := true } ∈ t.mail.cmds) ∧
          { t with mem := s.mem, mail := n.mail } = n))) ∧
  (∀ (s n : State) (c d : Cmd) (rem w k : Nat) (x : Domain) (deep : Bool), s.nextCmd 4 0x0040 = some c → n = s.noted c → d = s.noting c →
    (s.expect c).2 = true → w = c.fieldAt 0x18 1 % 8 → k = domOf c.unitKind c.unitIndex → x = s.domain k →
    deep = (if x.phase = 3 then decide (0 < w) else if x.phase = 0 then decide (x.rung < w) else decide (x.target ≤ w)) →
    (s.rungForbidden c.unitKind c.unitIndex w = true → exec (.powerSet rem) s = .next (n.complete d 4 5)) ∧
    (s.rungForbidden c.unitKind c.unitIndex w = false →
      (x.phase = 0 → x.rung = w → exec (.powerSet rem) s = .next (n.finish d 0 0 w)) ∧
      (x.phase = 0 → deep = true → (c.unitKind = 6 → (s.lport c.unitIndex).up = false) → ∃ t, exec (.powerSet rem) s = .next t ∧
        t.domain k = { x with target := w, phase := 1, commanded := true } ∧ (∀ j, j ≠ k → t.domain j = s.domain j) ∧
        (1 ≤ c.unitKind → c.unitKind ≤ 4 → c.unitIndex < 25 → ∀ i, i < 4095 → (t.arb c.unitIndex i).freeze = true) ∧
        (c.unitKind = 5 → c.unitIndex < 48 → (t.arb (16 + c.unitIndex / 12) (c.unitIndex % 12)).freeze = true) ∧
        (c.unitKind = 7 → c.unitIndex = 0 → ∀ die i, die < 25 → i < 4095 → (t.arb die i).freeze = true) ∧
        (d ∈ n.mail.cmds → { d with active := true } ∈ t.mail.cmds) ∧
        { t with domains := n.domains, arbs := n.arbs, arbInst := n.arbInst, mail := n.mail } = n) ∧
      (x.phase = 0 → deep = true → c.unitKind = 6 → (s.lport c.unitIndex).up = true → ∃ u : State, exec (.powerSet rem) s = .next u.linkWork ∧
        u.domain k = { x with target := w, phase := 1, commanded := true } ∧ (∀ j, j ≠ k → u.domain j = s.domain j) ∧
        (d ∈ n.mail.cmds → { d with active := true } ∈ u.mail.cmds) ∧ u.cores = n.cores ∧ u.slots = n.slots ∧ u.mem = n.mem) ∧
      (x.phase ≠ 0 → deep = true → ∃ t, exec (.powerSet rem) s = .next t ∧
        t.domain k = (if x.phase = 3 then { x with deeper := some (max w (x.deeper.getD 0)) }
          else { x with target := max w x.target, commanded := true }) ∧ (∀ j, j ≠ k → t.domain j = s.domain j) ∧
        (d ∈ n.mail.cmds → { d with active := true } ∈ t.mail.cmds) ∧ { t with domains := n.domains, mail := n.mail } = n) ∧
      (¬ (x.phase = 0 ∧ x.rung = w) → deep = false → exec (.powerSet rem) s = .next
        (let t := (n.startLong d).enable k rem false; let e := t.domain k
         if e.phase = 0 then t.finishPower c.unitKind c.unitIndex none (fun _ => e.rung) else t)))) ∧
  (∀ (s n u : State) (c d : Cmd) (ring : Fin 5) (sc idx dest : Nat) (mine : CKey → Bool) (bytes : List Byte), s.nextCmd ring.val 0x0050 = some c →
    n = s.noted c → d = s.noting c → (s.expect c).2 = true → sc = c.fieldAt 0x18 1 % 16 → idx = c.fieldAt 0x1C 4 → dest = c.fieldAt 0x20 8 →
    mine = (fun k => decide (scopeIndex sc k = some (if sc = 0 then 0 else idx))) → bytes = (telemEntries n.counters sc mine).flatten →
    u = n.devWrite dest bytes →
    (bitOf (c.fieldAt 0x18 1) 4 = true → exec (.telemetryRead ring) s = .next s) ∧
    (bitOf (c.fieldAt 0x18 1) 4 = false → exec (.telemetryReadClear ring) s = .next s) ∧
    (c.fieldAt 0x28 4 < bytes.length → bitOf (c.fieldAt 0x18 1) 4 = false → exec (.telemetryRead ring) s = .next (n.complete d 6)) ∧
    (bytes.length ≤ c.fieldAt 0x28 4 → n.inStaging dest bytes.length = false → bitOf (c.fieldAt 0x18 1) 4 = false →
      exec (.telemetryRead ring) s = .next (n.complete d 3 0x20)) ∧
    (bytes.length ≤ c.fieldAt 0x28 4 → n.inStaging dest bytes.length = true →
      (bitOf (c.fieldAt 0x18 1) 4 = false → exec (.telemetryRead ring) s = .next (u.finish d 0 0 bytes.length)) ∧
      (bitOf (c.fieldAt 0x18 1) 4 = true → ∃ v : State, exec (.telemetryReadClear ring) s = .next (v.finish d 0 0 bytes.length) ∧
        v.counters = u.counters.filter (fun e => !mine e.1) ∧ { v with counters := u.counters, cleared := u.cleared } = u)))

/-- Jobs: load, map, copy and unload. With the checks of R368 passed: JOB_LOAD of an occupied slot, from outside staging, into a partition
of another owner or with an image that R373 to R377 refuse changes nothing but the command; a guest job runs at once with its image, map and
records; either first wakes the link ports that are deeper than GATED; a training job waits for the job-load epoch, which the master issues
at once with epoch 0 and the start step, with every record of its step one below the start elsewhere. JOB_MAP acts on slot 0 only at a
boundary that no RUN_STEP will make and on a guest slot once every bound core stands at a routine's start or runs none (log 80); it refuses
likewise and else puts the image's map into force. STATE_COPY refuses ranges outside staging or the slot's partition and else copies the
bytes. JOB_UNLOAD of a slot in no step completes the ring's other commands ABORTED and empties the slot: its channels are given up, its
contexts hold nothing, its partition keeps its contents; a command that its slot cannot take in its state completes STATE_MISMATCH (log 57). -/
def Obligations.JobsComeAndGo : Prop :=
  (∀ (s n : State) (c d : Cmd) (ring : Fin 4) (k len part : Nat) (b : List Byte), s.nextCmd k 0x0100 = some c → k = ring.val → c.ring = k →
    n = s.noted c → d = s.noting c → (s.expect c).2 = true → len = c.fieldAt 0x20 5 → part = c.fieldAt 0x34 1 % 8 →
    b = n.devRead (c.fieldAt 0x18 8) len →
    ((s.slot k).st ≠ .empty → exec (.jobLoad ring) s = .next (n.complete d 1)) ∧
    ((s.slot k).st = .empty → s.inStaging (c.fieldAt 0x18 8) len = false → exec (.jobLoad ring) s = .next (n.complete d 3 0x18)) ∧
    ((s.slot k).st = .empty → s.inStaging (c.fieldAt 0x18 8) len = true → (s.mem.part part).valid = false ∨ (s.mem.part part).owner ≠ k →
      exec (.jobLoad ring) s = .next (n.complete d 3 0x34)) ∧
    ((s.slot k).st = .empty → s.inStaging (c.fieldAt 0x18 8) len = true → (s.mem.part part).valid = true → (s.mem.part part).owner = k →
      (∀ st o, imageRefusal n b len k part false = some (st, o) → exec (.jobLoad ring) s = .next (n.complete d st o)) ∧
      (imageRefusal n b len k part false = none →
        (k ≠ 0 → ∃ u : State, exec (.jobLoad ring) s = .next (u.finish d 0) ∧
          u.slot k = (Slot.withGuest { st := .running, guest := true, seed := BitVec.ofNat 64 (c.fieldAt 0x28 8), part := part, image := b, base := b }
            s.modId.toNat).withRecords ∧ (∀ j, j ≠ k → u.slot j = s.slot j) ∧
          (∀ no, (no, true) ∉ (u.slot k).bound → u.core no = n.wakePorts.core no) ∧
          { u with slots := n.slots, cores := n.cores, dma := n.dma } = n.wakePorts) ∧
        (k = 0 → (parseColl (secFor b 4 ((rankOf b s.modId.toNat).getD 0xFFFF))).master = s.modId.toNat → ∃ (x : Slot) (e : EpochRec),
          exec (.jobLoad ring) s = .next (((n.wakePorts.setSlot 0 x).startLong d).issueEpoch e) ∧ x.st = .loading ∧ x.image = b ∧ x.part = part ∧
          e.epoch = 0 ∧ e.first = c.fieldAt 0x30 4 ∧ e.master = s.modId.toNat) ∧
        (k = 0 → (parseColl (secFor b 4 ((rankOf b s.modId.toNat).getD 0xFFFF))).master ≠ s.modId.toNat → ∃ t, exec (.jobLoad ring) s = .next t ∧
          (t.slot 0).st = .loading ∧ (t.slot 0).seed = BitVec.ofNat 64 (c.fieldAt 0x28 8) ∧ (t.slot 0).part = part ∧ (t.slot 0).image = b ∧
          (t.slot 0).step = BitVec.ofNat 32 (c.fieldAt 0x30 4 - 1) ∧ (t.slot 0).committed = c.fieldAt 0x30 4 - 1 ∧
          (t.slot 0).decided = c.fieldAt 0x30 4 - 1 ∧ (∀ j, j ≠ 0 → t.slot j = s.slot j) ∧
          (d ∈ n.mail.cmds → { d with active := true } ∈ t.mail.cmds) ∧ { t with slots := n.slots, mail := n.mail } = n.wakePorts)))) ∧
  (∀ (s n : State) (c d : Cmd) (ring : Fin 4) (k len : Nat) (b : List Byte), s.nextCmd k 0x0102 = some c → k = ring.val → c.ring = k →
    n = s.noted c → d = s.noting c → len = c.fieldAt 0x20 5 → b = n.devRead (c.fieldAt 0x18 8) len → c.opcode = 0x0102 →
    (k = 0 → (s.slot 0).run ≠ none ∨ s.stepFollows c = true → exec (.jobMap ring) s = .next s) ∧
    (k ≠ 0 → s.atStart k = false → exec (.jobMap ring) s = .next s) ∧
    ((if k = 0 then (s.slot 0).run = none ∧ s.stepFollows c = false else s.atStart k = true) → (s.expect c).2 = true →
      ((s.slot k).st.loaded = false → exec (.jobMap ring) s = .next (n.complete d 1)) ∧
      ((s.slot k).st.loaded = true → s.inStaging (c.fieldAt 0x18 8) len = false → exec (.jobMap ring) s = .next (n.complete d 3 0x18)) ∧
      ((s.slot k).st.loaded = true → s.inStaging (c.fieldAt 0x18 8) len = true →
        (∀ st o, imageRefusal n b len k (s.slot k).part true = some (st, o) → exec (.jobMap ring) s = .next (n.complete d st o)) ∧
        (imageRefusal n b len k (s.slot k).part true = none → ∃ u : State, exec (.jobMap ring) s = .next (u.finish d 0) ∧
          (u.slot k).image = b ∧ (u.slot k).base = (s.slot k).base ∧ (u.slot k).modes = (s.slot k).modes ∧
          (u.slot k).committed = (s.slot k).committed ∧ (u.slot k).st = (s.slot k).st ∧ (∀ j, j ≠ k → u.slot j = s.slot j) ∧
          { u with slots := n.slots, cores := n.cores, dma := n.dma, mem := n.mem, counters := n.counters, host := n.host } = n ∧
          (k ≠ 0 → u.mem = s.mem))))) ∧
  (∀ (s n : State) (c d : Cmd) (ring : Fin 4) (out : Bool) (i : Instr) (k sa da len : Nat), s.nextCmd k 0x0103 = some c → k = ring.val → c.ring = k →
    n = s.noted c → d = s.noting c → (out = true → i = .stateCopyOut ring) → (out = false → i = .stateCopyIn ring) →
    sa = c.fieldAt 0x20 8 → da = c.fieldAt 0x28 8 → len = c.fieldAt 0x30 5 →
    (bitOf (c.fieldAt 0x18 1) 0 ≠ out → exec i s = .next s) ∧
    (bitOf (c.fieldAt 0x18 1) 0 = out → (s.expect c).2 = false → exec i s = .next (n.complete d 1)) ∧
    (bitOf (c.fieldAt 0x18 1) 0 = out → (s.expect c).2 = true →
      (¬ (isDev sa = true ∧ (s.mem.part (devPart sa)).valid = true ∧ (s.mem.part (devPart sa)).owner = 6) → exec i s = .next (n.complete d 3 0x20)) ∧
      (isDev sa = true → (s.mem.part (devPart sa)).valid = true → (s.mem.part (devPart sa)).owner = 6 →
        (¬ (isDev da = true ∧ (s.mem.part (devPart da)).valid = true ∧ (s.mem.part (devPart da)).owner = k) → exec i s = .next (n.complete d 3 0x28)) ∧
        (isDev da = true → (s.mem.part (devPart da)).valid = true → (s.mem.part (devPart da)).owner = k →
          ((s.mem.part (devPart sa)).size < devOff sa + len ∨ (s.mem.part (devPart da)).size < devOff da + len →
            exec i s = .next (n.complete d 6)) ∧
          (devOff sa + len ≤ (s.mem.part (devPart sa)).size → devOff da + len ≤ (s.mem.part (devPart da)).size →
            exec i s = .next ((if out then n.devWrite sa (s.devRead da len) else n.devWrite da (s.devRead sa len)).finish d 0 0 len)))))) ∧
  (∀ (s n : State) (c d : Cmd) (ring : Fin 4) (k : Nat), s.nextCmd k 0x0101 = some c → k = ring.val → c.ring = k → n = s.noted c →
    d = s.noting c → (s.expect c).2 = true →
    ((s.slot k).st ≠ .ready → (s.slot k).st ≠ .halted → (s.slot k).st ≠ .haltedBeyond → (k = 0 ∨ (s.slot k).st ≠ .running) →
      exec (.jobUnload ring) s = .next (n.complete d 1)) ∧
    ((s.slot k).st = .ready ∨ (s.slot k).st = .halted ∨ (s.slot k).st = .haltedBeyond ∨ (k ≠ 0 ∧ (s.slot k).st = .running) →
      SMap.wf {} s.dma = true → ∃ t, exec (.jobUnload ring) s = .next t ∧ t.slot k = {} ∧ (∀ j, j ≠ k → t.slot j = s.slot j) ∧ t.mem = s.mem ∧
        (∀ e ∈ t.mail.cmds, e.ring = k → e = { d with active := true }) ∧
        (∀ e ∈ s.mail.cmds, e.ring ≠ k → e ∈ t.mail.cmds) ∧
        (∀ e ∈ (s.slot k).bound, ((t.core e.1).ctx e.2).hdr = {} ∧ ((t.core e.1).ctx e.2).inflight = [] ∧
          ((t.core e.1).ctx e.2).purse = ((s.core e.1).ctx e.2).purse) ∧
        (∀ no, (∀ e ∈ (s.slot k).bound, e.1 ≠ no) → t.core no = s.core no) ∧
        (∀ ch, (s.chan ch).valid = true → (s.chan ch).owner = k → (s.chan ch).queue = [] → t.chan ch = { s.chan ch with valid := false }) ∧
        (∀ ch, (s.chan ch).valid = true → (s.chan ch).owner = k → (s.chan ch).queue ≠ [] → t.chan ch = { (s.chan ch).abort s.mem 0x10 with closing := true }) ∧
        (∀ ch, (s.chan ch).valid = false ∨ (s.chan ch).owner ≠ k → t.chan ch = s.chan ch)))

/-- Steps, modes, policies, epochs, spares, reshards, replays and the journal, as commanded. With the checks of R368 passed: RUN_STEP of a
slot in no state for it, under a rollback that no repair lifts, of another step than the next, outside staging or with a bad table is
refused with its status, and is else accepted with its table; CANCEL_STEPS aborts the accepted steps not released; EPOCH_CLOSE closes every
open bucket of a step in progress; JOURNAL_READ, REPLAY_STEP and ROLLBACK_RELEASE do as R372 and R381 state, or complete with their status.
LAYER_MODE, FALLBACK_POLICY, EPOCH_ISSUE and SPARE_SET act on slot 0 only at a boundary that no RUN_STEP will make: the named layer's entry,
or every layer's, changes under its mask, never to SH = 3, and a guest's WIDE bits are formed again from PIN and the fall-back state (log
80), a good policy record replaces the slot's, the master issues the next epoch, the list of spares is replaced. LAYER_MODE and
FALLBACK_POLICY of a guest act at once. RESHARD loads its table into the free buffer, even while another permutation runs, and the
permutation starts only between steps. -/
def Obligations.SlotCommandsAct : Prop :=
  (∀ (s n : State) (c d : Cmd) (x : Slot) (next : Nat) (tbl : List Byte), s.nextCmd 0 0x0110 = some c → n = s.noted c → d = s.noting c →
    (s.expect c).2 = true → x = s.slot 0 → next = x.lastReleased + 1 + n.acceptedSteps.length → tbl = n.devRead (c.fieldAt 0x20 8) (64 * x.nUpd) →
    (x.st.loaded = false → exec .runStep s = .next (n.complete d 1)) ∧
    (x.st = .halted → exec .runStep s = .next (n.complete d 0x20)) ∧ (x.st = .haltedBeyond → exec .runStep s = .next (n.complete d 0x22)) ∧
    (x.st = .ready ∨ x.st = .running ∨ x.st = .replaying →
      (x.rollback ≠ none → (∀ r, x.run = some r → r.repair = false) → exec .runStep s = .next (n.complete d 4 6))) ∧
    (x.st = .ready ∨ x.st = .running ∨ x.st = .replaying → x.rollback = none ∨ (∃ r, x.run = some r ∧ r.repair = true) →
      (c.fieldAt 0x18 4 ≠ next → exec .runStep s = .next (n.complete d 5 (next % 65536))) ∧
      (c.fieldAt 0x18 4 = next → n.inStaging (c.fieldAt 0x20 8) (64 * x.nUpd) = false →
        exec .runStep s = .next (n.complete d 3 0x20)) ∧
      (c.fieldAt 0x18 4 = next → n.inStaging (c.fieldAt 0x20 8) (64 * x.nUpd) = true →
        (bitOf (c.fieldAt 0x1C 4) 13 = false → n.inStaging (c.fieldAt 0x30 8) (c.fieldAt 0x38 4) = false →
          exec .runStep s = .next (n.complete d 3 0x30)) ∧
        (bitOf (c.fieldAt 0x1C 4) 13 = true ∨ n.inStaging (c.fieldAt 0x30 8) (c.fieldAt 0x38 4) = true →
          (∀ o, Upd.tableRefusal tbl = some o → exec .runStep s = .next (n.complete d 0x12 o)) ∧
          (Upd.tableRefusal tbl = none → ∃ t, exec .runStep s = .next t ∧
            (d ∈ n.mail.cmds → { d with active := true, data := tbl } ∈ t.mail.cmds) ∧ t.mail.cmds.length = n.mail.cmds.length ∧
            { t with mail := n.mail } = n ∧ { t.mail with cmds := n.mail.cmds } = n.mail))))) ∧
  (∀ (s n : State) (c d : Cmd), n = s.noted c → d = s.noting c → (s.expect c).2 = true →
    (s.nextCmd 0 0x0111 = some c → ∃ u : State, exec .cancelSteps s = .next (u.finish d 0 0 n.acceptedSteps.length) ∧ u.slots = s.slots ∧
      u.cores = s.cores ∧ u.mem = s.mem ∧ u.mail.cmds.length = n.mail.cmds.length - n.acceptedSteps.length ∧
      (∀ e ∈ u.mail.cmds, e ∈ n.mail.cmds)) ∧
    (s.nextCmd 0 0x0131 = some c → ((s.slot 0).inStep = false → exec .epochClose s = .next (n.finish d 0)) ∧
      ((s.slot 0).inStep = true → exec .epochClose s = .next ((n.epochClose 7).finish d 0))) ∧
    (s.nextCmd 0 0x0152 = some c →
      ((s.slot 0).rollback ≠ some (c.fieldAt 0x18 4) → exec .rollbackRelease s = .next (n.complete d 0x14)) ∧
      ((s.slot 0).rollback = some (c.fieldAt 0x18 4) → ∃ u : State, exec .rollbackRelease s = .next (u.finish d 0) ∧
        u.slot 0 = { s.slot 0 with rollback := none } ∧ (∀ j, j ≠ 0 → u.slot j = s.slot j) ∧ { u with slots := s.slots } = n)) ∧
    (s.nextCmd 0 0x0151 = some c → ∀ x, x = s.slot 0 →
      (x.st ≠ .ready ∨ x.run ≠ none → exec .replayStep s = .next (n.complete d 1)) ∧
      (x.st = .ready → x.run = none → x.rollback ≠ some (c.fieldAt 0x18 4) → exec .replayStep s = .next (n.complete d 0x14)) ∧
      (x.st = .ready → x.run = none → x.rollback = some (c.fieldAt 0x18 4) →
        (n.journalRecord 0 (c.fieldAt 0x18 4) = none → exec .replayStep s = .next (n.complete d 0x16)) ∧
        (∀ b, n.journalRecord 0 (c.fieldAt 0x18 4) = some b →
          (n.inStaging (c.fieldAt 0x20 8) (64 * leAt b 0x38 4) = false → exec .replayStep s = .next (n.complete d 3 0x20)) ∧
          (n.inStaging (c.fieldAt 0x20 8) (64 * leAt b 0x38 4) = true →
            ((crc32c (n.devRead (c.fieldAt 0x20 8) (64 * leAt b 0x38 4))).toNat ≠ leAt b 0x28 4 → exec .replayStep s = .next (n.complete d 0x15)) ∧
            ((crc32c (n.devRead (c.fieldAt 0x20 8) (64 * leAt b 0x38 4))).toNat = leAt b 0x28 4 → ∃ t r, exec .replayStep s = .next t ∧
              t.slot 0 = { x with run := some r, decision := none } ∧ r.step = c.fieldAt 0x18 4 ∧ r.m = leAt b 0x18 4 % 4096 + 1 ∧
              r.replay = true ∧ r.diag = true ∧ r.batch = leAt b 0x10 8 ∧ r.upd = recUpd b ∧ (∀ j, j ≠ 0 → t.slot j = s.slot j) ∧
              { t with slots := s.slots, mail := n.mail } = n))))) ∧
    (s.nextCmd 0 0x0150 = some c → c.fieldAt 0x18 4 = c.fieldAt 0x1C 4 →
      (n.journalRecord 0 (c.fieldAt 0x18 4) = none → exec .journalRead s = .next (n.complete d 0x16)) ∧
      (∀ a b p, (n.journalRecord 0 (c.fieldAt 0x18 4)).isSome = true → n.journalPart = some p →
        s.journal.recs.filter (fun e => decide (e.2.1 = 0) && decide (c.fieldAt 0x18 4 ≤ e.1) && decide (e.1 ≤ c.fieldAt 0x1C 4)) =
          [(c.fieldAt 0x18 4, 0, a, b)] →
        (c.fieldAt 0x28 4 < b → exec .journalRead s = .next (n.complete d 6)) ∧
        (b ≤ c.fieldAt 0x28 4 → n.inStaging (c.fieldAt 0x20 8) b = false → exec .journalRead s = .next (n.complete d 3 0x20)) ∧
        (b ≤ c.fieldAt 0x28 4 → n.inStaging (c.fieldAt 0x20 8) b = true →
          exec .journalRead s = .next ((n.devWrite (c.fieldAt 0x20 8) (n.devRead (devAddr p a) b)).finish d 0 0 b))))) ∧
  (∀ (s n : State) (c d : Cmd) (ring : Fin 4) (k op : Nat) (i : Instr), k = ring.val → c.ring = k → n = s.noted c → d = s.noting c → c.opcode = op →
    s.nextCmd k op = some c → (i, op) ∈ [(Instr.layerMode ring, 0x0120), (.fallbackPolicy ring, 0x0121), (.epochIssue, 0x0130), (.spareSet, 0x0132)] →
    (op = 0x0130 ∨ op = 0x0132 → k = 0) →
    (k = 0 → (s.slot 0).run ≠ none ∨ s.stepFollows c = true → exec i s = .next s) ∧
    ((k = 0 → (s.slot 0).run = none ∧ s.stepFollows c = false) → (s.expect c).2 = false → exec i s = .next (n.complete d 1)) ∧
    ((k = 0 → (s.slot 0).run = none ∧ s.stepFollows c = false) → (s.expect c).2 = true →
      (op = 0x0120 → ∀ (named : Nat → Bool) (new : Nat → Word),
        (∀ l, named l = decide (l < 0xFFFF ∧ (c.fieldAt 0x18 2 = l ∨ c.fieldAt 0x18 2 = 0xFFFF))) →
        (∀ l, new l = if named l = true then modeChange (SMap.get 0x200#32 (s.slot k).modes l) (c.fieldAt 0x1C 4) (c.fieldAt 0x20 4)
          else SMap.get 0x200#32 (s.slot k).modes l) →
        ((∃ l, named l = true ∧ fld (new l).toNat 11 10 = 3) → exec i s = .next (n.complete d 3 0x1C)) ∧
        ((∀ l, named l = true → fld (new l).toNat 11 10 ≠ 3) → ∃ u : State, exec i s = .next (u.finish d 0) ∧
          (∀ (l : Nat) (e : Word), l < 0xFFFF → e = SMap.get 0x200#32 (u.slot k).modes l → ((s.slot k).guest = false → e = new l) ∧
            ((s.slot k).guest = true → e.toNat / 8 = (new l).toNat / 8 ∧ ∀ p, p < 3 →
              e.getLsbD p = ((new l).getLsbD (3 + p) || (SMap.get {} (s.slot k).lprods (prodKey l p)).wide))) ∧
          { u.slot k with modes := (s.slot k).modes } = s.slot k ∧ (∀ j, j ≠ k → u.slot j = s.slot j) ∧ { u with slots := s.slots } = n)) ∧
      (op = 0x0121 → (∀ o, policyRefusal ((c.bytes.drop 0x18).take 16) = some o → exec i s = .next (n.complete d 0x12 o)) ∧
        (policyRefusal ((c.bytes.drop 0x18).take 16) = none → ∃ u : State, exec i s = .next (u.finish d 0) ∧
          u.slot k = { s.slot k with policy := parsePolicy ((c.bytes.drop 0x18).take 16) } ∧ (∀ j, j ≠ k → u.slot j = s.slot j) ∧
          { u with slots := s.slots } = n)) ∧
      (op = 0x0130 → (s.isMaster = false → exec i s = .next (n.complete d 4 7)) ∧
        (s.isMaster = true → (s.slot 0).epoch.epoch = 0xFFFF → exec i s = .next (n.complete d 4 8)) ∧
        (s.isMaster = true → (s.slot 0).epoch.epoch ≠ 0xFFFF → s.inStaging (c.fieldAt 0x18 8) 0x10800 = false →
          exec i s = .next (n.complete d 3 0x18)) ∧
        (s.isMaster = true → (s.slot 0).epoch.epoch ≠ 0xFFFF → s.inStaging (c.fieldAt 0x18 8) 0x10800 = true →
          ∃ e : EpochRec, exec i s = .next ((n.startLong d).issueEpoch e) ∧ e.epoch = (s.slot 0).epoch.epoch + 1 ∧ e.first = c.fieldAt 0x20 4 ∧
            e.master = s.modId.toNat ∧ e.members = parseMembers (n.devRead (c.fieldAt 0x18 8) 0x10800) ∧
            e.roles = parseRoles (n.devRead (c.fieldAt 0x18 8) 0x10800) ∧ e.perm = (s.slot 0).epoch.perm)) ∧
      (op = 0x0132 → ∀ ids, ids = (entriesOf (n.devRead (c.fieldAt 0x18 8) (2 * c.fieldAt 0x20 1)) 2).map leNat →
        (s.inStaging (c.fieldAt 0x18 8) (2 * c.fieldAt 0x20 1) = false → exec i s = .next (n.complete d 3 0x18)) ∧
        (s.inStaging (c.fieldAt 0x18 8) (2 * c.fieldAt 0x20 1) = true →
          (∀ j, ids.findIdx? (fun v => decide (16384 ≤ v)) = some j → exec i s = .next (n.complete d 0x12 (2 * j))) ∧
          (ids.findIdx? (fun v => decide (16384 ≤ v)) = none → ∃ u : State, exec i s = .next (u.finish d 0) ∧
            u.slot 0 = { s.slot 0 with spares := ids } ∧ (∀ j, j ≠ 0 → u.slot j = s.slot j) ∧ { u with slots := s.slots } = n))))) ∧
  (∀ (s n : State) (c d : Cmd) (x : Slot) (idle : Prop), n = s.noted c → d = s.noting c → x = s.slot 0 →
    (idle ↔ x.run = none ∧ x.prev = none ∧ x.perm.active = false) →
    (∀ number es, x.permNext = some (number, es) → (¬ idle → exec .reshard s = .next s) ∧
      (idle → ∃ u : State, exec .reshard s = .next (u.startPerm number none es) ∧ u.slot 0 = { x with permNext := none } ∧
        (∀ j, j ≠ 0 → u.slot j = s.slot j) ∧ { u with slots := s.slots } = s)) ∧
    (x.permNext = none → s.nextCmd 0 0x0140 = some c → (s.expect c).2 = true →
      (x.st.loaded = false → exec .reshard s = .next (n.complete d 1)) ∧
      (x.st.loaded = true → x.epoch.epoch = 0xFFFF → exec .reshard s = .next (n.complete d 4 8)) ∧
      (x.st.loaded = true → x.epoch.epoch ≠ 0xFFFF → n.inStaging (c.fieldAt 0x18 8) (32 * c.fieldAt 0x20 4) = false →
        exec .reshard s = .next (n.complete d 3 0x18)) ∧
      (∀ es, x.st.loaded = true → x.epoch.epoch ≠ 0xFFFF → n.inStaging (c.fieldAt 0x18 8) (32 * c.fieldAt 0x20 4) = true →
        (entriesOf (n.devRead (c.fieldAt 0x18 8) (32 * c.fieldAt 0x20 4)) 32).map parsePerm = es →
        ((∃ e ∈ es, e = none) → exec .reshard s = .next (n.complete d 3 0x18)) ∧
        ((∀ e ∈ es, e ≠ none) → ∃ u : State, (∀ j, j ≠ 0 → u.slot j = s.slot j) ∧ { u with slots := n.slots, mail := n.mail } = n ∧
          (d ∈ n.mail.cmds → { d with active := true } ∈ u.mail.cmds) ∧
          (¬ idle → exec .reshard s = .next u ∧ u.slot 0 = { x with permNext := some (c.fieldAt 0x24 4, es.filterMap id) }) ∧
          (idle → exec .reshard s = .next (u.startPerm (c.fieldAt 0x24 4) none (es.filterMap id)) ∧ u.slot 0 = x)))))

/-- BAR0 and BAR2 requests, virtual functions and driver DMA. A BAR0 access that is not aligned 32 bits is an unsupported request, counted
and reported, and changes no register; an unaligned register write changes nothing. With BAR0 answering, a write first accepts the earlier
BAR2 writes and then: BAR2_WIN and the plain registers hold the written fields; DDMA_SUBMIT on an enabled block with room queues the staged
descriptor, else sets OVF and counts; an enable of a good block makes its channel valid with the block's completion queue and a bad one sets
EN_FAIL; a disable gives the channel up, aborting what it holds; ABORT ends its descriptors with cause 0x10. A BAR2 read or write inside
BAR2 that no partition admits is refused and changes no memory; an admitted one without BULK meter, whose dies and ports are awake, reads or
writes the bytes at the window's address, only those enabled, and one that finds a die or port asleep waits for its exit. VF_ENABLE and
BAR2_RESIZE change the enabled functions and the size of BAR2. HOST_PORT_RESET changes only the pin and the link before READY; after it, it
clears rings, commands, MSI-X, functions, BAR2 and debug grant, disables the driver DMA and halts every loaded slot at its last committed
step; memory and partitions stay. GUEST_FUNCTION_RESET clears the two rings of an enabled function and unloads its slot. -/
def Obligations.HostRequestsAct : Prop :=
  (∀ (s : State) (fn : Fin 4) (off : BitVec 26) (len : BitVec 13) (v : Word),
    (s.boot.pcieUp = false ∨ s.fnHere fn.val = false ∨ (len.toNat = 4 ∧ off.toNat % 4 = 0) → exec (.bar0UnsupportedRequest fn off len) s = .next s) ∧
    (s.boot.pcieUp = true → s.fnHere fn.val = true → len.toNat ≠ 4 ∨ off.toNat % 4 ≠ 0 → ∃ t, exec (.bar0UnsupportedRequest fn off len) s = .next t ∧
      t.host = { s.host with resp := .unsupported, respData := [] } ∧
      t.counters = ctrAdd (ctrAdd s.counters { id := Ctr.bar0Ur } 1) { id := Ctr.pcieUncorrectable } 1 ∧
      { t with host := s.host, counters := s.counters } = s) ∧
    (off.toNat % 4 ≠ 0 → exec (.registerWrite fn off v) s = .next s)) ∧
  (∀ (s u : State) (v : Word), u = s.settleBar2 →
    (s.hostUp = false → exec (.bar2WinWrite false v) s = .next s ∧ exec (.bar2WinWrite true v) s = .next s ∧
      (∀ k, exec (.ddmaEnable k v) s = .next s ∧ exec (.ddmaDisable k v) s = .next s ∧ exec (.ddmaAbort k v) s = .next s ∧
        exec (.ddmaSubmit k v) s = .next s)) ∧
    (s.hostUp = true →
      exec (.bar2WinWrite false v) s = .next { u with host := { u.host with winPart := fld v.toNat 2 0, winOffLo := fld v.toNat 31 30 } } ∧
      exec (.bar2WinWrite true v) s = .next { u with host := { u.host with winOffHi := fld v.toNat 12 0 } } ∧
      exec (.registerWrite 0 0x3000 v) s = .next { u with host := { u.host with fwuLo := v.toNat } } ∧
      exec (.registerWrite 0 0x3048 v) s = .next { u with host := { u.host with tokLo := v.toNat } } ∧
      exec (.registerWrite 0 0x305C v) s = .next { u with host := { u.host with sbData := v } } ∧
      (∀ (k : Fin 8) (ch : Nat) (x y : Ddma) (c : DmaChan), ch = ddmaChan k.val → x = u.ddma k.val → c = u.chan ch →
        y = { x with vector := fld v.toNat 7 2, cqLog2 := fld v.toNat 11 8 } →
        (x.en = false ∨ 64 ≤ c.queue.length → ∃ t, exec (.ddmaSubmit k v) s = .next t ∧ t.ddma k.val = { x with ovf := true } ∧
          t.chan ch = c ∧ t.counters = ctrAdd u.counters { id := Ctr.ddmaSubmitIgnored } 1 ∧
          { t with host := u.host, counters := u.counters } = u) ∧
        (x.en = true → c.queue.length < 64 → ∃ t j, exec (.ddmaSubmit k v) s = .next t ∧ t.ddma k.val = { x with accepted := x.accepted + 1#32 } ∧
          t.chan ch = { c with queue := c.queue ++ [j], arrivals := c.arrivals + 1 } ∧ j.desc = parseDesc x.bytes ∧ j.from' = .driver ∧
          j.started = false ∧ j.fin = none ∧ j.done = 0 ∧ (∀ i, i ≠ ch → t.chan i = u.chan i) ∧
          { t with host := u.host, dma := u.dma } = u.rouse (dieKey (16 + ch / 32))) ∧
        (v.toNat / 2 % 2 = 0 → x.en = false → u.ddmaRefuses y = true → ∃ t, exec (.ddmaEnable k v) s = .next t ∧
          t.ddma k.val = { y with enFail := true } ∧ t.chan ch = c ∧ { t with host := u.host } = u) ∧
        (v.toNat / 2 % 2 = 0 → x.en = false → u.ddmaRefuses y = false → ∃ t, exec (.ddmaEnable k v) s = .next t ∧
          t.ddma k.val = { y with en := true, enFail := false } ∧ t.chan ch = { ({} : DmaChan) with
            owner := 5, valid := true, hasCq := true, cqLog2 := y.cqLog2, cqBase := addrOf x.cqLo x.cqHi
            cqHeadAddr := addrOf x.cqhLo x.cqhHi, queue := c.queue, arrivals := c.arrivals } ∧ (∀ i, i ≠ ch → t.chan i = u.chan i)) ∧
        (v.toNat / 2 % 2 = 0 → x.en = true → ∃ t, exec (.ddmaDisable k v) s = .next t ∧ t.ddma k.val = { y with en := false } ∧
          t.chan ch = (if c.queue = [] then { c with valid := false } else { c.abort u.mem 0x10 with closing := true }) ∧
          (∀ i, i ≠ ch → t.chan i = u.chan i)) ∧
        (v.toNat / 2 % 2 = 0 → ∀ i, i = (if x.en then Instr.ddmaEnable k v else .ddmaDisable k v) → ∃ t, exec i s = .next t ∧ t.ddma k.val = y ∧
          t.chan ch = c ∧ { t with host := u.host } = u) ∧
        (∃ w : State, w.ddma k.val = y ∧ w.chan ch = c.abort u.mem 0x10 ∧ (∀ i, i ≠ ch → w.chan i = u.chan i) ∧
          { w with host := u.host, dma := u.dma } = u ∧
          exec (.ddmaAbort k v) s = .next (if bitOf v.toNat 0 = x.en then w else if x.en then w.ddmaOff k.val else w.ddmaOn k.val))))) ∧
  (∀ (s : State) (off : BitVec 36) (len a : Nat) (bs : List Byte), a = s.bar2Addr off.toNat % 2 ^ 64 →
    (s.bar2Here off.toNat len = false → exec (.bar2Read off len) s = .next s) ∧
    (s.bar2Here off.toNat bs.length = false → exec (.bar2Write off (bs.map some)) s = .next s) ∧
    (s.bar2Here off.toNat len = true → s.admits (bar2Req a len) = false → ∃ t, exec (.bar2Read off len) s = .next t ∧ t.host.resp = .abort ∧
      t.mem = s.mem ∧ { t with host := s.host, counters := s.counters } = s ∧
      ctrGet t.counters { id := Ctr.bar2Refused } = min (ctrGet s.counters { id := Ctr.bar2Refused } + 1) (2 ^ 32 - 1)) ∧
    (s.bar2Here off.toNat bs.length = true → s.admits (bar2Req a bs.length) = false → ∃ t, exec (.bar2Write off (bs.map some)) s = .next t ∧
      t.host.resp = .refused ∧ { t with host := s.host, counters := s.counters } = s ∧
      ctrGet t.counters { id := Ctr.bar2Refused } = min (ctrGet s.counters { id := Ctr.bar2Refused } + 1) (2 ^ 32 - 1)) ∧
    (s.bar2Here off.toNat len = true → s.serves .bar2 a len false → ∃ t, exec (.bar2Read off len) s = .next t ∧ t.host.resp = .ok ∧
        t.host.respData = s.devRead a len ∧ { t with host := s.host, counters := s.counters } = s) ∧
    (s.bar2Here off.toNat bs.length = true → s.serves .bar2 a bs.length true → bs ≠ [] → ∃ t, exec (.bar2Write off (bs.map some)) s = .next t ∧ t.host.resp = .ok ∧ t.mem = ((s.answer .ok).devWrite a bs).mem ∧
        { t with host := s.host, mem := s.mem, counters := s.counters } = s) ∧
    (∀ (wr : Bool) (n : Nat) (s1 : State), n = (if wr then bs.length else len) → s.bar2Here off.toNat n = true → s.admits (bar2Req a n) = true →
      s1 = (reqDomains s.mem a n wr).foldl State.rouse s → (∃ d ∈ reqDomains s.mem a n wr, s1.awake d = false) → (wr = true → bs ≠ []) →
      ∃ t w, exec (if wr then .bar2Write off (bs.map some) else .bar2Read off len) s = .next t ∧
        t.mem = { s.mem with waiting := s.mem.waiting ++ [w] } ∧ w.q.who = .bar2 ∧ w.q.addr = BitVec.ofNat 64 a ∧
        w.data = (if wr then some bs else none) ∧ { t with host := s.host, mem := s.mem } = s1) ∧
    (∀ n, s.bar2Here off.toNat n = true → s.admits (bar2Req a n) = true → ∃ t, exec (.bar2Write off (List.replicate n none)) s = .next t ∧
      t.host.resp = .ok ∧ t.mem = s.mem ∧ { t with host := s.host } = s)) ∧
  (∀ (s : State) (k : Fin 3) (en : Bool) (log2 : BitVec 6),
    (s.boot.pcieUp = false → exec (.vfEnable k en) s = .next s ∧ exec (.bar2Resize log2) s = .next s) ∧
    (s.boot.pcieUp = true → (∃ t, exec (.vfEnable k en) s = .next t ∧ (k.val + 1 ∈ t.mail.vfs ↔ en = true) ∧
        (∀ j, j ≠ k.val + 1 → (j ∈ t.mail.vfs ↔ j ∈ s.mail.vfs)) ∧ { t with mail := s.mail } = s ∧ { t.mail with vfs := s.mail.vfs } = s.mail) ∧
      (30 ≤ log2.toNat → log2.toNat ≤ 36 → exec (.bar2Resize log2) s = .next { s with host := { s.host with bar2Log2 := log2.toNat } }) ∧
      (log2.toNat < 30 ∨ 36 < log2.toNat → exec (.bar2Resize log2) s = .next s))) ∧
  (∀ (s : State) (kind : PortReset) (b : Boot) (cs : List (CKey × Nat)),
    b = (if kind = .perst then { s.boot with perst := true, pcieUp := false } else s.boot) →
    cs = (if kind = .linkDown ∧ s.boot.pcieUp = true then ctrAdd s.counters { id := Ctr.pcieLinkRetrains } 1 else s.counters) →
    (s.ready = false → exec (.hostPortReset kind) s = .next { s with boot := b, counters := cs }) ∧
    (s.ready = true → ∃ t, exec (.hostPortReset kind) s = .next t ∧ t.boot = b ∧ t.counters = cs ∧
      { t.mail with view := [] } = { ({} : Mail) with irqs := s.mail.irqs, host := s.mail.host } ∧
      (∀ k, k < 4 → t.slot k = if (s.slot k).st.loaded then { s.slot k with st := .halted, run := none } else s.slot k) ∧
      t.host.winPart = 0 ∧ t.host.winOffLo = 0 ∧ t.host.winOffHi = 0 ∧ t.host.bar2Log2 = 34 ∧ t.host.granted = false ∧
      (∀ k, k < 8 → (t.ddma k).en = false) ∧ { t.mem with waiting := s.mem.waiting } = s.mem ∧
      (∀ w ∈ t.mem.waiting, w ∈ s.mem.waiting ∧ (w.q.who ≠ .bar2 ∨ w.data ≠ none)) ∧
      { t with boot := s.boot, counters := s.counters, mail := s.mail, slots := s.slots, host := s.host, dma := s.dma, mem := s.mem,
               free := s.free } = s)) ∧
  (∀ (s : State) (k : Fin 3) (n : Nat), n = k.val + 1 →
    (s.hostUp = false ∨ n ∉ s.mail.vfs → exec (.guestFunctionReset k) s = .next s) ∧
    (s.hostUp = true → n ∈ s.mail.vfs → ∃ t, exec (.guestFunctionReset k) s = .next t ∧ t.ring n = {} ∧ t.ring (n + 5) = {} ∧
      (∀ r, r ≠ n → r ≠ n + 5 → t.ring r = s.ring r) ∧ (∀ c, c ∈ t.mail.cmds ↔ c ∈ s.mail.cmds ∧ c.ring ≠ n) ∧
      ((s.slot n).st ≠ .empty → t.slot n = {}) ∧ ((s.slot n).st = .empty → { t with mail := s.mail } = s) ∧ (∀ j, j ≠ n → t.slot j = s.slot j) ∧
      { t with mail := s.mail, slots := s.slots, cores := s.cores, dma := s.dma } = s))

/-- The rings of a guest slot in its virtual function alone. While virtual function k is enabled, the blocks of rings SLOTk and CPL_SLOTk
stand in its BAR0 at the offsets of R358, read as their registers and take writes there, and in the physical function's BAR0 they read as 0
and ignore writes; every other place below the MSI-X table reads as 0 and ignores writes in its BAR0. While it is not enabled they stand in
the physical function's. The event ring stands in the physical function's always, and the events of every slot go to it: each post joins the
one list that EVENT_FLUSH puts into that ring. A write ignored changes nothing once the earlier BAR2 writes are in. -/
def Obligations.VirtualFunctionsHoldTheirRings : Prop :=
  (∀ (s : State) (k : Fin 4) (r o : Nat) (off : BitVec 26) (v : Word), s.hostUp = true → 0 < k.val → r = k.val ∨ r = k.val + 5 → o < 0x20 → o % 4 = 0 →
    off.toNat = 0x1000 + 0x20 * r + o →
    (k.val ∈ s.mail.vfs →
      s.bar0Read k.val off.toNat = (s.ring r).read o ∧ exec (.registerWrite k off v) s = .next (s.settleBar2.ringWrite r o v) ∧
      s.bar0Read 0 off.toNat = 0 ∧ exec (.registerWrite 0 off v) s = .next s.settleBar2 ∧
      ∀ ring : Fin 11, ring.val = r → ∀ i ∈ [Instr.ringEnable 0 ring v, .ringDisable 0 ring v, .doorbell 0 ring v, .ringErrClear 0 ring],
        exec i s = .next s) ∧
    (k.val ∉ s.mail.vfs → s.bar0Read 0 off.toNat = (s.ring r).read o ∧
      exec (.registerWrite 0 off v) s = .next (s.settleBar2.ringWrite r o v) ∧ s.bar0Read k.val off.toNat = 0 ∧
      exec (.registerWrite k off v) s = .next s)) ∧
  (∀ (s : State) (k : Fin 4) (off : BitVec 26) (v : Word), s.hostUp = true → 0 < k.val → k.val ∈ s.mail.vfs → off.toNat < 0x10000 → off.toNat % 4 = 0 →
    (∀ r, r = k.val ∨ r = k.val + 5 → off.toNat < 0x1000 + 0x20 * r ∨ 0x1000 + 0x20 * r + 0x20 ≤ off.toNat) →
    s.bar0Read k.val off.toNat = 0 ∧ exec (.registerWrite k off v) s = .next s.settleBar2) ∧
  (∀ (s : State) (o : Nat) (off : BitVec 26) (v : Word), s.hostUp = true → o < 0x20 → o % 4 = 0 → off.toNat = 0x1140 + o →
    s.ringFn 10 = 0 ∧ s.bar0Read 0 off.toNat = (s.ring 10).read o ∧ exec (.registerWrite 0 off v) s = .next (s.settleBar2.ringWrite 10 o v)) ∧
  (∀ (s : State) (code : Nat) (cls : EvClass) (slot : Option Nat) (src : Nat) (pl : List Byte), s.events.length < 4096 →
    ∃ e, (s.post code cls slot src pl).events = s.events ++ [e] ∧ e.slot = slot ∧ e.code = code) ∧
  (∀ (s : State) (e : Event), s.events = [e] → (s.ring 10).run = true → (s.ring 10).free ≠ 0 → ∃ t, exec (.eventFlush true) s = .next t ∧
    t.events = [] ∧ (t.ring 10).index = (s.ring 10).index + 1#32 ∧ (∀ j, j ≠ 10 → t.ring j = s.ring j))

/-- Firmware update, the debug grant, the sideband, JTAG and MCTP. FWU_IMAGE_WRITE fails with its cause or is busy with the slot erased, its
header erased and the other slot as it was; FWU_DONE leaves the image in the slot, counted, or FAILED with 0x16; FWU_RAISE fails with 0x15
while a slot is loaded, ends at once where the count is not below the running image's version, fails with 0x17 for an older other image, and
else raises the count. DEBUG_REQUEST grants the scope on an unlocked module or for a valid token, else tells the cause; DEBUG_RELEASE ends
the grant; either leaves a new nonce. Without the SIDEBAND grant a sideband access sets CAUSE 4 and does nothing else; with it a read of a
listed register sets DBG_SB_DATA and a write of ARB_CTRL is made. An internal JTAG instruction without its grant is BYPASS; a test
instruction parks the die's arbiters and, while a slot is loaded, is a module fault; TEST_RESET clears the instructions alone. While
firmware runs each MCTP command answers as R443 lays it out; SET_POWER_LIMIT takes 0 or 2,900 to 4,200 W. -/
def Obligations.FirmwareDebugAndManagementAct : Prop :=
  (∀ (s u : State) (slot : Bool) (base : Nat) (b : List Byte), u = s.settleBar2 → s.hostUp = true → base = flashBase (b2n slot) →
    b = u.devRead (addrOf u.host.fwuLo u.host.fwuHi) u.host.fwuLen →
    (u.host.fwuState = 1 → ∃ t, exec (.fwuImageWrite slot) s = .next t ∧ t.boot = u.boot ∧ t.host.fwuState = 1 ∧ t.host.fwuJob = u.host.fwuJob ∧
      { t with host := u.host } = u) ∧
    (∀ c, u.host.fwuState ≠ 1 → u.fwuCauseOf (b2n slot) (addrOf u.host.fwuLo u.host.fwuHi) u.host.fwuLen = some c → c ≠ 0 →
      ∃ t, exec (.fwuImageWrite slot) s = .next t ∧ t.host.fwuState = 3 ∧ t.host.fwuCause = c ∧ t.host.fwuJob = none ∧ { t with host := u.host } = u) ∧
    (u.host.fwuState ≠ 1 → ∃ t, exec (.fwuImageWrite slot) s = .next t ∧
      (u.fwuCauseOf (b2n slot) (addrOf u.host.fwuLo u.host.fwuHi) u.host.fwuLen = none →
        t.host.fwuState = 1 ∧ t.host.fwuCause = 0 ∧ t.host.fwuJob = some (b2n slot, b) ∧
        (∀ a, a < base ∨ base + 0x200000 ≤ a → t.boot.flash.read a = u.boot.flash.read a) ∧
        (u.boot.flash.erased = true → u.boot.flash.lost = [] → ∀ a, base ≤ a → a < base + 256 → t.boot.flash.read a = 0xFF#8) ∧
        { t.boot with flash := u.boot.flash } = u.boot ∧ { t with host := u.host, boot := u.boot, free := u.free } = u)) ∧
    (u.host.fwuState ≠ 1 → u.anyLoaded = true → ∃ t, exec (.fwuRaise slot) s = .next t ∧ t.host.fwuState = 3 ∧ t.host.fwuCause = 0x15 ∧ t.boot = u.boot) ∧
    (u.host.fwuState ≠ 1 → u.anyLoaded = false → u.boot.logSecVersion ≤ u.boot.antiRollback → ∃ t, exec (.fwuRaise slot) s = .next t ∧
      t.host.fwuState = 2 ∧ t.host.fwuCause = 0 ∧ t.boot = u.boot) ∧
    (u.host.fwuState ≠ 1 → u.anyLoaded = false → u.boot.antiRollback < u.boot.logSecVersion →
      (rdLE u.boot.flash.read (flashBase (if u.boot.image = 1 then 1 else 0) + 0x0A) 2 < u.boot.logSecVersion →
        ∃ t, exec (.fwuRaise slot) s = .next t ∧ t.host.fwuState = 3 ∧ t.host.fwuCause = 0x17 ∧ t.boot = u.boot) ∧
      (u.boot.logSecVersion ≤ rdLE u.boot.flash.read (flashBase (if u.boot.image = 1 then 1 else 0) + 0x0A) 2 →
        ∃ t, exec (.fwuRaise slot) s = .next t ∧ t.host.fwuState = 2 ∧ t.host.fwuCause = 0 ∧
          t.boot = { u.boot with antiRollback := u.boot.logSecVersion }))) ∧
  (∀ (s : State) (good : Bool),
    (s.host.fwuJob = none → exec (.fwuDone good) s = .next s) ∧
    (∀ slot b, s.host.fwuJob = some (slot, b) → b.length ≤ 0x200000 →
      (good = true → ∃ t, exec (.fwuDone good) s = .next t ∧ t.host.fwuState = 2 ∧ t.host.fwuCause = 0 ∧ t.host.fwuJob = none ∧
        (∀ i, i < b.length → t.boot.flash.read (flashBase slot + i) = b.getD i 0#8) ∧
        (∀ a, a < flashBase slot ∨ flashBase slot + 0x200000 ≤ a → t.boot.flash.read a = s.boot.flash.read a) ∧
        t.counters = ctrAdd s.counters { id := Ctr.fwUpdates } 1) ∧
      (good = false → ∃ t, exec (.fwuDone good) s = .next t ∧ t.host.fwuState = 3 ∧ t.host.fwuCause = 0x16 ∧ t.host.fwuJob = none ∧
        { t with host := s.host } = s))) ∧
  (∀ (s u : State) (scope : BitVec 3), u = s.settleBar2 → s.hostUp = true →
    (u.boot.dbgLock = 0 → ∃ t, exec (.debugRequest scope) s = .next t ∧ t.host.granted = true ∧ t.host.scopeG = scope.toNat ∧ t.host.dbgCause = 0 ∧
      t.counters = ctrAdd u.counters { id := Ctr.debugGrants } 1 ∧ t.host.nonce = Config.freeWord (u.free + 1) ++ Config.freeWord u.free ∧
      { t with host := u.host, counters := u.counters, free := u.free } = u) ∧
    (1 < u.boot.dbgLock → ∃ t, exec (.debugRequest scope) s = .next t ∧ t.host.granted = u.host.granted ∧ t.host.scopeG = u.host.scopeG ∧
      t.host.dbgCause = 1 ∧ t.host.nonce = Config.freeWord (u.free + 1) ++ Config.freeWord u.free ∧ { t with host := u.host, free := u.free } = u) ∧
    (u.boot.dbgLock = 1 → u.inStaging (addrOf u.host.tokLo u.host.tokHi) 232 = false → ∃ t, exec (.debugRequest scope) s = .next t ∧
      t.host.granted = u.host.granted ∧ t.host.dbgCause = 3 ∧ { t with host := u.host, free := u.free } = u) ∧
    (u.boot.dbgLock = 1 → u.inStaging (addrOf u.host.tokLo u.host.tokHi) 232 = true →
      leAt (u.devRead (addrOf u.host.tokLo u.host.tokHi) 232) 0 4 ≠ 0x44424754 → ∃ t, exec (.debugRequest scope) s = .next t ∧
        t.host.granted = u.host.granted ∧ t.host.dbgCause = 2 ∧ { t with host := u.host, free := u.free } = u) ∧
    (u.boot.dbgLock = 1 → u.inStaging (addrOf u.host.tokLo u.host.tokHi) 232 = true → ∀ ok,
      ok = u.tokenOk (u.devRead (addrOf u.host.tokLo u.host.tokHi) 232) scope.toNat → ∃ t, exec (.debugRequest scope) s = .next t ∧
        t.host.granted = (ok || u.host.granted) ∧ t.host.scopeG = (if ok then scope.toNat else u.host.scopeG) ∧
        t.host.dbgCause = (if ok then 0 else 2) ∧
        t.counters = (if ok then ctrAdd u.counters { id := Ctr.debugGrants } 1 else u.counters)) ∧
    (∃ t, exec (.debugRelease scope) s = .next t ∧ t.host.granted = false ∧ t.host.scopeG = 0 ∧
      t.host.nonce = Config.freeWord (u.free + 1) ++ Config.freeWord u.free ∧ { t with host := u.host, free := u.free } = u)) ∧
  (∀ (s u : State) (die : BitVec 5) (off : BitVec 20), u = s.settleBar2 → s.hostUp = true →
    (u.host.granted = false ∨ bitOf u.host.scopeG 1 = false →
      (∃ t, exec (.sidebandRead die off) s = .next t ∧ t.host.dbgCause = 4 ∧ t.host.sbData = u.host.sbData ∧ { t with host := u.host } = u) ∧
      (∃ t, exec (.sidebandWrite die off) s = .next t ∧ t.host.dbgCause = 4 ∧ t.host.sbData = u.host.sbData ∧ { t with host := u.host } = u)) ∧
    (u.host.granted = true → bitOf u.host.scopeG 1 = true →
      (∀ x, u.sideband die.toNat off.toNat = some x → ∃ t, exec (.sidebandRead die off) s = .next t ∧ t.host.sbData = BitVec.ofNat 32 x ∧
        { t with host := u.host } = u) ∧
      (u.sideband die.toNat off.toNat = none → ∃ t, exec (.sidebandRead die off) s = .next t ∧ t.host.sbData = Config.freeWord u.free ∧
        { t with host := u.host, free := u.free } = u) ∧
      (off = 0x100#20 → die.toNat ≤ 24 → ∃ v : State, { v with host := u.host } = u ∧
        exec (.sidebandWrite die off) s = .next (v.arbCtrlWrite die.toNat u.host.sbData.toNat)) ∧
      (off ≠ 0x100#20 ∨ 24 < die.toNat → ∃ t, exec (.sidebandWrite die off) s = .next t ∧ { t with host := u.host } = u ∧ t.host.sbData = u.host.sbData))) ∧
  (∀ (s : State) (die : Fin 25) (ins : JtagIns),
    (jtagNum ins < 3 → exec (.jtagInstructionLoad die ins) s = .next { s with boot := { s.boot with jtag := SMap.set 0 s.boot.jtag die.val (jtagNum ins) } }) ∧
    (7 ≤ jtagNum ins → s.host.granted = false ∨ bitOf s.host.scopeG 2 = false →
      exec (.jtagInstructionLoad die ins) s = .next { s with boot := { s.boot with jtag := SMap.set 0 s.boot.jtag die.val 1 } }) ∧
    (3 ≤ jtagNum ins → jtagNum ins < 7 ∨ (s.host.granted = true ∧ bitOf s.host.scopeG 2 = true) → s.anyLoaded = false →
      ∃ t, exec (.jtagInstructionLoad die ins) s = .next t ∧ SMap.get 0 t.boot.jtag die.val = jtagNum ins ∧
        (∀ j, j < arbCount die.val → (t.arb die.val j).normal = false ∧ (t.arb die.val j).freeze = false) ∧
        { t with boot := s.boot, arbs := s.arbs, arbInst := s.arbInst } = s) ∧
    (3 ≤ jtagNum ins → jtagNum ins < 7 ∨ (s.host.granted = true ∧ bitOf s.host.scopeG 2 = true) → s.anyLoaded = true →
      ∃ u : State, exec (.jtagInstructionLoad die ins) s = .next u.moduleFault ∧ SMap.get 0 u.boot.jtag die.val = jtagNum ins ∧
        die.val ∈ u.boot.testDies ∧ { u with boot := s.boot, arbs := s.arbs, arbInst := s.arbInst } = s) ∧
    exec .testReset s = .next { s with boot := { s.boot with jtag := [] } }) ∧
  (∀ (s : State) (w : BitVec 16) (side : List (BitVec 8)) (mv : BitVec 16) (ma : BitVec 32) (dies : List (BitVec 16)) (off : BitVec 8),
    (s.mctpUp = false → exec .getHealth s = .next s ∧ exec (.getTemps side) s = .next s ∧ exec (.getPower mv ma w dies) s = .next s ∧
      exec (.setPowerLimit w) s = .next s ∧ exec .readBootStatus s = .next s ∧ exec (.readStartLog off) s = .next s ∧ exec .getIdentity s = .next s) ∧
    (s.mctpUp = true → exec .readBootStatus s = .next (s.mctpSay 0 (leBytes 4 s.boot.status)) ∧
      (off.toNat % 32 = 0 → exec (.readStartLog off) s = .next (s.mctpSay 0 ((s.startLog.drop off.toNat).take 32))) ∧
      (off.toNat % 32 ≠ 0 → exec (.readStartLog off) s = .next (s.mctpSay 2)) ∧
      (s.boot.image = 0 → exec .getHealth s = .next (s.mctpSay 3) ∧ exec (.getTemps side) s = .next (s.mctpSay 3) ∧
        exec (.getPower mv ma w dies) s = .next (s.mctpSay 3) ∧ exec (.setPowerLimit w) s = .next (s.mctpSay 3) ∧
        exec .getIdentity s = .next (s.mctpSay 3)) ∧
      (s.boot.image ≠ 0 →
        exec .getHealth s = .next (s.mctpSay 0 (leBytes 4 s.boot.status ++ (leBytes 4 (s.slot 0).word ++ leBytes 4 (s.slot 1).word ++
          leBytes 4 (s.slot 2).word ++ leBytes 4 (s.slot 3).word) ++ leBytes 4 s.beyonds)) ∧
        (∃ t, exec (.getTemps side) s = .next t ∧ t.host.mctp.headD 1#8 = 0#8 ∧ (∀ d, d < 16 → t.host.mctp.getD (d + 1) 0#8 = BitVec.ofInt 8 (s.gov d).tHot) ∧
          (t.host.mctp.drop 17).take side.length = side ∧ t.host.mctp.length = 29 + side.length ∧ { t with host := s.host } = s) ∧
        exec (.getPower mv ma w dies) s = .next (s.mctpSay 0 (leBytes 2 mv.toNat ++ leBytes 4 ma.toNat ++ leBytes 2 w.toNat ++
          dies.flatMap (fun x => leBytes 2 x.toNat))) ∧
        (w = 0#16 ∨ (2900 ≤ w.toNat ∧ w.toNat ≤ 4200) → exec (.setPowerLimit w) s =
          .next (({ s with boot := { s.boot with powerLimit := w.toNat } } : State).mctpSay 0)) ∧
        (w ≠ 0#16 → w.toNat < 2900 ∨ 4200 < w.toNat → exec (.setPowerLimit w) s = .next (s.mctpSay 2)) ∧
        exec .getIdentity s = .next (s.mctpSay 0 (leBytes 4 s.moduleIdReg ++ leBytes 4 s.deviceId ++ leBytes 2 s.boot.logFwVersion ++
          leBytes 2 s.boot.logSecVersion)))))

/-- The UPDATE that SHARD_COMMIT forms keeps what chapter 7 promises of it. An element whose update is frozen keeps its master, m and v
(R158). The rsqrt recipe gives a NaN for a NaN, and in version 3 an infinity for a zero and a NaN below zero (R142). A residual lies from
-128 to 127, and one that was clamped is an end of that range (R161). A learned scale moves by at most one E8M3 step, stays from 0x008 to
0x7F7, and does not move under SCALE_FREEZE (R159). The gain stays from 0 to 7, moves by at most one, goes down only where residuals clamped
too often, and does not move under K_FREEZE (R162). A moment whose low 16 bits are 0 is stored as its high 16 bits, whatever the random bits
(R157). -/
def Obligations.UpdateKeepsItsBounds : Prop :=
  (∀ (i : UpdIn) (b : UpdBlk) (gs : List Word) (e : Nat) (u : UpdStep), u = Upd.moveBlock i b gs → u.d[e]? = some none →
    u.aNew[e]? = b.a[e]? ∧ u.m[e]? = b.m[e]? ∧ u.v[e]? = b.v[e]?) ∧
  (∀ (lib : List Byte) (version : BitVec 8) (x : Word), (Fp.isNan x = true → Upd.rsqrt lib version x = Fp.qnan) ∧
    (version = 3#8 → Fp.isZero x = true → Upd.rsqrt lib version x = x ||| 0x7F800000#32) ∧
    (version = 3#8 → Fp.isZero x = false → x.getLsbD 31 = true → Upd.rsqrt lib version x = Fp.qnan)) ∧
  (∀ (a p : Word) (scale : Frac) (k : Nat), -128 ≤ (Upd.residual a p scale k).1 ∧ (Upd.residual a p scale k).1 ≤ 127 ∧
    ((Upd.residual a p scale k).2 = true → (Upd.residual a p scale k).1 = -128 ∨ (Upd.residual a p scale k).1 = 127)) ∧
  (∀ (r : UpdRec) (k : Nat) (lam : List (Option Int)) (res : List Int) (g : List Word) (j : Nat), 0x008 ≤ j → j ≤ 0x7F7 →
    0x008 ≤ Upd.stepScale r k lam res g j ∧ Upd.stepScale r k lam res g j ≤ 0x7F7 ∧ Upd.stepScale r k lam res g j ≤ j + 1 ∧
      j ≤ Upd.stepScale r k lam res g j + 1 ∧ (r.scaleFreeze = true → Upd.stepScale r k lam res g j = j)) ∧
  (∀ (k n lost sat : Nat) (r : UpdRec), k ≤ 7 →
    Upd.nextK k n lost sat r ≤ 7 ∧ Upd.nextK k n lost sat r ≤ k + 1 ∧ k ≤ Upd.nextK k n lost sat r + 1 ∧
      (Upd.nextK k n lost sat r < k → n < sat * 2 ^ r.ksat) ∧ (r.kFreeze = true → Upd.nextK k n lost sat r = k)) ∧
  (∀ (x : Word) (r : Nat), x.toNat % 65536 = 0 → r < 65536 → Upd.srBf16 x r = BitVec.ofNat 16 (x.toNat / 65536))
end

