-- ==== Sys2Proof/Laws/Map.lean ====
section
/-! SUPPORT. What sparse tables answer after a write, and that a write keeps their canonical form. -/

namespace Sys2Proof
namespace SMap

/-- A read at another key sees a table without `k` as it was. -/
theorem get_drop_other {α : Type} {d : α} {k j : Nat} (h : j ≠ k) : ∀ m : SMap α, SMap.get d (SMap.drop m k) j = SMap.get d m j
  | [] => rfl
  | (k', v') :: t => by
    have ih := get_drop_other (d := d) h t
    unfold SMap.drop at ih ⊢
    by_cases hk : k' = k
    · subst hk
      have : ¬ k' = j := fun e => h e.symm
      simp [SMap.get, this, ih]
    · by_cases hj : k' = j
      · subst hj
        simp [SMap.get, hk]
      · simp [SMap.get, hk, hj, ih]

/-- A table without `k` reads the default there. -/
theorem get_drop_same {α : Type} {d : α} {k : Nat} : ∀ m : SMap α, SMap.get d (SMap.drop m k) k = d
  | [] => rfl
  | (k', v') :: t => by
    have ih := get_drop_same (d := d) (k := k) t
    unfold SMap.drop at ih ⊢
    by_cases hk : k' = k <;> simp [SMap.get, hk, ih]

/-- A read at another key sees through a new entry. -/
theorem get_ins_other {α : Type} {d : α} {k j : Nat} {v : α} (h : j ≠ k) : ∀ m : SMap α, SMap.get d (SMap.ins k v m) j = SMap.get d m j
  | [] => by
    have : ¬ k = j := fun e => h e.symm
    simp [SMap.ins, SMap.get, this]
  | (k', v') :: t => by
    have hk : ¬ k = j := fun e => h e.symm
    have ih := get_ins_other (d := d) (v := v) h t
    unfold SMap.ins
    split <;> simp [SMap.get, hk, ih]

/-- A new entry is read where the table had none. -/
theorem get_ins_same {α : Type} {d : α} {k : Nat} {v : α} : ∀ m : SMap α, (∀ e ∈ m, e.1 ≠ k) → SMap.get d (SMap.ins k v m) k = v
  | [], _ => by simp [SMap.ins, SMap.get]
  | (k', v') :: t, h => by
    have hk : ¬ k' = k := h (k', v') (List.mem_cons_self ..)
    have ih := get_ins_same (d := d) (v := v) t (fun e he => h e (List.mem_cons_of_mem _ he))
    unfold SMap.ins
    split <;> simp [SMap.get, hk, ih]

/-- No entry of a table without `k` has key `k`. -/
theorem mem_drop {α : Type} {m : SMap α} {k : Nat} {e : Nat × α} : e ∈ SMap.drop m k ↔ e ∈ m ∧ e.1 ≠ k := by
  simp [SMap.drop]

/-- A read after a write (R10): the value written at its key, and the old value at every other key. -/
theorem get_set {α : Type} [DecidableEq α] (d : α) (m : SMap α) (k : Nat) (v : α) (j : Nat) :
    SMap.get d (SMap.set d m k v) j = if j = k then v else SMap.get d m j := by
  unfold SMap.set
  by_cases hj : j = k
  · subst hj
    split
    · rename_i hv
      rw [get_drop_same, if_pos rfl, hv]
    · rw [get_ins_same _ (fun e he => (mem_drop.mp he).2), if_pos rfl]
  · rw [if_neg hj]
    split
    · exact get_drop_other hj m
    · rw [get_ins_other hj, get_drop_other hj]

/-- A read at the key just written. -/
@[simp] theorem get_set_same {α : Type} [DecidableEq α] (d : α) (m : SMap α) (k : Nat) (v : α) :
    SMap.get d (SMap.set d m k v) k = v := by rw [get_set, if_pos rfl]

/-- A read at a key other than the one just written. -/
theorem get_set_other {α : Type} [DecidableEq α] {d : α} {m : SMap α} {k j : Nat} {v : α} (h : j ≠ k) :
    SMap.get d (SMap.set d m k v) j = SMap.get d m j := by rw [get_set, if_neg h]

/-- The entries of a table after a write: the new one, or old ones at other keys. -/
theorem mem_set {α : Type} [DecidableEq α] {d : α} {m : SMap α} {k : Nat} {v : α} {e : Nat × α}
    (h : e ∈ SMap.set d m k v) : (e = (k, v) ∧ v ≠ d) ∨ (e ∈ m ∧ e.1 ≠ k) := by
  have hi : ∀ l : SMap α, e ∈ SMap.ins k v l → e = (k, v) ∨ e ∈ l := by
    intro l
    induction l with
    | nil => intro h; exact .inl (List.mem_singleton.mp h)
    | cons x t ih =>
      intro h
      unfold SMap.ins at h
      split at h
      · rcases List.mem_cons.mp h with h | h
        · exact .inl h
        · exact .inr h
      · rcases List.mem_cons.mp h with h | h
        · exact .inr (List.mem_cons.mpr (.inl h))
        · rcases ih h with h | h
          · exact .inl h
          · exact .inr (List.mem_cons_of_mem _ h)
  unfold SMap.set at h
  split at h
  · exact .inr (mem_drop.mp h)
  · rename_i hv
    rcases hi _ h with h | h
    · exact .inl ⟨h, hv⟩
    · exact .inr (mem_drop.mp h)

/-- Whether keys rise strictly. -/
def rising {α : Type} : SMap α → Bool
  | [] => true
  | (k, _) :: t => SMap.above k t

/-- The rest of a rising table rises. -/
theorem rising_tail {α : Type} {e : Nat × α} {t : SMap α} (h : rising (e :: t) = true) : rising t = true := by
  cases t with
  | nil => rfl
  | cons x t => simp only [rising, SMap.above, Bool.and_eq_true] at h; exact h.2

/-- Listed keys above `lo` are above anything below it. -/
theorem above_mono {α : Type} {lo lo' : Nat} (h : lo' ≤ lo) : ∀ {m : SMap α}, SMap.above lo m = true → SMap.above lo' m = true
  | [], _ => rfl
  | (k, v) :: t, hm => by
    simp only [SMap.above, Bool.and_eq_true, decide_eq_true_eq] at hm ⊢
    exact ⟨by omega, hm.2⟩

/-- Erasing entries keeps keys above a bound. -/
theorem above_filter {α : Type} {p : Nat × α → Bool} {lo : Nat} : ∀ {m : SMap α}, SMap.above lo m = true →
    SMap.above lo (m.filter p) = true
  | [], _ => rfl
  | (k, v) :: t, h => by
    simp only [SMap.above, Bool.and_eq_true, decide_eq_true_eq] at h
    have ih := above_filter (p := p) h.2
    by_cases hp : p (k, v) = true
    · simp [hp, SMap.above, h.1, ih]
    · simp only [List.filter_cons, hp]
      exact above_mono (Nat.le_of_lt h.1) ih

/-- Erasing entries keeps keys rising. -/
theorem rising_filter {α : Type} {p : Nat × α → Bool} : ∀ {m : SMap α}, rising m = true → rising (m.filter p) = true
  | [], _ => rfl
  | (k, v) :: t, h => by
    have ih := above_filter (p := p) (show SMap.above k t = true from h)
    by_cases hp : p (k, v) = true
    · simpa [List.filter_cons, hp, rising] using ih
    · simp only [List.filter_cons, hp]
      exact rising_filter (rising_tail h)

/-- A new entry keeps keys above a bound. -/
theorem above_ins {α : Type} {lo k : Nat} {v : α} (hk : lo < k) : ∀ {m : SMap α}, SMap.above lo m = true → (∀ e ∈ m, e.1 ≠ k) →
    SMap.above lo (SMap.ins k v m) = true
  | [], _, _ => by simp [SMap.ins, SMap.above, hk]
  | (k', v') :: t, h, hn => by
    simp only [SMap.above, Bool.and_eq_true, decide_eq_true_eq] at h
    have hne : k' ≠ k := hn (k', v') (List.mem_cons_self ..)
    unfold SMap.ins
    split
    · rename_i hlt
      simp [SMap.above, hk, hlt, h.2]
    · have := above_ins (v := v) (show k' < k by omega) h.2 (fun e he => hn e (List.mem_cons_of_mem _ he))
      simp [SMap.above, h.1, this]

/-- A new entry keeps keys rising. -/
theorem rising_ins {α : Type} {k : Nat} {v : α} : ∀ {m : SMap α}, rising m = true → (∀ e ∈ m, e.1 ≠ k) →
    rising (SMap.ins k v m) = true
  | [], _, _ => rfl
  | (k', v') :: t, h, hn => by
    have ht : SMap.above k' t = true := h
    have hne : k' ≠ k := hn (k', v') (List.mem_cons_self ..)
    unfold SMap.ins
    split
    · rename_i hlt
      simp [rising, SMap.above, hlt, ht]
    · exact above_ins (show k' < k by omega) ht (fun e he => hn e (List.mem_cons_of_mem _ he))

/-- A write keeps the keys rising. -/
theorem rising_set {α : Type} [DecidableEq α] {d : α} {m : SMap α} {k : Nat} {v : α} (h : rising m = true) :
    rising (SMap.set d m k v) = true := by
  have hd : rising (SMap.drop m k) = true := rising_filter h
  unfold SMap.set
  split
  · exact hd
  · exact rising_ins hd (fun e he => (mem_drop.mp he).2)

/-- A canonical table has rising keys and lists no default. -/
theorem wf_iff {α : Type} [DecidableEq α] {d : α} {m : SMap α} :
    SMap.wf d m = true ↔ rising m = true ∧ ∀ e ∈ m, e.2 ≠ d := by
  cases m <;> simp [SMap.wf, rising]

/-- A write keeps the canonical form. -/
theorem wf_set {α : Type} [DecidableEq α] {d : α} {m : SMap α} {k : Nat} {v : α} (h : SMap.wf d m = true) :
    SMap.wf d (SMap.set d m k v) = true := by
  obtain ⟨hr, hd⟩ := wf_iff.mp h
  refine wf_iff.mpr ⟨rising_set hr, fun e he => ?_⟩
  rcases mem_set he with ⟨rfl, hv⟩ | he
  · exact hv
  · exact hd e he.1

end SMap
end Sys2Proof
end

