-- ==== Sys2Proof/Laws/State.lean ====
section
/-! SUPPORT. What each named update of State leaves as it was, field by field, and what a read of the updated table answers. -/

namespace Sys2Proof.Machine

variable (s : State)

@[simp] theorem State.setCore_pending (no : Nat) (c : Core) : (s.setCore no c).pending = s.pending := rfl
@[simp] theorem State.setCore_free (no : Nat) (c : Core) : (s.setCore no c).free = s.free := rfl
@[simp] theorem State.setCore_wire (no : Nat) (c : Core) : (s.setCore no c).wire = s.wire := rfl
@[simp] theorem State.setCore_counters (no : Nat) (c : Core) : (s.setCore no c).counters = s.counters := rfl
@[simp] theorem State.setCore_seen (no : Nat) (c : Core) : (s.setCore no c).seen = s.seen := rfl
@[simp] theorem State.setCore_cleared (no : Nat) (c : Core) : (s.setCore no c).cleared = s.cleared := rfl
@[simp] theorem State.setCore_events (no : Nat) (c : Core) : (s.setCore no c).events = s.events := rfl
@[simp] theorem State.setCore_evSeq (no : Nat) (c : Core) : (s.setCore no c).evSeq = s.evSeq := rfl
@[simp] theorem State.setCore_evLost (no : Nat) (c : Core) : (s.setCore no c).evLost = s.evLost := rfl
@[simp] theorem State.setCore_beyonds (no : Nat) (c : Core) : (s.setCore no c).beyonds = s.beyonds := rfl
@[simp] theorem State.setCore_slots (no : Nat) (c : Core) : (s.setCore no c).slots = s.slots := rfl
@[simp] theorem State.setCore_govs (no : Nat) (c : Core) : (s.setCore no c).govs = s.govs := rfl
@[simp] theorem State.setCore_domains (no : Nat) (c : Core) : (s.setCore no c).domains = s.domains := rfl
@[simp] theorem State.setCore_modId (no : Nat) (c : Core) : (s.setCore no c).modId = s.modId := rfl
@[simp] theorem State.setCore_timeQ (no : Nat) (c : Core) : (s.setCore no c).timeQ = s.timeQ := rfl
@[simp] theorem State.setCore_mem (no : Nat) (c : Core) : (s.setCore no c).mem = s.mem := rfl
@[simp] theorem State.setCore_dma (no : Nat) (c : Core) : (s.setCore no c).dma = s.dma := rfl
@[simp] theorem State.setCore_chest (no : Nat) (c : Core) : (s.setCore no c).chest = s.chest := rfl
@[simp] theorem State.setCore_journal (no : Nat) (c : Core) : (s.setCore no c).journal = s.journal := rfl
@[simp] theorem State.setCore_mail (no : Nat) (c : Core) : (s.setCore no c).mail = s.mail := rfl
@[simp] theorem State.setCore_boot (no : Nat) (c : Core) : (s.setCore no c).boot = s.boot := rfl
@[simp] theorem State.setCore_rows (no : Nat) (c : Core) : (s.setCore no c).rows = s.rows := rfl
@[simp] theorem State.setCore_host (no : Nat) (c : Core) : (s.setCore no c).host = s.host := rfl
@[simp] theorem State.setCore_links (no : Nat) (c : Core) : (s.setCore no c).links = s.links := rfl
@[simp] theorem State.setCore_arbs (no : Nat) (c : Core) : (s.setCore no c).arbs = s.arbs := rfl
@[simp] theorem State.setCore_arbInst (no : Nat) (c : Core) : (s.setCore no c).arbInst = s.arbInst := rfl

@[simp] theorem State.modCore_pending (no : Nat) (f : Core → Core) : (s.modCore no f).pending = s.pending := rfl
@[simp] theorem State.modCore_free (no : Nat) (f : Core → Core) : (s.modCore no f).free = s.free := rfl
@[simp] theorem State.modCore_wire (no : Nat) (f : Core → Core) : (s.modCore no f).wire = s.wire := rfl
@[simp] theorem State.modCore_counters (no : Nat) (f : Core → Core) : (s.modCore no f).counters = s.counters := rfl
@[simp] theorem State.modCore_seen (no : Nat) (f : Core → Core) : (s.modCore no f).seen = s.seen := rfl
@[simp] theorem State.modCore_cleared (no : Nat) (f : Core → Core) : (s.modCore no f).cleared = s.cleared := rfl
@[simp] theorem State.modCore_events (no : Nat) (f : Core → Core) : (s.modCore no f).events = s.events := rfl
@[simp] theorem State.modCore_evSeq (no : Nat) (f : Core → Core) : (s.modCore no f).evSeq = s.evSeq := rfl
@[simp] theorem State.modCore_evLost (no : Nat) (f : Core → Core) : (s.modCore no f).evLost = s.evLost := rfl
@[simp] theorem State.modCore_beyonds (no : Nat) (f : Core → Core) : (s.modCore no f).beyonds = s.beyonds := rfl
@[simp] theorem State.modCore_slots (no : Nat) (f : Core → Core) : (s.modCore no f).slots = s.slots := rfl
@[simp] theorem State.modCore_govs (no : Nat) (f : Core → Core) : (s.modCore no f).govs = s.govs := rfl
@[simp] theorem State.modCore_domains (no : Nat) (f : Core → Core) : (s.modCore no f).domains = s.domains := rfl
@[simp] theorem State.modCore_modId (no : Nat) (f : Core → Core) : (s.modCore no f).modId = s.modId := rfl
@[simp] theorem State.modCore_timeQ (no : Nat) (f : Core → Core) : (s.modCore no f).timeQ = s.timeQ := rfl
@[simp] theorem State.modCore_mem (no : Nat) (f : Core → Core) : (s.modCore no f).mem = s.mem := rfl
@[simp] theorem State.modCore_dma (no : Nat) (f : Core → Core) : (s.modCore no f).dma = s.dma := rfl
@[simp] theorem State.modCore_chest (no : Nat) (f : Core → Core) : (s.modCore no f).chest = s.chest := rfl
@[simp] theorem State.modCore_journal (no : Nat) (f : Core → Core) : (s.modCore no f).journal = s.journal := rfl
@[simp] theorem State.modCore_mail (no : Nat) (f : Core → Core) : (s.modCore no f).mail = s.mail := rfl
@[simp] theorem State.modCore_boot (no : Nat) (f : Core → Core) : (s.modCore no f).boot = s.boot := rfl
@[simp] theorem State.modCore_rows (no : Nat) (f : Core → Core) : (s.modCore no f).rows = s.rows := rfl
@[simp] theorem State.modCore_host (no : Nat) (f : Core → Core) : (s.modCore no f).host = s.host := rfl
@[simp] theorem State.modCore_links (no : Nat) (f : Core → Core) : (s.modCore no f).links = s.links := rfl
@[simp] theorem State.modCore_arbs (no : Nat) (f : Core → Core) : (s.modCore no f).arbs = s.arbs := rfl
@[simp] theorem State.modCore_arbInst (no : Nat) (f : Core → Core) : (s.modCore no f).arbInst = s.arbInst := rfl

@[simp] theorem State.setCtx_pending (p : Site) (t : Ctx) : (s.setCtx p t).pending = s.pending := rfl
@[simp] theorem State.setCtx_free (p : Site) (t : Ctx) : (s.setCtx p t).free = s.free := rfl
@[simp] theorem State.setCtx_wire (p : Site) (t : Ctx) : (s.setCtx p t).wire = s.wire := rfl
@[simp] theorem State.setCtx_counters (p : Site) (t : Ctx) : (s.setCtx p t).counters = s.counters := rfl
@[simp] theorem State.setCtx_seen (p : Site) (t : Ctx) : (s.setCtx p t).seen = s.seen := rfl
@[simp] theorem State.setCtx_cleared (p : Site) (t : Ctx) : (s.setCtx p t).cleared = s.cleared := rfl
@[simp] theorem State.setCtx_events (p : Site) (t : Ctx) : (s.setCtx p t).events = s.events := rfl
@[simp] theorem State.setCtx_evSeq (p : Site) (t : Ctx) : (s.setCtx p t).evSeq = s.evSeq := rfl
@[simp] theorem State.setCtx_evLost (p : Site) (t : Ctx) : (s.setCtx p t).evLost = s.evLost := rfl
@[simp] theorem State.setCtx_beyonds (p : Site) (t : Ctx) : (s.setCtx p t).beyonds = s.beyonds := rfl
@[simp] theorem State.setCtx_slots (p : Site) (t : Ctx) : (s.setCtx p t).slots = s.slots := rfl
@[simp] theorem State.setCtx_govs (p : Site) (t : Ctx) : (s.setCtx p t).govs = s.govs := rfl
@[simp] theorem State.setCtx_domains (p : Site) (t : Ctx) : (s.setCtx p t).domains = s.domains := rfl
@[simp] theorem State.setCtx_modId (p : Site) (t : Ctx) : (s.setCtx p t).modId = s.modId := rfl
@[simp] theorem State.setCtx_timeQ (p : Site) (t : Ctx) : (s.setCtx p t).timeQ = s.timeQ := rfl
@[simp] theorem State.setCtx_mem (p : Site) (t : Ctx) : (s.setCtx p t).mem = s.mem := rfl
@[simp] theorem State.setCtx_dma (p : Site) (t : Ctx) : (s.setCtx p t).dma = s.dma := rfl
@[simp] theorem State.setCtx_chest (p : Site) (t : Ctx) : (s.setCtx p t).chest = s.chest := rfl
@[simp] theorem State.setCtx_journal (p : Site) (t : Ctx) : (s.setCtx p t).journal = s.journal := rfl
@[simp] theorem State.setCtx_mail (p : Site) (t : Ctx) : (s.setCtx p t).mail = s.mail := rfl
@[simp] theorem State.setCtx_boot (p : Site) (t : Ctx) : (s.setCtx p t).boot = s.boot := rfl
@[simp] theorem State.setCtx_rows (p : Site) (t : Ctx) : (s.setCtx p t).rows = s.rows := rfl
@[simp] theorem State.setCtx_host (p : Site) (t : Ctx) : (s.setCtx p t).host = s.host := rfl
@[simp] theorem State.setCtx_links (p : Site) (t : Ctx) : (s.setCtx p t).links = s.links := rfl
@[simp] theorem State.setCtx_arbs (p : Site) (t : Ctx) : (s.setCtx p t).arbs = s.arbs := rfl
@[simp] theorem State.setCtx_arbInst (p : Site) (t : Ctx) : (s.setCtx p t).arbInst = s.arbInst := rfl

@[simp] theorem State.modCtx_pending (p : Site) (f : Ctx → Ctx) : (s.modCtx p f).pending = s.pending := rfl
@[simp] theorem State.modCtx_free (p : Site) (f : Ctx → Ctx) : (s.modCtx p f).free = s.free := rfl
@[simp] theorem State.modCtx_wire (p : Site) (f : Ctx → Ctx) : (s.modCtx p f).wire = s.wire := rfl
@[simp] theorem State.modCtx_counters (p : Site) (f : Ctx → Ctx) : (s.modCtx p f).counters = s.counters := rfl
@[simp] theorem State.modCtx_seen (p : Site) (f : Ctx → Ctx) : (s.modCtx p f).seen = s.seen := rfl
@[simp] theorem State.modCtx_cleared (p : Site) (f : Ctx → Ctx) : (s.modCtx p f).cleared = s.cleared := rfl
@[simp] theorem State.modCtx_events (p : Site) (f : Ctx → Ctx) : (s.modCtx p f).events = s.events := rfl
@[simp] theorem State.modCtx_evSeq (p : Site) (f : Ctx → Ctx) : (s.modCtx p f).evSeq = s.evSeq := rfl
@[simp] theorem State.modCtx_evLost (p : Site) (f : Ctx → Ctx) : (s.modCtx p f).evLost = s.evLost := rfl
@[simp] theorem State.modCtx_beyonds (p : Site) (f : Ctx → Ctx) : (s.modCtx p f).beyonds = s.beyonds := rfl
@[simp] theorem State.modCtx_slots (p : Site) (f : Ctx → Ctx) : (s.modCtx p f).slots = s.slots := rfl
@[simp] theorem State.modCtx_govs (p : Site) (f : Ctx → Ctx) : (s.modCtx p f).govs = s.govs := rfl
@[simp] theorem State.modCtx_domains (p : Site) (f : Ctx → Ctx) : (s.modCtx p f).domains = s.domains := rfl
@[simp] theorem State.modCtx_modId (p : Site) (f : Ctx → Ctx) : (s.modCtx p f).modId = s.modId := rfl
@[simp] theorem State.modCtx_timeQ (p : Site) (f : Ctx → Ctx) : (s.modCtx p f).timeQ = s.timeQ := rfl
@[simp] theorem State.modCtx_mem (p : Site) (f : Ctx → Ctx) : (s.modCtx p f).mem = s.mem := rfl
@[simp] theorem State.modCtx_dma (p : Site) (f : Ctx → Ctx) : (s.modCtx p f).dma = s.dma := rfl
@[simp] theorem State.modCtx_chest (p : Site) (f : Ctx → Ctx) : (s.modCtx p f).chest = s.chest := rfl
@[simp] theorem State.modCtx_journal (p : Site) (f : Ctx → Ctx) : (s.modCtx p f).journal = s.journal := rfl
@[simp] theorem State.modCtx_mail (p : Site) (f : Ctx → Ctx) : (s.modCtx p f).mail = s.mail := rfl
@[simp] theorem State.modCtx_boot (p : Site) (f : Ctx → Ctx) : (s.modCtx p f).boot = s.boot := rfl
@[simp] theorem State.modCtx_rows (p : Site) (f : Ctx → Ctx) : (s.modCtx p f).rows = s.rows := rfl
@[simp] theorem State.modCtx_host (p : Site) (f : Ctx → Ctx) : (s.modCtx p f).host = s.host := rfl
@[simp] theorem State.modCtx_links (p : Site) (f : Ctx → Ctx) : (s.modCtx p f).links = s.links := rfl
@[simp] theorem State.modCtx_arbs (p : Site) (f : Ctx → Ctx) : (s.modCtx p f).arbs = s.arbs := rfl
@[simp] theorem State.modCtx_arbInst (p : Site) (f : Ctx → Ctx) : (s.modCtx p f).arbInst = s.arbInst := rfl

@[simp] theorem State.setGov_pending (d : Nat) (g : Gov) : (s.setGov d g).pending = s.pending := rfl
@[simp] theorem State.setGov_free (d : Nat) (g : Gov) : (s.setGov d g).free = s.free := rfl
@[simp] theorem State.setGov_wire (d : Nat) (g : Gov) : (s.setGov d g).wire = s.wire := rfl
@[simp] theorem State.setGov_cores (d : Nat) (g : Gov) : (s.setGov d g).cores = s.cores := rfl
@[simp] theorem State.setGov_counters (d : Nat) (g : Gov) : (s.setGov d g).counters = s.counters := rfl
@[simp] theorem State.setGov_seen (d : Nat) (g : Gov) : (s.setGov d g).seen = s.seen := rfl
@[simp] theorem State.setGov_cleared (d : Nat) (g : Gov) : (s.setGov d g).cleared = s.cleared := rfl
@[simp] theorem State.setGov_events (d : Nat) (g : Gov) : (s.setGov d g).events = s.events := rfl
@[simp] theorem State.setGov_evSeq (d : Nat) (g : Gov) : (s.setGov d g).evSeq = s.evSeq := rfl
@[simp] theorem State.setGov_evLost (d : Nat) (g : Gov) : (s.setGov d g).evLost = s.evLost := rfl
@[simp] theorem State.setGov_beyonds (d : Nat) (g : Gov) : (s.setGov d g).beyonds = s.beyonds := rfl
@[simp] theorem State.setGov_slots (d : Nat) (g : Gov) : (s.setGov d g).slots = s.slots := rfl
@[simp] theorem State.setGov_domains (d : Nat) (g : Gov) : (s.setGov d g).domains = s.domains := rfl
@[simp] theorem State.setGov_modId (d : Nat) (g : Gov) : (s.setGov d g).modId = s.modId := rfl
@[simp] theorem State.setGov_timeQ (d : Nat) (g : Gov) : (s.setGov d g).timeQ = s.timeQ := rfl
@[simp] theorem State.setGov_mem (d : Nat) (g : Gov) : (s.setGov d g).mem = s.mem := rfl
@[simp] theorem State.setGov_dma (d : Nat) (g : Gov) : (s.setGov d g).dma = s.dma := rfl
@[simp] theorem State.setGov_chest (d : Nat) (g : Gov) : (s.setGov d g).chest = s.chest := rfl
@[simp] theorem State.setGov_journal (d : Nat) (g : Gov) : (s.setGov d g).journal = s.journal := rfl
@[simp] theorem State.setGov_mail (d : Nat) (g : Gov) : (s.setGov d g).mail = s.mail := rfl
@[simp] theorem State.setGov_boot (d : Nat) (g : Gov) : (s.setGov d g).boot = s.boot := rfl
@[simp] theorem State.setGov_rows (d : Nat) (g : Gov) : (s.setGov d g).rows = s.rows := rfl
@[simp] theorem State.setGov_host (d : Nat) (g : Gov) : (s.setGov d g).host = s.host := rfl
@[simp] theorem State.setGov_links (d : Nat) (g : Gov) : (s.setGov d g).links = s.links := rfl
@[simp] theorem State.setGov_arbs (d : Nat) (g : Gov) : (s.setGov d g).arbs = s.arbs := rfl
@[simp] theorem State.setGov_arbInst (d : Nat) (g : Gov) : (s.setGov d g).arbInst = s.arbInst := rfl

@[simp] theorem State.modGov_pending (d : Nat) (f : Gov → Gov) : (s.modGov d f).pending = s.pending := rfl
@[simp] theorem State.modGov_free (d : Nat) (f : Gov → Gov) : (s.modGov d f).free = s.free := rfl
@[simp] theorem State.modGov_wire (d : Nat) (f : Gov → Gov) : (s.modGov d f).wire = s.wire := rfl
@[simp] theorem State.modGov_cores (d : Nat) (f : Gov → Gov) : (s.modGov d f).cores = s.cores := rfl
@[simp] theorem State.modGov_counters (d : Nat) (f : Gov → Gov) : (s.modGov d f).counters = s.counters := rfl
@[simp] theorem State.modGov_seen (d : Nat) (f : Gov → Gov) : (s.modGov d f).seen = s.seen := rfl
@[simp] theorem State.modGov_cleared (d : Nat) (f : Gov → Gov) : (s.modGov d f).cleared = s.cleared := rfl
@[simp] theorem State.modGov_events (d : Nat) (f : Gov → Gov) : (s.modGov d f).events = s.events := rfl
@[simp] theorem State.modGov_evSeq (d : Nat) (f : Gov → Gov) : (s.modGov d f).evSeq = s.evSeq := rfl
@[simp] theorem State.modGov_evLost (d : Nat) (f : Gov → Gov) : (s.modGov d f).evLost = s.evLost := rfl
@[simp] theorem State.modGov_beyonds (d : Nat) (f : Gov → Gov) : (s.modGov d f).beyonds = s.beyonds := rfl
@[simp] theorem State.modGov_slots (d : Nat) (f : Gov → Gov) : (s.modGov d f).slots = s.slots := rfl
@[simp] theorem State.modGov_domains (d : Nat) (f : Gov → Gov) : (s.modGov d f).domains = s.domains := rfl
@[simp] theorem State.modGov_modId (d : Nat) (f : Gov → Gov) : (s.modGov d f).modId = s.modId := rfl
@[simp] theorem State.modGov_timeQ (d : Nat) (f : Gov → Gov) : (s.modGov d f).timeQ = s.timeQ := rfl
@[simp] theorem State.modGov_mem (d : Nat) (f : Gov → Gov) : (s.modGov d f).mem = s.mem := rfl
@[simp] theorem State.modGov_dma (d : Nat) (f : Gov → Gov) : (s.modGov d f).dma = s.dma := rfl
@[simp] theorem State.modGov_chest (d : Nat) (f : Gov → Gov) : (s.modGov d f).chest = s.chest := rfl
@[simp] theorem State.modGov_journal (d : Nat) (f : Gov → Gov) : (s.modGov d f).journal = s.journal := rfl
@[simp] theorem State.modGov_mail (d : Nat) (f : Gov → Gov) : (s.modGov d f).mail = s.mail := rfl
@[simp] theorem State.modGov_boot (d : Nat) (f : Gov → Gov) : (s.modGov d f).boot = s.boot := rfl
@[simp] theorem State.modGov_rows (d : Nat) (f : Gov → Gov) : (s.modGov d f).rows = s.rows := rfl
@[simp] theorem State.modGov_host (d : Nat) (f : Gov → Gov) : (s.modGov d f).host = s.host := rfl
@[simp] theorem State.modGov_links (d : Nat) (f : Gov → Gov) : (s.modGov d f).links = s.links := rfl
@[simp] theorem State.modGov_arbs (d : Nat) (f : Gov → Gov) : (s.modGov d f).arbs = s.arbs := rfl
@[simp] theorem State.modGov_arbInst (d : Nat) (f : Gov → Gov) : (s.modGov d f).arbInst = s.arbInst := rfl

@[simp] theorem State.setSlot_pending (k : Nat) (v : Slot) : (s.setSlot k v).pending = s.pending := rfl
@[simp] theorem State.setSlot_free (k : Nat) (v : Slot) : (s.setSlot k v).free = s.free := rfl
@[simp] theorem State.setSlot_wire (k : Nat) (v : Slot) : (s.setSlot k v).wire = s.wire := rfl
@[simp] theorem State.setSlot_cores (k : Nat) (v : Slot) : (s.setSlot k v).cores = s.cores := rfl
@[simp] theorem State.setSlot_counters (k : Nat) (v : Slot) : (s.setSlot k v).counters = s.counters := rfl
@[simp] theorem State.setSlot_seen (k : Nat) (v : Slot) : (s.setSlot k v).seen = s.seen := rfl
@[simp] theorem State.setSlot_cleared (k : Nat) (v : Slot) : (s.setSlot k v).cleared = s.cleared := rfl
@[simp] theorem State.setSlot_events (k : Nat) (v : Slot) : (s.setSlot k v).events = s.events := rfl
@[simp] theorem State.setSlot_evSeq (k : Nat) (v : Slot) : (s.setSlot k v).evSeq = s.evSeq := rfl
@[simp] theorem State.setSlot_evLost (k : Nat) (v : Slot) : (s.setSlot k v).evLost = s.evLost := rfl
@[simp] theorem State.setSlot_beyonds (k : Nat) (v : Slot) : (s.setSlot k v).beyonds = s.beyonds := rfl
@[simp] theorem State.setSlot_govs (k : Nat) (v : Slot) : (s.setSlot k v).govs = s.govs := rfl
@[simp] theorem State.setSlot_domains (k : Nat) (v : Slot) : (s.setSlot k v).domains = s.domains := rfl
@[simp] theorem State.setSlot_modId (k : Nat) (v : Slot) : (s.setSlot k v).modId = s.modId := rfl
@[simp] theorem State.setSlot_timeQ (k : Nat) (v : Slot) : (s.setSlot k v).timeQ = s.timeQ := rfl
@[simp] theorem State.setSlot_mem (k : Nat) (v : Slot) : (s.setSlot k v).mem = s.mem := rfl
@[simp] theorem State.setSlot_dma (k : Nat) (v : Slot) : (s.setSlot k v).dma = s.dma := rfl
@[simp] theorem State.setSlot_chest (k : Nat) (v : Slot) : (s.setSlot k v).chest = s.chest := rfl
@[simp] theorem State.setSlot_journal (k : Nat) (v : Slot) : (s.setSlot k v).journal = s.journal := rfl
@[simp] theorem State.setSlot_mail (k : Nat) (v : Slot) : (s.setSlot k v).mail = s.mail := rfl
@[simp] theorem State.setSlot_boot (k : Nat) (v : Slot) : (s.setSlot k v).boot = s.boot := rfl
@[simp] theorem State.setSlot_rows (k : Nat) (v : Slot) : (s.setSlot k v).rows = s.rows := rfl
@[simp] theorem State.setSlot_host (k : Nat) (v : Slot) : (s.setSlot k v).host = s.host := rfl
@[simp] theorem State.setSlot_links (k : Nat) (v : Slot) : (s.setSlot k v).links = s.links := rfl
@[simp] theorem State.setSlot_arbs (k : Nat) (v : Slot) : (s.setSlot k v).arbs = s.arbs := rfl
@[simp] theorem State.setSlot_arbInst (k : Nat) (v : Slot) : (s.setSlot k v).arbInst = s.arbInst := rfl

@[simp] theorem State.modSlot_pending (k : Nat) (f : Slot → Slot) : (s.modSlot k f).pending = s.pending := rfl
@[simp] theorem State.modSlot_free (k : Nat) (f : Slot → Slot) : (s.modSlot k f).free = s.free := rfl
@[simp] theorem State.modSlot_wire (k : Nat) (f : Slot → Slot) : (s.modSlot k f).wire = s.wire := rfl
@[simp] theorem State.modSlot_cores (k : Nat) (f : Slot → Slot) : (s.modSlot k f).cores = s.cores := rfl
@[simp] theorem State.modSlot_counters (k : Nat) (f : Slot → Slot) : (s.modSlot k f).counters = s.counters := rfl
@[simp] theorem State.modSlot_seen (k : Nat) (f : Slot → Slot) : (s.modSlot k f).seen = s.seen := rfl
@[simp] theorem State.modSlot_cleared (k : Nat) (f : Slot → Slot) : (s.modSlot k f).cleared = s.cleared := rfl
@[simp] theorem State.modSlot_events (k : Nat) (f : Slot → Slot) : (s.modSlot k f).events = s.events := rfl
@[simp] theorem State.modSlot_evSeq (k : Nat) (f : Slot → Slot) : (s.modSlot k f).evSeq = s.evSeq := rfl
@[simp] theorem State.modSlot_evLost (k : Nat) (f : Slot → Slot) : (s.modSlot k f).evLost = s.evLost := rfl
@[simp] theorem State.modSlot_beyonds (k : Nat) (f : Slot → Slot) : (s.modSlot k f).beyonds = s.beyonds := rfl
@[simp] theorem State.modSlot_govs (k : Nat) (f : Slot → Slot) : (s.modSlot k f).govs = s.govs := rfl
@[simp] theorem State.modSlot_domains (k : Nat) (f : Slot → Slot) : (s.modSlot k f).domains = s.domains := rfl
@[simp] theorem State.modSlot_modId (k : Nat) (f : Slot → Slot) : (s.modSlot k f).modId = s.modId := rfl
@[simp] theorem State.modSlot_timeQ (k : Nat) (f : Slot → Slot) : (s.modSlot k f).timeQ = s.timeQ := rfl
@[simp] theorem State.modSlot_mem (k : Nat) (f : Slot → Slot) : (s.modSlot k f).mem = s.mem := rfl
@[simp] theorem State.modSlot_dma (k : Nat) (f : Slot → Slot) : (s.modSlot k f).dma = s.dma := rfl
@[simp] theorem State.modSlot_chest (k : Nat) (f : Slot → Slot) : (s.modSlot k f).chest = s.chest := rfl
@[simp] theorem State.modSlot_journal (k : Nat) (f : Slot → Slot) : (s.modSlot k f).journal = s.journal := rfl
@[simp] theorem State.modSlot_mail (k : Nat) (f : Slot → Slot) : (s.modSlot k f).mail = s.mail := rfl
@[simp] theorem State.modSlot_boot (k : Nat) (f : Slot → Slot) : (s.modSlot k f).boot = s.boot := rfl
@[simp] theorem State.modSlot_rows (k : Nat) (f : Slot → Slot) : (s.modSlot k f).rows = s.rows := rfl
@[simp] theorem State.modSlot_host (k : Nat) (f : Slot → Slot) : (s.modSlot k f).host = s.host := rfl
@[simp] theorem State.modSlot_links (k : Nat) (f : Slot → Slot) : (s.modSlot k f).links = s.links := rfl
@[simp] theorem State.modSlot_arbs (k : Nat) (f : Slot → Slot) : (s.modSlot k f).arbs = s.arbs := rfl
@[simp] theorem State.modSlot_arbInst (k : Nat) (f : Slot → Slot) : (s.modSlot k f).arbInst = s.arbInst := rfl

@[simp] theorem State.setRing_pending (r : Nat) (x : Ring) : (s.setRing r x).pending = s.pending := rfl
@[simp] theorem State.setRing_free (r : Nat) (x : Ring) : (s.setRing r x).free = s.free := rfl
@[simp] theorem State.setRing_wire (r : Nat) (x : Ring) : (s.setRing r x).wire = s.wire := rfl
@[simp] theorem State.setRing_cores (r : Nat) (x : Ring) : (s.setRing r x).cores = s.cores := rfl
@[simp] theorem State.setRing_counters (r : Nat) (x : Ring) : (s.setRing r x).counters = s.counters := rfl
@[simp] theorem State.setRing_seen (r : Nat) (x : Ring) : (s.setRing r x).seen = s.seen := rfl
@[simp] theorem State.setRing_cleared (r : Nat) (x : Ring) : (s.setRing r x).cleared = s.cleared := rfl
@[simp] theorem State.setRing_events (r : Nat) (x : Ring) : (s.setRing r x).events = s.events := rfl
@[simp] theorem State.setRing_evSeq (r : Nat) (x : Ring) : (s.setRing r x).evSeq = s.evSeq := rfl
@[simp] theorem State.setRing_evLost (r : Nat) (x : Ring) : (s.setRing r x).evLost = s.evLost := rfl
@[simp] theorem State.setRing_beyonds (r : Nat) (x : Ring) : (s.setRing r x).beyonds = s.beyonds := rfl
@[simp] theorem State.setRing_slots (r : Nat) (x : Ring) : (s.setRing r x).slots = s.slots := rfl
@[simp] theorem State.setRing_govs (r : Nat) (x : Ring) : (s.setRing r x).govs = s.govs := rfl
@[simp] theorem State.setRing_domains (r : Nat) (x : Ring) : (s.setRing r x).domains = s.domains := rfl
@[simp] theorem State.setRing_modId (r : Nat) (x : Ring) : (s.setRing r x).modId = s.modId := rfl
@[simp] theorem State.setRing_timeQ (r : Nat) (x : Ring) : (s.setRing r x).timeQ = s.timeQ := rfl
@[simp] theorem State.setRing_mem (r : Nat) (x : Ring) : (s.setRing r x).mem = s.mem := rfl
@[simp] theorem State.setRing_dma (r : Nat) (x : Ring) : (s.setRing r x).dma = s.dma := rfl
@[simp] theorem State.setRing_chest (r : Nat) (x : Ring) : (s.setRing r x).chest = s.chest := rfl
@[simp] theorem State.setRing_journal (r : Nat) (x : Ring) : (s.setRing r x).journal = s.journal := rfl
@[simp] theorem State.setRing_boot (r : Nat) (x : Ring) : (s.setRing r x).boot = s.boot := rfl
@[simp] theorem State.setRing_rows (r : Nat) (x : Ring) : (s.setRing r x).rows = s.rows := rfl
@[simp] theorem State.setRing_host (r : Nat) (x : Ring) : (s.setRing r x).host = s.host := rfl
@[simp] theorem State.setRing_links (r : Nat) (x : Ring) : (s.setRing r x).links = s.links := rfl
@[simp] theorem State.setRing_arbs (r : Nat) (x : Ring) : (s.setRing r x).arbs = s.arbs := rfl
@[simp] theorem State.setRing_arbInst (r : Nat) (x : Ring) : (s.setRing r x).arbInst = s.arbInst := rfl

@[simp] theorem State.modMail_pending (f : Mail → Mail) : (s.modMail f).pending = s.pending := rfl
@[simp] theorem State.modMail_free (f : Mail → Mail) : (s.modMail f).free = s.free := rfl
@[simp] theorem State.modMail_wire (f : Mail → Mail) : (s.modMail f).wire = s.wire := rfl
@[simp] theorem State.modMail_cores (f : Mail → Mail) : (s.modMail f).cores = s.cores := rfl
@[simp] theorem State.modMail_counters (f : Mail → Mail) : (s.modMail f).counters = s.counters := rfl
@[simp] theorem State.modMail_seen (f : Mail → Mail) : (s.modMail f).seen = s.seen := rfl
@[simp] theorem State.modMail_cleared (f : Mail → Mail) : (s.modMail f).cleared = s.cleared := rfl
@[simp] theorem State.modMail_events (f : Mail → Mail) : (s.modMail f).events = s.events := rfl
@[simp] theorem State.modMail_evSeq (f : Mail → Mail) : (s.modMail f).evSeq = s.evSeq := rfl
@[simp] theorem State.modMail_evLost (f : Mail → Mail) : (s.modMail f).evLost = s.evLost := rfl
@[simp] theorem State.modMail_beyonds (f : Mail → Mail) : (s.modMail f).beyonds = s.beyonds := rfl
@[simp] theorem State.modMail_slots (f : Mail → Mail) : (s.modMail f).slots = s.slots := rfl
@[simp] theorem State.modMail_govs (f : Mail → Mail) : (s.modMail f).govs = s.govs := rfl
@[simp] theorem State.modMail_domains (f : Mail → Mail) : (s.modMail f).domains = s.domains := rfl
@[simp] theorem State.modMail_modId (f : Mail → Mail) : (s.modMail f).modId = s.modId := rfl
@[simp] theorem State.modMail_timeQ (f : Mail → Mail) : (s.modMail f).timeQ = s.timeQ := rfl
@[simp] theorem State.modMail_mem (f : Mail → Mail) : (s.modMail f).mem = s.mem := rfl
@[simp] theorem State.modMail_dma (f : Mail → Mail) : (s.modMail f).dma = s.dma := rfl
@[simp] theorem State.modMail_chest (f : Mail → Mail) : (s.modMail f).chest = s.chest := rfl
@[simp] theorem State.modMail_journal (f : Mail → Mail) : (s.modMail f).journal = s.journal := rfl
@[simp] theorem State.modMail_boot (f : Mail → Mail) : (s.modMail f).boot = s.boot := rfl
@[simp] theorem State.modMail_rows (f : Mail → Mail) : (s.modMail f).rows = s.rows := rfl
@[simp] theorem State.modMail_host (f : Mail → Mail) : (s.modMail f).host = s.host := rfl
@[simp] theorem State.modMail_links (f : Mail → Mail) : (s.modMail f).links = s.links := rfl
@[simp] theorem State.modMail_arbs (f : Mail → Mail) : (s.modMail f).arbs = s.arbs := rfl
@[simp] theorem State.modMail_arbInst (f : Mail → Mail) : (s.modMail f).arbInst = s.arbInst := rfl

@[simp] theorem State.setChan_pending (i : Nat) (c : DmaChan) : (s.setChan i c).pending = s.pending := rfl
@[simp] theorem State.setChan_free (i : Nat) (c : DmaChan) : (s.setChan i c).free = s.free := rfl
@[simp] theorem State.setChan_wire (i : Nat) (c : DmaChan) : (s.setChan i c).wire = s.wire := rfl
@[simp] theorem State.setChan_cores (i : Nat) (c : DmaChan) : (s.setChan i c).cores = s.cores := rfl
@[simp] theorem State.setChan_counters (i : Nat) (c : DmaChan) : (s.setChan i c).counters = s.counters := rfl
@[simp] theorem State.setChan_seen (i : Nat) (c : DmaChan) : (s.setChan i c).seen = s.seen := rfl
@[simp] theorem State.setChan_cleared (i : Nat) (c : DmaChan) : (s.setChan i c).cleared = s.cleared := rfl
@[simp] theorem State.setChan_events (i : Nat) (c : DmaChan) : (s.setChan i c).events = s.events := rfl
@[simp] theorem State.setChan_evSeq (i : Nat) (c : DmaChan) : (s.setChan i c).evSeq = s.evSeq := rfl
@[simp] theorem State.setChan_evLost (i : Nat) (c : DmaChan) : (s.setChan i c).evLost = s.evLost := rfl
@[simp] theorem State.setChan_beyonds (i : Nat) (c : DmaChan) : (s.setChan i c).beyonds = s.beyonds := rfl
@[simp] theorem State.setChan_slots (i : Nat) (c : DmaChan) : (s.setChan i c).slots = s.slots := rfl
@[simp] theorem State.setChan_govs (i : Nat) (c : DmaChan) : (s.setChan i c).govs = s.govs := rfl
@[simp] theorem State.setChan_domains (i : Nat) (c : DmaChan) : (s.setChan i c).domains = s.domains := rfl
@[simp] theorem State.setChan_modId (i : Nat) (c : DmaChan) : (s.setChan i c).modId = s.modId := rfl
@[simp] theorem State.setChan_timeQ (i : Nat) (c : DmaChan) : (s.setChan i c).timeQ = s.timeQ := rfl
@[simp] theorem State.setChan_mem (i : Nat) (c : DmaChan) : (s.setChan i c).mem = s.mem := rfl
@[simp] theorem State.setChan_chest (i : Nat) (c : DmaChan) : (s.setChan i c).chest = s.chest := rfl
@[simp] theorem State.setChan_journal (i : Nat) (c : DmaChan) : (s.setChan i c).journal = s.journal := rfl
@[simp] theorem State.setChan_mail (i : Nat) (c : DmaChan) : (s.setChan i c).mail = s.mail := rfl
@[simp] theorem State.setChan_boot (i : Nat) (c : DmaChan) : (s.setChan i c).boot = s.boot := rfl
@[simp] theorem State.setChan_rows (i : Nat) (c : DmaChan) : (s.setChan i c).rows = s.rows := rfl
@[simp] theorem State.setChan_host (i : Nat) (c : DmaChan) : (s.setChan i c).host = s.host := rfl
@[simp] theorem State.setChan_links (i : Nat) (c : DmaChan) : (s.setChan i c).links = s.links := rfl
@[simp] theorem State.setChan_arbs (i : Nat) (c : DmaChan) : (s.setChan i c).arbs = s.arbs := rfl
@[simp] theorem State.setChan_arbInst (i : Nat) (c : DmaChan) : (s.setChan i c).arbInst = s.arbInst := rfl

@[simp] theorem State.modChan_pending (i : Nat) (f : DmaChan → DmaChan) : (s.modChan i f).pending = s.pending := rfl
@[simp] theorem State.modChan_free (i : Nat) (f : DmaChan → DmaChan) : (s.modChan i f).free = s.free := rfl
@[simp] theorem State.modChan_wire (i : Nat) (f : DmaChan → DmaChan) : (s.modChan i f).wire = s.wire := rfl
@[simp] theorem State.modChan_cores (i : Nat) (f : DmaChan → DmaChan) : (s.modChan i f).cores = s.cores := rfl
@[simp] theorem State.modChan_counters (i : Nat) (f : DmaChan → DmaChan) : (s.modChan i f).counters = s.counters := rfl
@[simp] theorem State.modChan_seen (i : Nat) (f : DmaChan → DmaChan) : (s.modChan i f).seen = s.seen := rfl
@[simp] theorem State.modChan_cleared (i : Nat) (f : DmaChan → DmaChan) : (s.modChan i f).cleared = s.cleared := rfl
@[simp] theorem State.modChan_events (i : Nat) (f : DmaChan → DmaChan) : (s.modChan i f).events = s.events := rfl
@[simp] theorem State.modChan_evSeq (i : Nat) (f : DmaChan → DmaChan) : (s.modChan i f).evSeq = s.evSeq := rfl
@[simp] theorem State.modChan_evLost (i : Nat) (f : DmaChan → DmaChan) : (s.modChan i f).evLost = s.evLost := rfl
@[simp] theorem State.modChan_beyonds (i : Nat) (f : DmaChan → DmaChan) : (s.modChan i f).beyonds = s.beyonds := rfl
@[simp] theorem State.modChan_slots (i : Nat) (f : DmaChan → DmaChan) : (s.modChan i f).slots = s.slots := rfl
@[simp] theorem State.modChan_govs (i : Nat) (f : DmaChan → DmaChan) : (s.modChan i f).govs = s.govs := rfl
@[simp] theorem State.modChan_domains (i : Nat) (f : DmaChan → DmaChan) : (s.modChan i f).domains = s.domains := rfl
@[simp] theorem State.modChan_modId (i : Nat) (f : DmaChan → DmaChan) : (s.modChan i f).modId = s.modId := rfl
@[simp] theorem State.modChan_timeQ (i : Nat) (f : DmaChan → DmaChan) : (s.modChan i f).timeQ = s.timeQ := rfl
@[simp] theorem State.modChan_mem (i : Nat) (f : DmaChan → DmaChan) : (s.modChan i f).mem = s.mem := rfl
@[simp] theorem State.modChan_chest (i : Nat) (f : DmaChan → DmaChan) : (s.modChan i f).chest = s.chest := rfl
@[simp] theorem State.modChan_journal (i : Nat) (f : DmaChan → DmaChan) : (s.modChan i f).journal = s.journal := rfl
@[simp] theorem State.modChan_mail (i : Nat) (f : DmaChan → DmaChan) : (s.modChan i f).mail = s.mail := rfl
@[simp] theorem State.modChan_boot (i : Nat) (f : DmaChan → DmaChan) : (s.modChan i f).boot = s.boot := rfl
@[simp] theorem State.modChan_rows (i : Nat) (f : DmaChan → DmaChan) : (s.modChan i f).rows = s.rows := rfl
@[simp] theorem State.modChan_host (i : Nat) (f : DmaChan → DmaChan) : (s.modChan i f).host = s.host := rfl
@[simp] theorem State.modChan_links (i : Nat) (f : DmaChan → DmaChan) : (s.modChan i f).links = s.links := rfl
@[simp] theorem State.modChan_arbs (i : Nat) (f : DmaChan → DmaChan) : (s.modChan i f).arbs = s.arbs := rfl
@[simp] theorem State.modChan_arbInst (i : Nat) (f : DmaChan → DmaChan) : (s.modChan i f).arbInst = s.arbInst := rfl

@[simp] theorem State.modMem_pending (f : Mem → Mem) : (s.modMem f).pending = s.pending := rfl
@[simp] theorem State.modMem_free (f : Mem → Mem) : (s.modMem f).free = s.free := rfl
@[simp] theorem State.modMem_wire (f : Mem → Mem) : (s.modMem f).wire = s.wire := rfl
@[simp] theorem State.modMem_cores (f : Mem → Mem) : (s.modMem f).cores = s.cores := rfl
@[simp] theorem State.modMem_counters (f : Mem → Mem) : (s.modMem f).counters = s.counters := rfl
@[simp] theorem State.modMem_seen (f : Mem → Mem) : (s.modMem f).seen = s.seen := rfl
@[simp] theorem State.modMem_cleared (f : Mem → Mem) : (s.modMem f).cleared = s.cleared := rfl
@[simp] theorem State.modMem_events (f : Mem → Mem) : (s.modMem f).events = s.events := rfl
@[simp] theorem State.modMem_evSeq (f : Mem → Mem) : (s.modMem f).evSeq = s.evSeq := rfl
@[simp] theorem State.modMem_evLost (f : Mem → Mem) : (s.modMem f).evLost = s.evLost := rfl
@[simp] theorem State.modMem_beyonds (f : Mem → Mem) : (s.modMem f).beyonds = s.beyonds := rfl
@[simp] theorem State.modMem_slots (f : Mem → Mem) : (s.modMem f).slots = s.slots := rfl
@[simp] theorem State.modMem_govs (f : Mem → Mem) : (s.modMem f).govs = s.govs := rfl
@[simp] theorem State.modMem_domains (f : Mem → Mem) : (s.modMem f).domains = s.domains := rfl
@[simp] theorem State.modMem_modId (f : Mem → Mem) : (s.modMem f).modId = s.modId := rfl
@[simp] theorem State.modMem_timeQ (f : Mem → Mem) : (s.modMem f).timeQ = s.timeQ := rfl
@[simp] theorem State.modMem_dma (f : Mem → Mem) : (s.modMem f).dma = s.dma := rfl
@[simp] theorem State.modMem_chest (f : Mem → Mem) : (s.modMem f).chest = s.chest := rfl
@[simp] theorem State.modMem_journal (f : Mem → Mem) : (s.modMem f).journal = s.journal := rfl
@[simp] theorem State.modMem_mail (f : Mem → Mem) : (s.modMem f).mail = s.mail := rfl
@[simp] theorem State.modMem_boot (f : Mem → Mem) : (s.modMem f).boot = s.boot := rfl
@[simp] theorem State.modMem_rows (f : Mem → Mem) : (s.modMem f).rows = s.rows := rfl
@[simp] theorem State.modMem_host (f : Mem → Mem) : (s.modMem f).host = s.host := rfl
@[simp] theorem State.modMem_links (f : Mem → Mem) : (s.modMem f).links = s.links := rfl
@[simp] theorem State.modMem_arbs (f : Mem → Mem) : (s.modMem f).arbs = s.arbs := rfl
@[simp] theorem State.modMem_arbInst (f : Mem → Mem) : (s.modMem f).arbInst = s.arbInst := rfl

@[simp] theorem State.modPort_pending (p : Nat) (f : MPort → MPort) : (s.modPort p f).pending = s.pending := rfl
@[simp] theorem State.modPort_free (p : Nat) (f : MPort → MPort) : (s.modPort p f).free = s.free := rfl
@[simp] theorem State.modPort_wire (p : Nat) (f : MPort → MPort) : (s.modPort p f).wire = s.wire := rfl
@[simp] theorem State.modPort_cores (p : Nat) (f : MPort → MPort) : (s.modPort p f).cores = s.cores := rfl
@[simp] theorem State.modPort_counters (p : Nat) (f : MPort → MPort) : (s.modPort p f).counters = s.counters := rfl
@[simp] theorem State.modPort_seen (p : Nat) (f : MPort → MPort) : (s.modPort p f).seen = s.seen := rfl
@[simp] theorem State.modPort_cleared (p : Nat) (f : MPort → MPort) : (s.modPort p f).cleared = s.cleared := rfl
@[simp] theorem State.modPort_events (p : Nat) (f : MPort → MPort) : (s.modPort p f).events = s.events := rfl
@[simp] theorem State.modPort_evSeq (p : Nat) (f : MPort → MPort) : (s.modPort p f).evSeq = s.evSeq := rfl
@[simp] theorem State.modPort_evLost (p : Nat) (f : MPort → MPort) : (s.modPort p f).evLost = s.evLost := rfl
@[simp] theorem State.modPort_beyonds (p : Nat) (f : MPort → MPort) : (s.modPort p f).beyonds = s.beyonds := rfl
@[simp] theorem State.modPort_slots (p : Nat) (f : MPort → MPort) : (s.modPort p f).slots = s.slots := rfl
@[simp] theorem State.modPort_govs (p : Nat) (f : MPort → MPort) : (s.modPort p f).govs = s.govs := rfl
@[simp] theorem State.modPort_domains (p : Nat) (f : MPort → MPort) : (s.modPort p f).domains = s.domains := rfl
@[simp] theorem State.modPort_modId (p : Nat) (f : MPort → MPort) : (s.modPort p f).modId = s.modId := rfl
@[simp] theorem State.modPort_timeQ (p : Nat) (f : MPort → MPort) : (s.modPort p f).timeQ = s.timeQ := rfl
@[simp] theorem State.modPort_dma (p : Nat) (f : MPort → MPort) : (s.modPort p f).dma = s.dma := rfl
@[simp] theorem State.modPort_chest (p : Nat) (f : MPort → MPort) : (s.modPort p f).chest = s.chest := rfl
@[simp] theorem State.modPort_journal (p : Nat) (f : MPort → MPort) : (s.modPort p f).journal = s.journal := rfl
@[simp] theorem State.modPort_mail (p : Nat) (f : MPort → MPort) : (s.modPort p f).mail = s.mail := rfl
@[simp] theorem State.modPort_boot (p : Nat) (f : MPort → MPort) : (s.modPort p f).boot = s.boot := rfl
@[simp] theorem State.modPort_rows (p : Nat) (f : MPort → MPort) : (s.modPort p f).rows = s.rows := rfl
@[simp] theorem State.modPort_host (p : Nat) (f : MPort → MPort) : (s.modPort p f).host = s.host := rfl
@[simp] theorem State.modPort_links (p : Nat) (f : MPort → MPort) : (s.modPort p f).links = s.links := rfl
@[simp] theorem State.modPort_arbs (p : Nat) (f : MPort → MPort) : (s.modPort p f).arbs = s.arbs := rfl
@[simp] theorem State.modPort_arbInst (p : Nat) (f : MPort → MPort) : (s.modPort p f).arbInst = s.arbInst := rfl

@[simp] theorem State.setDomain_pending (k : Nat) (d : Domain) : (s.setDomain k d).pending = s.pending := rfl
@[simp] theorem State.setDomain_free (k : Nat) (d : Domain) : (s.setDomain k d).free = s.free := rfl
@[simp] theorem State.setDomain_wire (k : Nat) (d : Domain) : (s.setDomain k d).wire = s.wire := rfl
@[simp] theorem State.setDomain_cores (k : Nat) (d : Domain) : (s.setDomain k d).cores = s.cores := rfl
@[simp] theorem State.setDomain_counters (k : Nat) (d : Domain) : (s.setDomain k d).counters = s.counters := rfl
@[simp] theorem State.setDomain_seen (k : Nat) (d : Domain) : (s.setDomain k d).seen = s.seen := rfl
@[simp] theorem State.setDomain_cleared (k : Nat) (d : Domain) : (s.setDomain k d).cleared = s.cleared := rfl
@[simp] theorem State.setDomain_events (k : Nat) (d : Domain) : (s.setDomain k d).events = s.events := rfl
@[simp] theorem State.setDomain_evSeq (k : Nat) (d : Domain) : (s.setDomain k d).evSeq = s.evSeq := rfl
@[simp] theorem State.setDomain_evLost (k : Nat) (d : Domain) : (s.setDomain k d).evLost = s.evLost := rfl
@[simp] theorem State.setDomain_beyonds (k : Nat) (d : Domain) : (s.setDomain k d).beyonds = s.beyonds := rfl
@[simp] theorem State.setDomain_slots (k : Nat) (d : Domain) : (s.setDomain k d).slots = s.slots := rfl
@[simp] theorem State.setDomain_govs (k : Nat) (d : Domain) : (s.setDomain k d).govs = s.govs := rfl
@[simp] theorem State.setDomain_modId (k : Nat) (d : Domain) : (s.setDomain k d).modId = s.modId := rfl
@[simp] theorem State.setDomain_timeQ (k : Nat) (d : Domain) : (s.setDomain k d).timeQ = s.timeQ := rfl
@[simp] theorem State.setDomain_mem (k : Nat) (d : Domain) : (s.setDomain k d).mem = s.mem := rfl
@[simp] theorem State.setDomain_dma (k : Nat) (d : Domain) : (s.setDomain k d).dma = s.dma := rfl
@[simp] theorem State.setDomain_chest (k : Nat) (d : Domain) : (s.setDomain k d).chest = s.chest := rfl
@[simp] theorem State.setDomain_journal (k : Nat) (d : Domain) : (s.setDomain k d).journal = s.journal := rfl
@[simp] theorem State.setDomain_mail (k : Nat) (d : Domain) : (s.setDomain k d).mail = s.mail := rfl
@[simp] theorem State.setDomain_boot (k : Nat) (d : Domain) : (s.setDomain k d).boot = s.boot := rfl
@[simp] theorem State.setDomain_rows (k : Nat) (d : Domain) : (s.setDomain k d).rows = s.rows := rfl
@[simp] theorem State.setDomain_host (k : Nat) (d : Domain) : (s.setDomain k d).host = s.host := rfl
@[simp] theorem State.setDomain_links (k : Nat) (d : Domain) : (s.setDomain k d).links = s.links := rfl
@[simp] theorem State.setDomain_arbs (k : Nat) (d : Domain) : (s.setDomain k d).arbs = s.arbs := rfl
@[simp] theorem State.setDomain_arbInst (k : Nat) (d : Domain) : (s.setDomain k d).arbInst = s.arbInst := rfl

@[simp] theorem State.modDomain_pending (k : Nat) (f : Domain → Domain) : (s.modDomain k f).pending = s.pending := rfl
@[simp] theorem State.modDomain_free (k : Nat) (f : Domain → Domain) : (s.modDomain k f).free = s.free := rfl
@[simp] theorem State.modDomain_wire (k : Nat) (f : Domain → Domain) : (s.modDomain k f).wire = s.wire := rfl
@[simp] theorem State.modDomain_cores (k : Nat) (f : Domain → Domain) : (s.modDomain k f).cores = s.cores := rfl
@[simp] theorem State.modDomain_counters (k : Nat) (f : Domain → Domain) : (s.modDomain k f).counters = s.counters := rfl
@[simp] theorem State.modDomain_seen (k : Nat) (f : Domain → Domain) : (s.modDomain k f).seen = s.seen := rfl
@[simp] theorem State.modDomain_cleared (k : Nat) (f : Domain → Domain) : (s.modDomain k f).cleared = s.cleared := rfl
@[simp] theorem State.modDomain_events (k : Nat) (f : Domain → Domain) : (s.modDomain k f).events = s.events := rfl
@[simp] theorem State.modDomain_evSeq (k : Nat) (f : Domain → Domain) : (s.modDomain k f).evSeq = s.evSeq := rfl
@[simp] theorem State.modDomain_evLost (k : Nat) (f : Domain → Domain) : (s.modDomain k f).evLost = s.evLost := rfl
@[simp] theorem State.modDomain_beyonds (k : Nat) (f : Domain → Domain) : (s.modDomain k f).beyonds = s.beyonds := rfl
@[simp] theorem State.modDomain_slots (k : Nat) (f : Domain → Domain) : (s.modDomain k f).slots = s.slots := rfl
@[simp] theorem State.modDomain_govs (k : Nat) (f : Domain → Domain) : (s.modDomain k f).govs = s.govs := rfl
@[simp] theorem State.modDomain_modId (k : Nat) (f : Domain → Domain) : (s.modDomain k f).modId = s.modId := rfl
@[simp] theorem State.modDomain_timeQ (k : Nat) (f : Domain → Domain) : (s.modDomain k f).timeQ = s.timeQ := rfl
@[simp] theorem State.modDomain_mem (k : Nat) (f : Domain → Domain) : (s.modDomain k f).mem = s.mem := rfl
@[simp] theorem State.modDomain_dma (k : Nat) (f : Domain → Domain) : (s.modDomain k f).dma = s.dma := rfl
@[simp] theorem State.modDomain_chest (k : Nat) (f : Domain → Domain) : (s.modDomain k f).chest = s.chest := rfl
@[simp] theorem State.modDomain_journal (k : Nat) (f : Domain → Domain) : (s.modDomain k f).journal = s.journal := rfl
@[simp] theorem State.modDomain_mail (k : Nat) (f : Domain → Domain) : (s.modDomain k f).mail = s.mail := rfl
@[simp] theorem State.modDomain_boot (k : Nat) (f : Domain → Domain) : (s.modDomain k f).boot = s.boot := rfl
@[simp] theorem State.modDomain_rows (k : Nat) (f : Domain → Domain) : (s.modDomain k f).rows = s.rows := rfl
@[simp] theorem State.modDomain_host (k : Nat) (f : Domain → Domain) : (s.modDomain k f).host = s.host := rfl
@[simp] theorem State.modDomain_links (k : Nat) (f : Domain → Domain) : (s.modDomain k f).links = s.links := rfl
@[simp] theorem State.modDomain_arbs (k : Nat) (f : Domain → Domain) : (s.modDomain k f).arbs = s.arbs := rfl
@[simp] theorem State.modDomain_arbInst (k : Nat) (f : Domain → Domain) : (s.modDomain k f).arbInst = s.arbInst := rfl

@[simp] theorem State.setLport_pending (p : Nat) (x : LPort) : (s.setLport p x).pending = s.pending := rfl
@[simp] theorem State.setLport_free (p : Nat) (x : LPort) : (s.setLport p x).free = s.free := rfl
@[simp] theorem State.setLport_wire (p : Nat) (x : LPort) : (s.setLport p x).wire = s.wire := rfl
@[simp] theorem State.setLport_cores (p : Nat) (x : LPort) : (s.setLport p x).cores = s.cores := rfl
@[simp] theorem State.setLport_counters (p : Nat) (x : LPort) : (s.setLport p x).counters = s.counters := rfl
@[simp] theorem State.setLport_seen (p : Nat) (x : LPort) : (s.setLport p x).seen = s.seen := rfl
@[simp] theorem State.setLport_cleared (p : Nat) (x : LPort) : (s.setLport p x).cleared = s.cleared := rfl
@[simp] theorem State.setLport_events (p : Nat) (x : LPort) : (s.setLport p x).events = s.events := rfl
@[simp] theorem State.setLport_evSeq (p : Nat) (x : LPort) : (s.setLport p x).evSeq = s.evSeq := rfl
@[simp] theorem State.setLport_evLost (p : Nat) (x : LPort) : (s.setLport p x).evLost = s.evLost := rfl
@[simp] theorem State.setLport_beyonds (p : Nat) (x : LPort) : (s.setLport p x).beyonds = s.beyonds := rfl
@[simp] theorem State.setLport_slots (p : Nat) (x : LPort) : (s.setLport p x).slots = s.slots := rfl
@[simp] theorem State.setLport_govs (p : Nat) (x : LPort) : (s.setLport p x).govs = s.govs := rfl
@[simp] theorem State.setLport_domains (p : Nat) (x : LPort) : (s.setLport p x).domains = s.domains := rfl
@[simp] theorem State.setLport_modId (p : Nat) (x : LPort) : (s.setLport p x).modId = s.modId := rfl
@[simp] theorem State.setLport_timeQ (p : Nat) (x : LPort) : (s.setLport p x).timeQ = s.timeQ := rfl
@[simp] theorem State.setLport_mem (p : Nat) (x : LPort) : (s.setLport p x).mem = s.mem := rfl
@[simp] theorem State.setLport_dma (p : Nat) (x : LPort) : (s.setLport p x).dma = s.dma := rfl
@[simp] theorem State.setLport_chest (p : Nat) (x : LPort) : (s.setLport p x).chest = s.chest := rfl
@[simp] theorem State.setLport_journal (p : Nat) (x : LPort) : (s.setLport p x).journal = s.journal := rfl
@[simp] theorem State.setLport_mail (p : Nat) (x : LPort) : (s.setLport p x).mail = s.mail := rfl
@[simp] theorem State.setLport_boot (p : Nat) (x : LPort) : (s.setLport p x).boot = s.boot := rfl
@[simp] theorem State.setLport_rows (p : Nat) (x : LPort) : (s.setLport p x).rows = s.rows := rfl
@[simp] theorem State.setLport_host (p : Nat) (x : LPort) : (s.setLport p x).host = s.host := rfl
@[simp] theorem State.setLport_arbs (p : Nat) (x : LPort) : (s.setLport p x).arbs = s.arbs := rfl
@[simp] theorem State.setLport_arbInst (p : Nat) (x : LPort) : (s.setLport p x).arbInst = s.arbInst := rfl

@[simp] theorem State.modLport_pending (p : Nat) (f : LPort → LPort) : (s.modLport p f).pending = s.pending := rfl
@[simp] theorem State.modLport_free (p : Nat) (f : LPort → LPort) : (s.modLport p f).free = s.free := rfl
@[simp] theorem State.modLport_wire (p : Nat) (f : LPort → LPort) : (s.modLport p f).wire = s.wire := rfl
@[simp] theorem State.modLport_cores (p : Nat) (f : LPort → LPort) : (s.modLport p f).cores = s.cores := rfl
@[simp] theorem State.modLport_counters (p : Nat) (f : LPort → LPort) : (s.modLport p f).counters = s.counters := rfl
@[simp] theorem State.modLport_seen (p : Nat) (f : LPort → LPort) : (s.modLport p f).seen = s.seen := rfl
@[simp] theorem State.modLport_cleared (p : Nat) (f : LPort → LPort) : (s.modLport p f).cleared = s.cleared := rfl
@[simp] theorem State.modLport_events (p : Nat) (f : LPort → LPort) : (s.modLport p f).events = s.events := rfl
@[simp] theorem State.modLport_evSeq (p : Nat) (f : LPort → LPort) : (s.modLport p f).evSeq = s.evSeq := rfl
@[simp] theorem State.modLport_evLost (p : Nat) (f : LPort → LPort) : (s.modLport p f).evLost = s.evLost := rfl
@[simp] theorem State.modLport_beyonds (p : Nat) (f : LPort → LPort) : (s.modLport p f).beyonds = s.beyonds := rfl
@[simp] theorem State.modLport_slots (p : Nat) (f : LPort → LPort) : (s.modLport p f).slots = s.slots := rfl
@[simp] theorem State.modLport_govs (p : Nat) (f : LPort → LPort) : (s.modLport p f).govs = s.govs := rfl
@[simp] theorem State.modLport_domains (p : Nat) (f : LPort → LPort) : (s.modLport p f).domains = s.domains := rfl
@[simp] theorem State.modLport_modId (p : Nat) (f : LPort → LPort) : (s.modLport p f).modId = s.modId := rfl
@[simp] theorem State.modLport_timeQ (p : Nat) (f : LPort → LPort) : (s.modLport p f).timeQ = s.timeQ := rfl
@[simp] theorem State.modLport_mem (p : Nat) (f : LPort → LPort) : (s.modLport p f).mem = s.mem := rfl
@[simp] theorem State.modLport_dma (p : Nat) (f : LPort → LPort) : (s.modLport p f).dma = s.dma := rfl
@[simp] theorem State.modLport_chest (p : Nat) (f : LPort → LPort) : (s.modLport p f).chest = s.chest := rfl
@[simp] theorem State.modLport_journal (p : Nat) (f : LPort → LPort) : (s.modLport p f).journal = s.journal := rfl
@[simp] theorem State.modLport_mail (p : Nat) (f : LPort → LPort) : (s.modLport p f).mail = s.mail := rfl
@[simp] theorem State.modLport_boot (p : Nat) (f : LPort → LPort) : (s.modLport p f).boot = s.boot := rfl
@[simp] theorem State.modLport_rows (p : Nat) (f : LPort → LPort) : (s.modLport p f).rows = s.rows := rfl
@[simp] theorem State.modLport_host (p : Nat) (f : LPort → LPort) : (s.modLport p f).host = s.host := rfl
@[simp] theorem State.modLport_arbs (p : Nat) (f : LPort → LPort) : (s.modLport p f).arbs = s.arbs := rfl
@[simp] theorem State.modLport_arbInst (p : Nat) (f : LPort → LPort) : (s.modLport p f).arbInst = s.arbInst := rfl

@[simp] theorem State.setLpair_pending (i : Nat) (x : LPair) : (s.setLpair i x).pending = s.pending := rfl
@[simp] theorem State.setLpair_free (i : Nat) (x : LPair) : (s.setLpair i x).free = s.free := rfl
@[simp] theorem State.setLpair_wire (i : Nat) (x : LPair) : (s.setLpair i x).wire = s.wire := rfl
@[simp] theorem State.setLpair_cores (i : Nat) (x : LPair) : (s.setLpair i x).cores = s.cores := rfl
@[simp] theorem State.setLpair_counters (i : Nat) (x : LPair) : (s.setLpair i x).counters = s.counters := rfl
@[simp] theorem State.setLpair_seen (i : Nat) (x : LPair) : (s.setLpair i x).seen = s.seen := rfl
@[simp] theorem State.setLpair_cleared (i : Nat) (x : LPair) : (s.setLpair i x).cleared = s.cleared := rfl
@[simp] theorem State.setLpair_events (i : Nat) (x : LPair) : (s.setLpair i x).events = s.events := rfl
@[simp] theorem State.setLpair_evSeq (i : Nat) (x : LPair) : (s.setLpair i x).evSeq = s.evSeq := rfl
@[simp] theorem State.setLpair_evLost (i : Nat) (x : LPair) : (s.setLpair i x).evLost = s.evLost := rfl
@[simp] theorem State.setLpair_beyonds (i : Nat) (x : LPair) : (s.setLpair i x).beyonds = s.beyonds := rfl
@[simp] theorem State.setLpair_slots (i : Nat) (x : LPair) : (s.setLpair i x).slots = s.slots := rfl
@[simp] theorem State.setLpair_govs (i : Nat) (x : LPair) : (s.setLpair i x).govs = s.govs := rfl
@[simp] theorem State.setLpair_domains (i : Nat) (x : LPair) : (s.setLpair i x).domains = s.domains := rfl
@[simp] theorem State.setLpair_modId (i : Nat) (x : LPair) : (s.setLpair i x).modId = s.modId := rfl
@[simp] theorem State.setLpair_timeQ (i : Nat) (x : LPair) : (s.setLpair i x).timeQ = s.timeQ := rfl
@[simp] theorem State.setLpair_mem (i : Nat) (x : LPair) : (s.setLpair i x).mem = s.mem := rfl
@[simp] theorem State.setLpair_dma (i : Nat) (x : LPair) : (s.setLpair i x).dma = s.dma := rfl
@[simp] theorem State.setLpair_chest (i : Nat) (x : LPair) : (s.setLpair i x).chest = s.chest := rfl
@[simp] theorem State.setLpair_journal (i : Nat) (x : LPair) : (s.setLpair i x).journal = s.journal := rfl
@[simp] theorem State.setLpair_mail (i : Nat) (x : LPair) : (s.setLpair i x).mail = s.mail := rfl
@[simp] theorem State.setLpair_boot (i : Nat) (x : LPair) : (s.setLpair i x).boot = s.boot := rfl
@[simp] theorem State.setLpair_rows (i : Nat) (x : LPair) : (s.setLpair i x).rows = s.rows := rfl
@[simp] theorem State.setLpair_host (i : Nat) (x : LPair) : (s.setLpair i x).host = s.host := rfl
@[simp] theorem State.setLpair_arbs (i : Nat) (x : LPair) : (s.setLpair i x).arbs = s.arbs := rfl
@[simp] theorem State.setLpair_arbInst (i : Nat) (x : LPair) : (s.setLpair i x).arbInst = s.arbInst := rfl

@[simp] theorem State.modLpair_pending (i : Nat) (f : LPair → LPair) : (s.modLpair i f).pending = s.pending := rfl
@[simp] theorem State.modLpair_free (i : Nat) (f : LPair → LPair) : (s.modLpair i f).free = s.free := rfl
@[simp] theorem State.modLpair_wire (i : Nat) (f : LPair → LPair) : (s.modLpair i f).wire = s.wire := rfl
@[simp] theorem State.modLpair_cores (i : Nat) (f : LPair → LPair) : (s.modLpair i f).cores = s.cores := rfl
@[simp] theorem State.modLpair_counters (i : Nat) (f : LPair → LPair) : (s.modLpair i f).counters = s.counters := rfl
@[simp] theorem State.modLpair_seen (i : Nat) (f : LPair → LPair) : (s.modLpair i f).seen = s.seen := rfl
@[simp] theorem State.modLpair_cleared (i : Nat) (f : LPair → LPair) : (s.modLpair i f).cleared = s.cleared := rfl
@[simp] theorem State.modLpair_events (i : Nat) (f : LPair → LPair) : (s.modLpair i f).events = s.events := rfl
@[simp] theorem State.modLpair_evSeq (i : Nat) (f : LPair → LPair) : (s.modLpair i f).evSeq = s.evSeq := rfl
@[simp] theorem State.modLpair_evLost (i : Nat) (f : LPair → LPair) : (s.modLpair i f).evLost = s.evLost := rfl
@[simp] theorem State.modLpair_beyonds (i : Nat) (f : LPair → LPair) : (s.modLpair i f).beyonds = s.beyonds := rfl
@[simp] theorem State.modLpair_slots (i : Nat) (f : LPair → LPair) : (s.modLpair i f).slots = s.slots := rfl
@[simp] theorem State.modLpair_govs (i : Nat) (f : LPair → LPair) : (s.modLpair i f).govs = s.govs := rfl
@[simp] theorem State.modLpair_domains (i : Nat) (f : LPair → LPair) : (s.modLpair i f).domains = s.domains := rfl
@[simp] theorem State.modLpair_modId (i : Nat) (f : LPair → LPair) : (s.modLpair i f).modId = s.modId := rfl
@[simp] theorem State.modLpair_timeQ (i : Nat) (f : LPair → LPair) : (s.modLpair i f).timeQ = s.timeQ := rfl
@[simp] theorem State.modLpair_mem (i : Nat) (f : LPair → LPair) : (s.modLpair i f).mem = s.mem := rfl
@[simp] theorem State.modLpair_dma (i : Nat) (f : LPair → LPair) : (s.modLpair i f).dma = s.dma := rfl
@[simp] theorem State.modLpair_chest (i : Nat) (f : LPair → LPair) : (s.modLpair i f).chest = s.chest := rfl
@[simp] theorem State.modLpair_journal (i : Nat) (f : LPair → LPair) : (s.modLpair i f).journal = s.journal := rfl
@[simp] theorem State.modLpair_mail (i : Nat) (f : LPair → LPair) : (s.modLpair i f).mail = s.mail := rfl
@[simp] theorem State.modLpair_boot (i : Nat) (f : LPair → LPair) : (s.modLpair i f).boot = s.boot := rfl
@[simp] theorem State.modLpair_rows (i : Nat) (f : LPair → LPair) : (s.modLpair i f).rows = s.rows := rfl
@[simp] theorem State.modLpair_host (i : Nat) (f : LPair → LPair) : (s.modLpair i f).host = s.host := rfl
@[simp] theorem State.modLpair_arbs (i : Nat) (f : LPair → LPair) : (s.modLpair i f).arbs = s.arbs := rfl
@[simp] theorem State.modLpair_arbInst (i : Nat) (f : LPair → LPair) : (s.modLpair i f).arbInst = s.arbInst := rfl

@[simp] theorem State.setArb_pending (d i : Nat) (a : Arb) : (s.setArb d i a).pending = s.pending := rfl
@[simp] theorem State.setArb_free (d i : Nat) (a : Arb) : (s.setArb d i a).free = s.free := rfl
@[simp] theorem State.setArb_wire (d i : Nat) (a : Arb) : (s.setArb d i a).wire = s.wire := rfl
@[simp] theorem State.setArb_cores (d i : Nat) (a : Arb) : (s.setArb d i a).cores = s.cores := rfl
@[simp] theorem State.setArb_counters (d i : Nat) (a : Arb) : (s.setArb d i a).counters = s.counters := rfl
@[simp] theorem State.setArb_seen (d i : Nat) (a : Arb) : (s.setArb d i a).seen = s.seen := rfl
@[simp] theorem State.setArb_cleared (d i : Nat) (a : Arb) : (s.setArb d i a).cleared = s.cleared := rfl
@[simp] theorem State.setArb_events (d i : Nat) (a : Arb) : (s.setArb d i a).events = s.events := rfl
@[simp] theorem State.setArb_evSeq (d i : Nat) (a : Arb) : (s.setArb d i a).evSeq = s.evSeq := rfl
@[simp] theorem State.setArb_evLost (d i : Nat) (a : Arb) : (s.setArb d i a).evLost = s.evLost := rfl
@[simp] theorem State.setArb_beyonds (d i : Nat) (a : Arb) : (s.setArb d i a).beyonds = s.beyonds := rfl
@[simp] theorem State.setArb_slots (d i : Nat) (a : Arb) : (s.setArb d i a).slots = s.slots := rfl
@[simp] theorem State.setArb_govs (d i : Nat) (a : Arb) : (s.setArb d i a).govs = s.govs := rfl
@[simp] theorem State.setArb_domains (d i : Nat) (a : Arb) : (s.setArb d i a).domains = s.domains := rfl
@[simp] theorem State.setArb_modId (d i : Nat) (a : Arb) : (s.setArb d i a).modId = s.modId := rfl
@[simp] theorem State.setArb_timeQ (d i : Nat) (a : Arb) : (s.setArb d i a).timeQ = s.timeQ := rfl
@[simp] theorem State.setArb_mem (d i : Nat) (a : Arb) : (s.setArb d i a).mem = s.mem := rfl
@[simp] theorem State.setArb_dma (d i : Nat) (a : Arb) : (s.setArb d i a).dma = s.dma := rfl
@[simp] theorem State.setArb_chest (d i : Nat) (a : Arb) : (s.setArb d i a).chest = s.chest := rfl
@[simp] theorem State.setArb_journal (d i : Nat) (a : Arb) : (s.setArb d i a).journal = s.journal := rfl
@[simp] theorem State.setArb_mail (d i : Nat) (a : Arb) : (s.setArb d i a).mail = s.mail := rfl
@[simp] theorem State.setArb_boot (d i : Nat) (a : Arb) : (s.setArb d i a).boot = s.boot := rfl
@[simp] theorem State.setArb_rows (d i : Nat) (a : Arb) : (s.setArb d i a).rows = s.rows := rfl
@[simp] theorem State.setArb_host (d i : Nat) (a : Arb) : (s.setArb d i a).host = s.host := rfl
@[simp] theorem State.setArb_links (d i : Nat) (a : Arb) : (s.setArb d i a).links = s.links := rfl
@[simp] theorem State.setArb_arbInst (d i : Nat) (a : Arb) : (s.setArb d i a).arbInst = s.arbInst := rfl

@[simp] theorem State.modBoot_pending (f : Boot → Boot) : (s.modBoot f).pending = s.pending := rfl
@[simp] theorem State.modBoot_free (f : Boot → Boot) : (s.modBoot f).free = s.free := rfl
@[simp] theorem State.modBoot_wire (f : Boot → Boot) : (s.modBoot f).wire = s.wire := rfl
@[simp] theorem State.modBoot_cores (f : Boot → Boot) : (s.modBoot f).cores = s.cores := rfl
@[simp] theorem State.modBoot_counters (f : Boot → Boot) : (s.modBoot f).counters = s.counters := rfl
@[simp] theorem State.modBoot_seen (f : Boot → Boot) : (s.modBoot f).seen = s.seen := rfl
@[simp] theorem State.modBoot_cleared (f : Boot → Boot) : (s.modBoot f).cleared = s.cleared := rfl
@[simp] theorem State.modBoot_events (f : Boot → Boot) : (s.modBoot f).events = s.events := rfl
@[simp] theorem State.modBoot_evSeq (f : Boot → Boot) : (s.modBoot f).evSeq = s.evSeq := rfl
@[simp] theorem State.modBoot_evLost (f : Boot → Boot) : (s.modBoot f).evLost = s.evLost := rfl
@[simp] theorem State.modBoot_beyonds (f : Boot → Boot) : (s.modBoot f).beyonds = s.beyonds := rfl
@[simp] theorem State.modBoot_slots (f : Boot → Boot) : (s.modBoot f).slots = s.slots := rfl
@[simp] theorem State.modBoot_govs (f : Boot → Boot) : (s.modBoot f).govs = s.govs := rfl
@[simp] theorem State.modBoot_domains (f : Boot → Boot) : (s.modBoot f).domains = s.domains := rfl
@[simp] theorem State.modBoot_modId (f : Boot → Boot) : (s.modBoot f).modId = s.modId := rfl
@[simp] theorem State.modBoot_timeQ (f : Boot → Boot) : (s.modBoot f).timeQ = s.timeQ := rfl
@[simp] theorem State.modBoot_mem (f : Boot → Boot) : (s.modBoot f).mem = s.mem := rfl
@[simp] theorem State.modBoot_dma (f : Boot → Boot) : (s.modBoot f).dma = s.dma := rfl
@[simp] theorem State.modBoot_chest (f : Boot → Boot) : (s.modBoot f).chest = s.chest := rfl
@[simp] theorem State.modBoot_journal (f : Boot → Boot) : (s.modBoot f).journal = s.journal := rfl
@[simp] theorem State.modBoot_mail (f : Boot → Boot) : (s.modBoot f).mail = s.mail := rfl
@[simp] theorem State.modBoot_rows (f : Boot → Boot) : (s.modBoot f).rows = s.rows := rfl
@[simp] theorem State.modBoot_host (f : Boot → Boot) : (s.modBoot f).host = s.host := rfl
@[simp] theorem State.modBoot_links (f : Boot → Boot) : (s.modBoot f).links = s.links := rfl
@[simp] theorem State.modBoot_arbs (f : Boot → Boot) : (s.modBoot f).arbs = s.arbs := rfl
@[simp] theorem State.modBoot_arbInst (f : Boot → Boot) : (s.modBoot f).arbInst = s.arbInst := rfl

@[simp] theorem State.modHost_pending (f : HostRegs → HostRegs) : (s.modHost f).pending = s.pending := rfl
@[simp] theorem State.modHost_free (f : HostRegs → HostRegs) : (s.modHost f).free = s.free := rfl
@[simp] theorem State.modHost_wire (f : HostRegs → HostRegs) : (s.modHost f).wire = s.wire := rfl
@[simp] theorem State.modHost_cores (f : HostRegs → HostRegs) : (s.modHost f).cores = s.cores := rfl
@[simp] theorem State.modHost_counters (f : HostRegs → HostRegs) : (s.modHost f).counters = s.counters := rfl
@[simp] theorem State.modHost_seen (f : HostRegs → HostRegs) : (s.modHost f).seen = s.seen := rfl
@[simp] theorem State.modHost_cleared (f : HostRegs → HostRegs) : (s.modHost f).cleared = s.cleared := rfl
@[simp] theorem State.modHost_events (f : HostRegs → HostRegs) : (s.modHost f).events = s.events := rfl
@[simp] theorem State.modHost_evSeq (f : HostRegs → HostRegs) : (s.modHost f).evSeq = s.evSeq := rfl
@[simp] theorem State.modHost_evLost (f : HostRegs → HostRegs) : (s.modHost f).evLost = s.evLost := rfl
@[simp] theorem State.modHost_beyonds (f : HostRegs → HostRegs) : (s.modHost f).beyonds = s.beyonds := rfl
@[simp] theorem State.modHost_slots (f : HostRegs → HostRegs) : (s.modHost f).slots = s.slots := rfl
@[simp] theorem State.modHost_govs (f : HostRegs → HostRegs) : (s.modHost f).govs = s.govs := rfl
@[simp] theorem State.modHost_domains (f : HostRegs → HostRegs) : (s.modHost f).domains = s.domains := rfl
@[simp] theorem State.modHost_modId (f : HostRegs → HostRegs) : (s.modHost f).modId = s.modId := rfl
@[simp] theorem State.modHost_timeQ (f : HostRegs → HostRegs) : (s.modHost f).timeQ = s.timeQ := rfl
@[simp] theorem State.modHost_mem (f : HostRegs → HostRegs) : (s.modHost f).mem = s.mem := rfl
@[simp] theorem State.modHost_dma (f : HostRegs → HostRegs) : (s.modHost f).dma = s.dma := rfl
@[simp] theorem State.modHost_chest (f : HostRegs → HostRegs) : (s.modHost f).chest = s.chest := rfl
@[simp] theorem State.modHost_journal (f : HostRegs → HostRegs) : (s.modHost f).journal = s.journal := rfl
@[simp] theorem State.modHost_mail (f : HostRegs → HostRegs) : (s.modHost f).mail = s.mail := rfl
@[simp] theorem State.modHost_boot (f : HostRegs → HostRegs) : (s.modHost f).boot = s.boot := rfl
@[simp] theorem State.modHost_rows (f : HostRegs → HostRegs) : (s.modHost f).rows = s.rows := rfl
@[simp] theorem State.modHost_links (f : HostRegs → HostRegs) : (s.modHost f).links = s.links := rfl
@[simp] theorem State.modHost_arbs (f : HostRegs → HostRegs) : (s.modHost f).arbs = s.arbs := rfl
@[simp] theorem State.modHost_arbInst (f : HostRegs → HostRegs) : (s.modHost f).arbInst = s.arbInst := rfl

@[simp] theorem State.count_pending (k : CKey) (n : Nat) : (s.count k n).pending = s.pending := rfl
@[simp] theorem State.count_free (k : CKey) (n : Nat) : (s.count k n).free = s.free := rfl
@[simp] theorem State.count_wire (k : CKey) (n : Nat) : (s.count k n).wire = s.wire := rfl
@[simp] theorem State.count_cores (k : CKey) (n : Nat) : (s.count k n).cores = s.cores := rfl
@[simp] theorem State.count_seen (k : CKey) (n : Nat) : (s.count k n).seen = s.seen := rfl
@[simp] theorem State.count_cleared (k : CKey) (n : Nat) : (s.count k n).cleared = s.cleared := rfl
@[simp] theorem State.count_events (k : CKey) (n : Nat) : (s.count k n).events = s.events := rfl
@[simp] theorem State.count_evSeq (k : CKey) (n : Nat) : (s.count k n).evSeq = s.evSeq := rfl
@[simp] theorem State.count_evLost (k : CKey) (n : Nat) : (s.count k n).evLost = s.evLost := rfl
@[simp] theorem State.count_beyonds (k : CKey) (n : Nat) : (s.count k n).beyonds = s.beyonds := rfl
@[simp] theorem State.count_slots (k : CKey) (n : Nat) : (s.count k n).slots = s.slots := rfl
@[simp] theorem State.count_govs (k : CKey) (n : Nat) : (s.count k n).govs = s.govs := rfl
@[simp] theorem State.count_domains (k : CKey) (n : Nat) : (s.count k n).domains = s.domains := rfl
@[simp] theorem State.count_modId (k : CKey) (n : Nat) : (s.count k n).modId = s.modId := rfl
@[simp] theorem State.count_timeQ (k : CKey) (n : Nat) : (s.count k n).timeQ = s.timeQ := rfl
@[simp] theorem State.count_mem (k : CKey) (n : Nat) : (s.count k n).mem = s.mem := rfl
@[simp] theorem State.count_dma (k : CKey) (n : Nat) : (s.count k n).dma = s.dma := rfl
@[simp] theorem State.count_chest (k : CKey) (n : Nat) : (s.count k n).chest = s.chest := rfl
@[simp] theorem State.count_journal (k : CKey) (n : Nat) : (s.count k n).journal = s.journal := rfl
@[simp] theorem State.count_mail (k : CKey) (n : Nat) : (s.count k n).mail = s.mail := rfl
@[simp] theorem State.count_boot (k : CKey) (n : Nat) : (s.count k n).boot = s.boot := rfl
@[simp] theorem State.count_rows (k : CKey) (n : Nat) : (s.count k n).rows = s.rows := rfl
@[simp] theorem State.count_host (k : CKey) (n : Nat) : (s.count k n).host = s.host := rfl
@[simp] theorem State.count_links (k : CKey) (n : Nat) : (s.count k n).links = s.links := rfl
@[simp] theorem State.count_arbs (k : CKey) (n : Nat) : (s.count k n).arbs = s.arbs := rfl
@[simp] theorem State.count_arbInst (k : CKey) (n : Nat) : (s.count k n).arbInst = s.arbInst := rfl

@[simp] theorem State.peak_pending (k : CKey) (n : Nat) : (s.peak k n).pending = s.pending := rfl
@[simp] theorem State.peak_free (k : CKey) (n : Nat) : (s.peak k n).free = s.free := rfl
@[simp] theorem State.peak_wire (k : CKey) (n : Nat) : (s.peak k n).wire = s.wire := rfl
@[simp] theorem State.peak_cores (k : CKey) (n : Nat) : (s.peak k n).cores = s.cores := rfl
@[simp] theorem State.peak_seen (k : CKey) (n : Nat) : (s.peak k n).seen = s.seen := rfl
@[simp] theorem State.peak_cleared (k : CKey) (n : Nat) : (s.peak k n).cleared = s.cleared := rfl
@[simp] theorem State.peak_events (k : CKey) (n : Nat) : (s.peak k n).events = s.events := rfl
@[simp] theorem State.peak_evSeq (k : CKey) (n : Nat) : (s.peak k n).evSeq = s.evSeq := rfl
@[simp] theorem State.peak_evLost (k : CKey) (n : Nat) : (s.peak k n).evLost = s.evLost := rfl
@[simp] theorem State.peak_beyonds (k : CKey) (n : Nat) : (s.peak k n).beyonds = s.beyonds := rfl
@[simp] theorem State.peak_slots (k : CKey) (n : Nat) : (s.peak k n).slots = s.slots := rfl
@[simp] theorem State.peak_govs (k : CKey) (n : Nat) : (s.peak k n).govs = s.govs := rfl
@[simp] theorem State.peak_domains (k : CKey) (n : Nat) : (s.peak k n).domains = s.domains := rfl
@[simp] theorem State.peak_modId (k : CKey) (n : Nat) : (s.peak k n).modId = s.modId := rfl
@[simp] theorem State.peak_timeQ (k : CKey) (n : Nat) : (s.peak k n).timeQ = s.timeQ := rfl
@[simp] theorem State.peak_mem (k : CKey) (n : Nat) : (s.peak k n).mem = s.mem := rfl
@[simp] theorem State.peak_dma (k : CKey) (n : Nat) : (s.peak k n).dma = s.dma := rfl
@[simp] theorem State.peak_chest (k : CKey) (n : Nat) : (s.peak k n).chest = s.chest := rfl
@[simp] theorem State.peak_journal (k : CKey) (n : Nat) : (s.peak k n).journal = s.journal := rfl
@[simp] theorem State.peak_mail (k : CKey) (n : Nat) : (s.peak k n).mail = s.mail := rfl
@[simp] theorem State.peak_boot (k : CKey) (n : Nat) : (s.peak k n).boot = s.boot := rfl
@[simp] theorem State.peak_rows (k : CKey) (n : Nat) : (s.peak k n).rows = s.rows := rfl
@[simp] theorem State.peak_host (k : CKey) (n : Nat) : (s.peak k n).host = s.host := rfl
@[simp] theorem State.peak_links (k : CKey) (n : Nat) : (s.peak k n).links = s.links := rfl
@[simp] theorem State.peak_arbs (k : CKey) (n : Nat) : (s.peak k n).arbs = s.arbs := rfl
@[simp] theorem State.peak_arbInst (k : CKey) (n : Nat) : (s.peak k n).arbInst = s.arbInst := rfl

@[simp] theorem State.inject_pending (m : Msg) : (s.inject m).pending = s.pending := rfl
@[simp] theorem State.inject_free (m : Msg) : (s.inject m).free = s.free := rfl
@[simp] theorem State.inject_cores (m : Msg) : (s.inject m).cores = s.cores := rfl
@[simp] theorem State.inject_counters (m : Msg) : (s.inject m).counters = s.counters := rfl
@[simp] theorem State.inject_seen (m : Msg) : (s.inject m).seen = s.seen := rfl
@[simp] theorem State.inject_cleared (m : Msg) : (s.inject m).cleared = s.cleared := rfl
@[simp] theorem State.inject_events (m : Msg) : (s.inject m).events = s.events := rfl
@[simp] theorem State.inject_evSeq (m : Msg) : (s.inject m).evSeq = s.evSeq := rfl
@[simp] theorem State.inject_evLost (m : Msg) : (s.inject m).evLost = s.evLost := rfl
@[simp] theorem State.inject_beyonds (m : Msg) : (s.inject m).beyonds = s.beyonds := rfl
@[simp] theorem State.inject_slots (m : Msg) : (s.inject m).slots = s.slots := rfl
@[simp] theorem State.inject_govs (m : Msg) : (s.inject m).govs = s.govs := rfl
@[simp] theorem State.inject_domains (m : Msg) : (s.inject m).domains = s.domains := rfl
@[simp] theorem State.inject_modId (m : Msg) : (s.inject m).modId = s.modId := rfl
@[simp] theorem State.inject_timeQ (m : Msg) : (s.inject m).timeQ = s.timeQ := rfl
@[simp] theorem State.inject_mem (m : Msg) : (s.inject m).mem = s.mem := rfl
@[simp] theorem State.inject_dma (m : Msg) : (s.inject m).dma = s.dma := rfl
@[simp] theorem State.inject_chest (m : Msg) : (s.inject m).chest = s.chest := rfl
@[simp] theorem State.inject_journal (m : Msg) : (s.inject m).journal = s.journal := rfl
@[simp] theorem State.inject_mail (m : Msg) : (s.inject m).mail = s.mail := rfl
@[simp] theorem State.inject_boot (m : Msg) : (s.inject m).boot = s.boot := rfl
@[simp] theorem State.inject_rows (m : Msg) : (s.inject m).rows = s.rows := rfl
@[simp] theorem State.inject_host (m : Msg) : (s.inject m).host = s.host := rfl
@[simp] theorem State.inject_links (m : Msg) : (s.inject m).links = s.links := rfl
@[simp] theorem State.inject_arbs (m : Msg) : (s.inject m).arbs = s.arbs := rfl
@[simp] theorem State.inject_arbInst (m : Msg) : (s.inject m).arbInst = s.arbInst := rfl

@[simp] theorem State.arrived_pending (m : Msg) : (s.arrived m).pending = s.pending := rfl
@[simp] theorem State.arrived_free (m : Msg) : (s.arrived m).free = s.free := rfl
@[simp] theorem State.arrived_cores (m : Msg) : (s.arrived m).cores = s.cores := rfl
@[simp] theorem State.arrived_counters (m : Msg) : (s.arrived m).counters = s.counters := rfl
@[simp] theorem State.arrived_seen (m : Msg) : (s.arrived m).seen = s.seen := rfl
@[simp] theorem State.arrived_cleared (m : Msg) : (s.arrived m).cleared = s.cleared := rfl
@[simp] theorem State.arrived_events (m : Msg) : (s.arrived m).events = s.events := rfl
@[simp] theorem State.arrived_evSeq (m : Msg) : (s.arrived m).evSeq = s.evSeq := rfl
@[simp] theorem State.arrived_evLost (m : Msg) : (s.arrived m).evLost = s.evLost := rfl
@[simp] theorem State.arrived_beyonds (m : Msg) : (s.arrived m).beyonds = s.beyonds := rfl
@[simp] theorem State.arrived_slots (m : Msg) : (s.arrived m).slots = s.slots := rfl
@[simp] theorem State.arrived_govs (m : Msg) : (s.arrived m).govs = s.govs := rfl
@[simp] theorem State.arrived_domains (m : Msg) : (s.arrived m).domains = s.domains := rfl
@[simp] theorem State.arrived_modId (m : Msg) : (s.arrived m).modId = s.modId := rfl
@[simp] theorem State.arrived_timeQ (m : Msg) : (s.arrived m).timeQ = s.timeQ := rfl
@[simp] theorem State.arrived_mem (m : Msg) : (s.arrived m).mem = s.mem := rfl
@[simp] theorem State.arrived_dma (m : Msg) : (s.arrived m).dma = s.dma := rfl
@[simp] theorem State.arrived_chest (m : Msg) : (s.arrived m).chest = s.chest := rfl
@[simp] theorem State.arrived_journal (m : Msg) : (s.arrived m).journal = s.journal := rfl
@[simp] theorem State.arrived_mail (m : Msg) : (s.arrived m).mail = s.mail := rfl
@[simp] theorem State.arrived_boot (m : Msg) : (s.arrived m).boot = s.boot := rfl
@[simp] theorem State.arrived_rows (m : Msg) : (s.arrived m).rows = s.rows := rfl
@[simp] theorem State.arrived_host (m : Msg) : (s.arrived m).host = s.host := rfl
@[simp] theorem State.arrived_links (m : Msg) : (s.arrived m).links = s.links := rfl
@[simp] theorem State.arrived_arbs (m : Msg) : (s.arrived m).arbs = s.arbs := rfl
@[simp] theorem State.arrived_arbInst (m : Msg) : (s.arrived m).arbInst = s.arbInst := rfl

@[simp] theorem State.answer_pending (k : RespKind) (bs : List Byte) : (s.answer k bs).pending = s.pending := rfl
@[simp] theorem State.answer_free (k : RespKind) (bs : List Byte) : (s.answer k bs).free = s.free := rfl
@[simp] theorem State.answer_wire (k : RespKind) (bs : List Byte) : (s.answer k bs).wire = s.wire := rfl
@[simp] theorem State.answer_cores (k : RespKind) (bs : List Byte) : (s.answer k bs).cores = s.cores := rfl
@[simp] theorem State.answer_counters (k : RespKind) (bs : List Byte) : (s.answer k bs).counters = s.counters := rfl
@[simp] theorem State.answer_seen (k : RespKind) (bs : List Byte) : (s.answer k bs).seen = s.seen := rfl
@[simp] theorem State.answer_cleared (k : RespKind) (bs : List Byte) : (s.answer k bs).cleared = s.cleared := rfl
@[simp] theorem State.answer_events (k : RespKind) (bs : List Byte) : (s.answer k bs).events = s.events := rfl
@[simp] theorem State.answer_evSeq (k : RespKind) (bs : List Byte) : (s.answer k bs).evSeq = s.evSeq := rfl
@[simp] theorem State.answer_evLost (k : RespKind) (bs : List Byte) : (s.answer k bs).evLost = s.evLost := rfl
@[simp] theorem State.answer_beyonds (k : RespKind) (bs : List Byte) : (s.answer k bs).beyonds = s.beyonds := rfl
@[simp] theorem State.answer_slots (k : RespKind) (bs : List Byte) : (s.answer k bs).slots = s.slots := rfl
@[simp] theorem State.answer_govs (k : RespKind) (bs : List Byte) : (s.answer k bs).govs = s.govs := rfl
@[simp] theorem State.answer_domains (k : RespKind) (bs : List Byte) : (s.answer k bs).domains = s.domains := rfl
@[simp] theorem State.answer_modId (k : RespKind) (bs : List Byte) : (s.answer k bs).modId = s.modId := rfl
@[simp] theorem State.answer_timeQ (k : RespKind) (bs : List Byte) : (s.answer k bs).timeQ = s.timeQ := rfl
@[simp] theorem State.answer_mem (k : RespKind) (bs : List Byte) : (s.answer k bs).mem = s.mem := rfl
@[simp] theorem State.answer_dma (k : RespKind) (bs : List Byte) : (s.answer k bs).dma = s.dma := rfl
@[simp] theorem State.answer_chest (k : RespKind) (bs : List Byte) : (s.answer k bs).chest = s.chest := rfl
@[simp] theorem State.answer_journal (k : RespKind) (bs : List Byte) : (s.answer k bs).journal = s.journal := rfl
@[simp] theorem State.answer_mail (k : RespKind) (bs : List Byte) : (s.answer k bs).mail = s.mail := rfl
@[simp] theorem State.answer_boot (k : RespKind) (bs : List Byte) : (s.answer k bs).boot = s.boot := rfl
@[simp] theorem State.answer_rows (k : RespKind) (bs : List Byte) : (s.answer k bs).rows = s.rows := rfl
@[simp] theorem State.answer_links (k : RespKind) (bs : List Byte) : (s.answer k bs).links = s.links := rfl
@[simp] theorem State.answer_arbs (k : RespKind) (bs : List Byte) : (s.answer k bs).arbs = s.arbs := rfl
@[simp] theorem State.answer_arbInst (k : RespKind) (bs : List Byte) : (s.answer k bs).arbInst = s.arbInst := rfl

/-- A core just written. -/
@[simp] theorem State.core_setCore (no : Nat) (c : Core) : (s.setCore no c).core no = c := SMap.get_set_same ..
/-- Another core than the one written. -/
theorem State.core_setCore_other {no j : Nat} (c : Core) (h : j ≠ no) : (s.setCore no c).core j = s.core j := SMap.get_set_other h
/-- The context just written. -/
@[simp] theorem Core.ctx_setCtx (c : Core) (g : Bool) (t : Ctx) : (c.setCtx g t).ctx g = t := by cases g <;> rfl
/-- The other context than the one written. -/
@[simp] theorem Core.ctx_setCtx_not (c : Core) (g : Bool) (t : Ctx) : (c.setCtx g t).ctx (!g) = c.ctx (!g) := by cases g <;> rfl
/-- A site's context just written. -/
@[simp] theorem State.ctx_setCtx (p : Site) (t : Ctx) : (s.setCtx p t).ctx p = t := by simp [State.ctx, State.setCtx]
/-- A governor just written. -/
@[simp] theorem State.gov_setGov (d : Nat) (g : Gov) : (s.setGov d g).gov d = g := SMap.get_set_same ..
/-- Another governor than the one written. -/
theorem State.gov_setGov_other {d j : Nat} (g : Gov) (h : j ≠ d) : (s.setGov d g).gov j = s.gov j := SMap.get_set_other h
/-- A job slot just written. -/
@[simp] theorem State.slot_setSlot (k : Nat) (v : Slot) : (s.setSlot k v).slot k = v := SMap.get_set_same ..
/-- Another job slot than the one written. -/
theorem State.slot_setSlot_other {k j : Nat} (v : Slot) (h : j ≠ k) : (s.setSlot k v).slot j = s.slot j := SMap.get_set_other h
/-- A ring just written. -/
@[simp] theorem State.ring_setRing (r : Nat) (x : Ring) : (s.setRing r x).ring r = x := SMap.get_set_same ..
/-- Another ring than the one written. -/
theorem State.ring_setRing_other {r j : Nat} (x : Ring) (h : j ≠ r) : (s.setRing r x).ring j = s.ring j := SMap.get_set_other h
/-- A DMA channel just written. -/
@[simp] theorem State.chan_setChan (i : Nat) (c : DmaChan) : (s.setChan i c).chan i = c := SMap.get_set_same ..
/-- Another DMA channel than the one written. -/
theorem State.chan_setChan_other {i j : Nat} (c : DmaChan) (h : j ≠ i) : (s.setChan i c).chan j = s.chan j := SMap.get_set_other h
/-- A power domain just written. -/
@[simp] theorem State.domain_setDomain (k : Nat) (d : Domain) : (s.setDomain k d).domain k = d := SMap.get_set_same ..
/-- Another power domain than the one written. -/
theorem State.domain_setDomain_other {k j : Nat} (d : Domain) (h : j ≠ k) : (s.setDomain k d).domain j = s.domain j := SMap.get_set_other h
/-- A link port just written. -/
@[simp] theorem State.lport_setLport (p : Nat) (x : LPort) : (s.setLport p x).lport p = x := SMap.get_set_same ..
/-- Another link port than the one written. -/
theorem State.lport_setLport_other {p j : Nat} (x : LPort) (h : j ≠ p) : (s.setLport p x).lport j = s.lport j := SMap.get_set_other h
/-- A pair just written. -/
@[simp] theorem State.lpair_setLpair (i : Nat) (x : LPair) : (s.setLpair i x).lpair i = x := SMap.get_set_same ..
/-- Another pair than the one written. -/
theorem State.lpair_setLpair_other {i j : Nat} (x : LPair) (h : j ≠ i) : (s.setLpair i x).lpair j = s.lpair j := SMap.get_set_other h

/-- S0 reads as 0 whatever is written (R171). -/
@[simp] theorem Ctx.sreg_zero (t : Ctx) : t.sreg 0#4 = 0#32 := rfl
/-- A scalar register just written (R171). -/
theorem Ctx.sreg_setSreg (t : Ctx) (i : BitVec 4) (v : Word) (h : i ≠ 0#4) : (t.setSreg i v).sreg i = v := by
  simp [Ctx.sreg, Ctx.setSreg, h]
/-- Another scalar register than the one written (R171). -/
theorem Ctx.sreg_setSreg_other (t : Ctx) {i j : BitVec 4} (v : Word) (h : j ≠ i) : (t.setSreg i v).sreg j = t.sreg j := by
  unfold Ctx.sreg Ctx.setSreg
  by_cases hj : j = 0#4
  · simp [hj]
  · by_cases hi : i = 0#4
    · simp [hi]
    · have : j.toNat ≠ i.toNat := fun e => h (BitVec.eq_of_toNat_eq e)
      simp [hj, hi, SMap.get_set_other this]
/-- A token just written (R171). -/
@[simp] theorem Ctx.token_setToken (t : Ctx) (i v : Nat) : (t.setToken i v).token i = v := SMap.get_set_same ..

/-- The value of a counter after a count (R53): it rises by `n` and saturates. -/
theorem ctrGet_ctrSet (cs : List (CKey × Nat)) (k : CKey) (v : Nat) (j : CKey) :
    ctrGet (ctrSet cs k v) j = if j = k then v else ctrGet cs j := by
  induction cs with
  | nil =>
    by_cases h : j = k
    · subst h; simp [ctrGet, ctrSet]
    · have : (j == k) = false := by simp [h]
      simp [ctrGet, ctrSet, List.lookup, this, h]
  | cons e t ih =>
    obtain ⟨k', v'⟩ := e
    unfold ctrSet
    by_cases hk : k' = k
    · subst hk
      by_cases h : j = k'
      · subst h; simp [ctrGet]
      · have : (j == k') = false := by simp [h]
        simp [ctrGet, List.lookup, this, h]
    · rw [if_neg hk]
      by_cases h : j = k'
      · subst h
        have : ¬ j = k := hk
        simp [ctrGet, this]
      · have : (j == k') = false := by simp [h]
        simpa [ctrGet, List.lookup, this] using ih

/-- A count (R53): the counter rises by `n`, at most to 2^32 - 1. -/
theorem ctrGet_count (k : CKey) (n : Nat) (h : ctrGet s.counters k ≤ 2 ^ 32 - 1) :
    ctrGet (s.count k n).counters k = min (ctrGet s.counters k + n) (2 ^ 32 - 1) := by
  unfold State.count ctrAdd
  by_cases hn : n = 0
  · rw [if_pos hn, hn, Nat.add_zero]; exact (Nat.min_eq_left h).symm
  · simp [hn, ctrGet_ctrSet]
/-- A count of one key leaves every other counter. -/
theorem ctrGet_count_other {k j : CKey} (n : Nat) (h : j ≠ k) : ctrGet (s.count k n).counters j = ctrGet s.counters j := by
  unfold State.count ctrAdd
  by_cases hn : n = 0 <;> simp [hn, ctrGet_ctrSet, h]

end Sys2Proof.Machine
end

