-- ==== Sys2Proof/Laws/Frame.lean ====
section
/-! SUPPORT. The start-up registers that `Boot.legal` speaks of the row maps and the queue, as one value (`State.startUp`), and the lemmas with which
the files FrameCore to FrameHost say, operation by operation and command by command, that this value is left alone. -/

namespace Sys2Proof.Machine

/-- The start-up registers that `Boot.legal` speaks of. -/
def Boot.legalKey (b : Boot) : Nat × Nat × Nat × Nat × Nat × Bool × Bool × Bool := (b.stage, b.result, b.cause, b.image, b.lastRst, b.linkEnded, b.pcieUp, b.perst)
/-- The start-up registers that `Boot.legal` speaks of, the row maps and the queue of a state. -/
def State.startUp (s : State) : (Nat × Nat × Nat × Nat × Nat × Bool × Bool × Bool) × SMap RowMap × List Instr := (s.boot.legalKey, s.rows, s.pending)
@[simp] theorem Boot.legalKey_mk {b1 b2 b3 b4 b5 b6 b7 b8 b9 b10 b11 b12 b13 b14 b15 b16 b17 b18 b19 b20 b21 b22 b23 b24 b25 b26 b27 b28 b29 b30 b31 b32 b33 b34 b35 b36 b37 b38 b39 b40 b41 b42 b43 b44 b45 b46} : (Boot.mk b1 b2 b3 b4 b5 b6 b7 b8 b9 b10 b11 b12 b13 b14 b15 b16 b17 b18 b19 b20 b21 b22 b23 b24 b25 b26 b27 b28 b29 b30 b31 b32 b33 b34 b35 b36 b37 b38 b39 b40 b41 b42 b43 b44 b45 b46).legalKey = (b3, b4, b5, b6, b7, b9, b17, b16) := (rfl)
@[simp] theorem State.startUp_mk {a1 a2 a3 a4 a5 a6 a7 a8 a9 a10 a11 a12 a13 a14 a15 a16 a17 a18 a19 a20 a21 a22 a23 a24 a25 a26 a27} :
    State.startUp (State.mk a1 a2 a3 a4 a5 a6 a7 a8 a9 a10 a11 a12 a13 a14 a15 a16 a17 a18 a19 a20 a21 a22 a23 a24 a25 a26 a27) = (a22.legalKey, a23, a1) := (rfl)
@[simp] theorem State.startUp_eta (s : State) : (s.boot.legalKey, s.rows, s.pending) = s.startUp := (rfl)
@[simp] theorem Boot.legalKey_eta (b : Boot) : (b.stage, b.result, b.cause, b.image, b.lastRst, b.linkEnded, b.pcieUp, b.perst) = b.legalKey := (rfl)
@[simp] theorem State.startUp_ite (c : Prop) [Decidable c] (a b : State) : (if c then a else b).startUp = if c then a.startUp else b.startUp := apply_ite ..
@[simp] theorem foldl_startUp {β : Type} (f : State → β → State) (l : List β) (s : State) (h : ∀ x b, (f x b).startUp = x.startUp) : (l.foldl f s).startUp = s.startUp := by
  induction l generalizing s with
  | nil => rfl
  | cons b t ih => rw [List.foldl_cons, ih, h]
theorem foldl_pair_startUp {β γ : Type} (f : State × β → γ → State × β) (l : List γ) (r : State × β) (h : ∀ x c, (f x c).1.startUp = x.1.startUp) :
    (l.foldl f r).1.startUp = r.1.startUp := by
  induction l generalizing r with
  | nil => rfl
  | cons b t ih => rw [List.foldl_cons, ih, h]
theorem next_startUp {a t : State} {k} (h : (Host.Outcome.next a : Host.Outcome State Fault Refusal) = .next t) (ha : a.startUp = k) : t.startUp = k := by cases h; exact ha
theorem ite_next_startUp {c : Prop} [Decidable c] {a b : Host.Outcome State Fault Refusal} {t : State} {k} (h : (if c then a else b) = .next t)
    (ha : a = .next t → t.startUp = k) (hb : b = .next t → t.startUp = k) : t.startUp = k := by
  split at h
  · exact ha h
  · exact hb h
theorem pair_eq {α : Type} {r : State × α} {a : State} {b : α} : (r = (a, b)) = (a = r.1 ∧ r.2 = b) := by
  obtain ⟨c, d⟩ := r
  simp [eq_comm]
theorem fst_startUp {α : Type} {r : State × α} {s' : State} {x : α} (h : r = (s', x)) : s'.startUp = r.1.startUp := by rw [h]
end Sys2Proof.Machine
end

