-- ==== Sys2Proof/Laws/FrameCore.lean ====
section
/-! SUPPORT. What leaves the start-up registers, the row maps and the queue alone: the registers, ops in flight, memory service, arbiters, journal, power domains and schedule. -/

namespace Sys2Proof.Machine

@[simp] theorem State.count_startUp (s : State) (k : CKey) (n : Nat) : (State.count s k n).startUp = s.startUp := by unfold State.count; simp
@[simp] theorem State.peak_startUp (s : State) (k : CKey) (n : Nat) : (State.peak s k n).startUp = s.startUp := by unfold State.peak; simp
@[simp] theorem State.post_startUp (s : State) (code : Nat) (cls : EvClass) (slot : Option Nat) (source : Nat) (pl : List Byte) (skip : Bool) (replay : Bool) : (State.post s code cls slot source pl skip replay).startUp = s.startUp := by unfold State.post; simp
@[simp] theorem State.setRing_startUp (s : State) (r : Nat) (x : Ring) : (State.setRing s r x).startUp = s.startUp := by unfold State.setRing; simp
@[simp] theorem State.modMail_startUp (s : State) (f : Mail → Mail) : (State.modMail s f).startUp = s.startUp := by unfold State.modMail; simp
@[simp] theorem State.setSlot_startUp (s : State) (k : Nat) (v : Slot) : (State.setSlot s k v).startUp = s.startUp := by unfold State.setSlot; simp
@[simp] theorem State.modSlot_startUp (s : State) (k : Nat) (f : Slot → Slot) : (State.modSlot s k f).startUp = s.startUp := by unfold State.modSlot; simp
@[simp] theorem State.setChan_startUp (s : State) (i : Nat) (c : DmaChan) : (State.setChan s i c).startUp = s.startUp := by unfold State.setChan; simp
@[simp] theorem State.raise_startUp (s : State) (fn vec : Nat) : (State.raise s fn vec).startUp = s.startUp := by unfold State.raise; simp
@[simp] theorem State.signal_startUp (s : State) (r : Nat) (urgent : Bool) : (State.signal s r urgent).startUp = s.startUp := by unfold State.signal; simp
@[simp] theorem State.putRecord_startUp (s : State) (r ph : Nat) (rec' : List Byte) (urgent : Bool) : (State.putRecord s r ph rec' urgent).startUp = s.startUp := by unfold State.putRecord; simp
@[simp] theorem State.flushRecords_startUp (s : State) (r : Nat) (fuel : Nat) : (State.flushRecords s r fuel).startUp = s.startUp := by
  induction fuel generalizing s with
  | zero => rfl
  | succ n ih => unfold State.flushRecords; (repeat' split) <;> simp [ih]
@[simp] theorem State.complete_startUp (s : State) (c : Cmd) (status : Nat) (detail : Nat) (result : Nat) : (State.complete s c status detail result).startUp = s.startUp := by unfold State.complete; simp
@[simp] theorem State.completeActive_startUp (s : State) (r status : Nat) : (State.completeActive s r status).startUp = s.startUp := by unfold State.completeActive; simp
@[simp] theorem State.abortSlotDma_startUp (s : State) (k cause : Nat) : (State.abortSlotDma s k cause).startUp = s.startUp := by unfold State.abortSlotDma; simp
@[simp] theorem State.haltSlot_startUp (s : State) (k : Nat) : (State.haltSlot s k).startUp = s.startUp := by unfold State.haltSlot; simp
@[simp] theorem State.beyond_startUp (s : State) (k kind : Nat) (units : List Nat) : (State.beyond s k kind units).startUp = s.startUp := by unfold State.beyond; simp
@[simp] theorem State.absorbed_startUp (s : State) (kind unit n lat step : Nat) : (State.absorbed s kind unit n lat step).startUp = s.startUp := by unfold State.absorbed; simp
@[simp] theorem State.setDomain_startUp (s : State) (k : Nat) (d : Domain) : (State.setDomain s k d).startUp = s.startUp := by unfold State.setDomain; simp
@[simp] theorem State.modDomain_startUp (s : State) (k : Nat) (f : Domain → Domain) : (State.modDomain s k f).startUp = s.startUp := by unfold State.modDomain; simp
@[simp] theorem State.syncModule_startUp (s : State) : (State.syncModule s).startUp = s.startUp := by unfold State.syncModule; simp
@[simp] theorem State.exitDone_startUp (s : State) (k : Nat) : (State.exitDone s k).startUp = s.startUp := by unfold State.exitDone; simp
@[simp] theorem State.exitStart_startUp (s : State) (k : Nat) : (State.exitStart s k).startUp = s.startUp := by unfold State.exitStart; simp
@[simp] theorem State.rouse_startUp (s : State) (k : Nat) : (State.rouse s k).startUp = s.startUp := by unfold State.rouse; simp
@[simp] theorem State.modMem_startUp (s : State) (f : Mem → Mem) : (State.modMem s f).startUp = s.startUp := by unfold State.modMem; simp
@[simp] theorem State.countGrans_startUp (s : State) (id : Nat) (gs : List Nat) : (State.countGrans s id gs).startUp = s.startUp := by unfold State.countGrans; simp
@[simp] theorem State.answer_startUp (s : State) (k : RespKind) (bs : List Byte) : (State.answer s k bs).startUp = s.startUp := by unfold State.answer; simp
@[simp] theorem State.respond_startUp (s : State) : (State.respond s).startUp = s.startUp := by unfold State.respond; simp
@[simp] theorem State.drainEntry_startUp (s : State) (grp : Nat) (e : BufEntry) : (State.drainEntry s grp e).startUp = s.startUp := by unfold State.drainEntry; simp
@[simp] theorem State.bufferPiece_startUp (s : State) (grp row off : Nat) (bs : List Byte) : (State.bufferPiece s grp row off bs).startUp = s.startUp := by
  unfold State.bufferPiece
  try dsimp only
  (repeat' split) <;> first
    | simp
    | (rename_i h; have h' := congrArg (fun r => r.1.startUp) h; simp at h'; simp [h'])
    | simp_all
@[simp] theorem State.writeParts_startUp (fuel : Nat) (bs : List Byte) (s : State) (part off : Nat) :
    (s.writeParts part off fuel bs).startUp = s.startUp := by
  induction fuel generalizing s off bs with
  | zero => rfl
  | succ n ih => cases bs <;> simp [State.writeParts, ih]

@[simp] theorem State.holdAgain_startUp (s : State) (k : Nat) : (State.holdAgain s k).startUp = s.startUp := by unfold State.holdAgain; simp
@[simp] theorem State.devWrite_startUp (s : State) (a : Nat) (bs : List Byte) : (State.devWrite s a bs).startUp = s.startUp := by unfold State.devWrite; simp
@[simp] theorem State.refuse_startUp (s : State) (q : MemReq) : (State.refuse s q).startUp = s.startUp := by unfold State.refuse; simp
@[simp] theorem State.chargeBulk_startUp (s : State) (a n : Nat) (wr : Bool) : (State.chargeBulk s a n wr).startUp = s.startUp := by unfold State.chargeBulk; simp
@[simp] theorem State.beyondDie_startUp (s : State) (die : Nat) (units : List Nat) : (State.beyondDie s die units).startUp = s.startUp := by unfold State.beyondDie; simp
@[simp] theorem State.poisonHit_startUp (s : State) (l : Loc) : (State.poisonHit s l).startUp = s.startUp := by unfold State.poisonHit; simp
@[simp] theorem State.remap_startUp (s : State) (g : Nat) : (State.remap s g).startUp = s.startUp := by unfold State.remap; simp
@[simp] theorem State.uncorrectable_startUp (s : State) (l : Loc) : (State.uncorrectable s l).startUp = s.startUp := by unfold State.uncorrectable; simp
@[simp] theorem State.applyEcc_startUp (s : State) (ls : List Loc) (ecc : List (Nat × EccFind)) : (s.applyEcc ls ecc).startUp = s.startUp := by
  unfold State.applyEcc
  refine foldl_startUp _ _ _ (fun x b => ?_)
  (repeat' split) <;> simp

@[simp] theorem State.countRead_startUp (s : State) (ls : List Loc) : (State.countRead s ls).startUp = s.startUp := by unfold State.countRead; simp
@[simp] theorem State.serveRead_startUp (s : State) (q : MemReq) : (State.serveRead s q).1.startUp = s.startUp := by
  unfold State.serveRead
  try dsimp only
  (repeat' split) <;> first
    | simp
    | (rename_i h; have h' := congrArg (fun r => r.1.startUp) h; simp at h'; simp [h'])
    | simp_all
theorem State.letIn_startUp {s t : State} {q : MemReq} {wr : Bool} (h : s.letIn q wr = .go t ∨ s.letIn q wr = .waits t) : t.startUp = s.startUp := by
  have hr : ((reqDomains s.mem q.addr.toNat q.len wr).foldl State.rouse s).startUp = s.startUp := foldl_startUp _ _ _ (fun x b => State.rouse_startUp x b)
  unfold State.letIn at h
  dsimp only at h
  (repeat' split at h) <;> rcases h with h | h <;> cases h <;> simp [hr]
@[simp] theorem State.memRead_startUp (s : State) (q : MemReq) : (s.memRead q).1.startUp = s.startUp := by
  unfold State.memRead
  split
  · simp
  · rename_i h
    exact State.letIn_startUp (.inr h)
  · rename_i h
    simp [State.letIn_startUp (.inl h)]

@[simp] theorem State.memAdd_startUp (s : State) (q : MemReq) (f : List Byte → List Byte) : (s.memAdd q f).1.startUp = s.startUp := by
  unfold State.memAdd
  split
  · simp
  · rename_i h
    exact State.letIn_startUp (.inr h)
  · rename_i h
    dsimp only
    (repeat' split) <;> simp [State.letIn_startUp (.inl h)]

@[simp] theorem State.memWrite_startUp (s : State) (q : MemReq) (bs : List Byte) : (s.memWrite q bs).1.startUp = s.startUp := by
  unfold State.memWrite
  split
  · simp
  · rename_i h
    exact State.letIn_startUp (.inr h)
  · rename_i h
    simp [State.letIn_startUp (.inl h)]
@[simp] theorem State.setCore_startUp (s : State) (no : Nat) (c : Core) : (State.setCore s no c).startUp = s.startUp := by unfold State.setCore; simp
@[simp] theorem State.setCtx_startUp (s : State) (p : Site) (t : Ctx) : (State.setCtx s p t).startUp = s.startUp := by unfold State.setCtx; simp
@[simp] theorem State.setGov_startUp (s : State) (d : Nat) (g : Gov) : (State.setGov s d g).startUp = s.startUp := by unfold State.setGov; simp
@[simp] theorem State.setLport_startUp (s : State) (p : Nat) (x : LPort) : (State.setLport s p x).startUp = s.startUp := by unfold State.setLport; simp
@[simp] theorem State.modLport_startUp (s : State) (p : Nat) (f : LPort → LPort) : (State.modLport s p f).startUp = s.startUp := by unfold State.modLport; simp
@[simp] theorem State.observe_startUp (s : State) (kind i : Nat) : (State.observe s kind i).startUp = s.startUp := by unfold State.observe; (repeat' split) <;> simp
@[simp] theorem State.syncView_startUp (s : State) (kind i : Nat) : (State.syncView s kind i).startUp = s.startUp := by unfold State.syncView; simp
@[simp] theorem State.finish_startUp (s : State) (c : Cmd) (status : Nat) (detail : Nat) (result : Nat) : (State.finish s c status detail result).startUp = s.startUp := by unfold State.finish; simp
@[simp] theorem State.noted_startUp (s : State) (c : Cmd) : (State.noted s c).startUp = s.startUp := by unfold State.noted; simp
@[simp] theorem State.checked_startUp (s : State) (c : Cmd) (act : State → Cmd → State) (hact : ∀ x0 x1, (act x0 x1).startUp = x0.startUp) : (State.checked s c act).startUp = s.startUp := by
  unfold State.checked
  try dsimp only
  (repeat' split) <;> first
    | simp
    | (rename_i h; have h' := congrArg (fun r => r.1.startUp) h; simp at h'; simp [h'])
    | simp_all
@[simp] theorem State.startLong_startUp (s : State) (c : Cmd) : (State.startLong s c).startUp = s.startUp := by unfold State.startLong; simp
@[simp] theorem State.setArb_startUp (s : State) (die inst : Nat) (a : Arb) : (State.setArb s die inst a).startUp = s.startUp := by unfold State.setArb; simp
@[simp] theorem State.arbGrant_startUp (s : State) (die inst : Nat) (a : Arb) : (State.arbGrant s die inst a).startUp = s.startUp := by unfold State.arbGrant; simp
@[simp] theorem State.roundNormal_startUp (s : State) (die inst : Nat) (a : Arb) (can : Nat → Bool) : (State.roundNormal s die inst a can).startUp = s.startUp := by
  unfold State.roundNormal
  try dsimp only
  (repeat' split) <;> first
    | simp
    | (rename_i h; have h' := congrArg (fun r => r.1.startUp) h; simp at h'; simp [h'])
    | simp_all
@[simp] theorem State.roundParked_startUp (s : State) (die inst : Nat) (a : Arb) (can : Nat → Bool) : (State.roundParked s die inst a can).startUp = s.startUp := by unfold State.roundParked; (repeat' split) <;> simp
theorem execArbRound_startUp (r : RoundArgs) (s : State) : ∀ s', execArbRound r s = .next s' → s'.startUp = s.startUp := by
  intro t h
  unfold execArbRound at h
  try dsimp only at h
  (repeat' split at h) <;> cases h <;> (repeat' split) <;> simp_all
@[simp] theorem State.arbWrite_startUp (s : State) (die inst : Nat) (all freeze : Bool) (parked : Option Bool) : (State.arbWrite s die inst all freeze parked).startUp = s.startUp := by unfold State.arbWrite; simp
@[simp] theorem State.arbCtrlWrite_startUp (s : State) (die v : Nat) : (State.arbCtrlWrite s die v).startUp = s.startUp := by unfold State.arbCtrlWrite; simp
theorem execArbFreeze_startUp (die : Fin 25) (inst : BitVec 12) (all : Bool) (s : State) : ∀ s', execArbFreeze die inst all s = .next s' → s'.startUp = s.startUp := by
  intro t h
  unfold execArbFreeze at h
  cases h
  simp
theorem execArbUnfreeze_startUp (die : Fin 25) (inst : BitVec 12) (all : Bool) (s : State) : ∀ s', execArbUnfreeze die inst all s = .next s' → s'.startUp = s.startUp := by
  intro t h
  unfold execArbUnfreeze at h
  cases h
  simp
theorem execArbModeChange_startUp (die : Fin 25) (inst : BitVec 12) (all freeze parked : Bool) (s : State) : ∀ s', execArbModeChange die inst all freeze parked s = .next s' → s'.startUp = s.startUp := by
  intro t h
  unfold execArbModeChange at h
  cases h
  simp
@[simp] theorem State.arbAll_startUp (s : State) (die : Nat) (parked : Bool) : (State.arbAll s die parked).startUp = s.startUp := by unfold State.arbAll; simp
@[simp] theorem State.countAll_startUp (s : State) (f : Nat → CKey) (cs : List (Nat × Nat)) : (State.countAll s f cs).startUp = s.startUp := by unfold State.countAll; simp
@[simp] theorem State.routineFault_startUp (s : State) (p : Site) (code off word : Nat) : (State.routineFault s p code off word).startUp = s.startUp := by unfold State.routineFault; simp
@[simp] theorem State.goto_startUp (s : State) (p : Site) (pos : Nat) : (State.goto s p pos).startUp = s.startUp := by unfold State.goto; simp
@[simp] theorem State.payFloor_startUp (s : State) (no : Nat) (ch : Nat) : (State.payFloor s no ch).startUp = s.startUp := by unfold State.payFloor; simp
@[simp] theorem State.pay_startUp (s : State) (p : Site) (pl : Plan) : (State.pay s p pl).startUp = s.startUp := by unfold State.pay; simp
@[simp] theorem State.bankSeen_startUp (s : State) (no a n : Nat) : (State.bankSeen s no a n).startUp = s.startUp := by unfold State.bankSeen; simp
@[simp] theorem State.bankReads_startUp (s : State) (no : Nat) (l : List Rng) : (State.bankReads s no l).startUp = s.startUp := by unfold State.bankReads; simp
@[simp] theorem State.issued_startUp (s : State) (p : Site) (h : OpHead) (pl : Plan) : (State.issued s p h pl).startUp = s.startUp := by unfold State.issued; simp
@[simp] theorem State.stall_startUp (s : State) (p : Site) (why : Option Nat) : (State.stall s p why).startUp = s.startUp := by unfold State.stall; (repeat' split) <;> simp
@[simp] theorem State.keepNext_startUp (s : State) (p : Site) (h : OpHead) (pl : Plan) : (State.keepNext s p h pl).startUp = s.startUp := by unfold State.keepNext; simp
@[simp] theorem State.issue_startUp (s : State) (p : Site) (h : OpHead) (pl : Plan) (eff : State → State) (he : ∀ x, (eff x).startUp = x.startUp) :
    (s.issue p h pl eff).startUp = s.startUp := by
  unfold State.issue
  dsimp only
  (repeat' split) <;> simp [he]

@[simp] theorem State.modCtx_startUp (s : State) (p : Site) (f : Ctx → Ctx) : (State.modCtx s p f).startUp = s.startUp := by unfold State.modCtx; simp
@[simp] theorem State.modCore_startUp (s : State) (no : Nat) (f : Core → Core) : (State.modCore s no f).startUp = s.startUp := by unfold State.modCore; simp
@[simp] theorem State.inject_startUp (s : State) (m : Msg) : (State.inject s m).startUp = s.startUp := by unfold State.inject; simp
@[simp] theorem State.arrived_startUp (s : State) (m : Msg) : (State.arrived s m).startUp = s.startUp := by unfold State.arrived; simp
@[simp] theorem State.startRoutine_startUp (s : State) (p : Site) (i : Nat) : (State.startRoutine s p i).startUp = s.startUp := by unfold State.startRoutine; simp
@[simp] theorem State.endWait_startUp (s : State) (p : Site) (tok : Option Nat) (t1 : Ctx) : (State.endWait s p tok t1).startUp = s.startUp := by unfold State.endWait; (repeat' split) <;> simp
@[simp] theorem State.release_startUp (s : State) (p : Site) : (State.release s p).startUp = s.startUp := by
  unfold State.release
  try dsimp only
  (repeat' split) <;> first
    | simp
    | (rename_i h; have h' := congrArg (fun r => r.1.startUp) h; simp at h'; simp [h'])
    | simp_all
@[simp] theorem State.addToken_startUp (s : State) (p : Site) (k n off word : Nat) : (State.addToken s p k n off word).startUp = s.startUp := by unfold State.addToken; simp
@[simp] theorem State.loadCore_startUp (s : State) (slot : Nat) (c : CoreLoad) : (State.loadCore s slot c).startUp = s.startUp := by unfold State.loadCore; simp
@[simp] theorem State.loadRoutines_startUp (s : State) (k rank : Nat) : (State.loadRoutines s k rank).startUp = s.startUp := by unfold State.loadRoutines; simp
@[simp] theorem State.modChest_startUp (s : State) (f : Chest → Chest) : (State.modChest s f).startUp = s.startUp := by unfold State.modChest; simp
@[simp] theorem State.sramWrite_startUp (s : State) (p o : Nat) (bs : List Byte) : (s.sramWrite p o bs).startUp = s.startUp := by
  unfold State.sramWrite
  exact foldl_pair_startUp _ _ _ (fun x c => by simp)

@[simp] theorem State.moveTile_startUp (s : State) (x : CTile) (sram : Bool) (place : Nat) (recalled : Bool) : (State.moveTile s x sram place recalled).startUp = s.startUp := by unfold State.moveTile; simp
theorem State.placeTile_startUp (s : State) (a : ChestAddr) (t : Nat) : ∀ s', State.placeTile s a t = some s' → s'.startUp = s.startUp := by
  intro t h
  unfold State.placeTile at h
  try dsimp only at h
  (repeat' split at h) <;> cases h <;> first
    | rfl
    | (simp; done)
    | (have hb := fst_startUp ‹_ = ((_ : State), _)›; simp at hb; simp [hb]; done)
    | (simp_all; done)
theorem execChestGrant_startUp (s : State) : ∀ s', execChestGrant s = .next s' → s'.startUp = s.startUp := by
  intro t h
  unfold execChestGrant at h
  (repeat' split at h) <;> cases h <;> simp
theorem execChestRecall_startUp (s : State) : ∀ s', execChestRecall s = .next s' → s'.startUp = s.startUp := by
  intro t h
  unfold execChestRecall at h
  try dsimp only at h
  (repeat' split at h) <;> cases h <;> first
    | rfl
    | (simp; done)
    | (have hb := fst_startUp ‹_ = ((_ : State), _)›; simp at hb; simp [hb]; done)
    | (simp_all; done)
@[simp] theorem State.releaseTiles_startUp (s : State) (addr n : Nat) : (State.releaseTiles s addr n).startUp = s.startUp := by unfold State.releaseTiles; simp
@[simp] theorem State.emptyChest_startUp (s : State) (leak : Bool) : (State.emptyChest s leak).startUp = s.startUp := by unfold State.emptyChest; simp
@[simp] theorem State.gateCredit_startUp (s : State) (x y ch : Nat) : (State.gateCredit s x y ch).startUp = s.startUp := by
  unfold State.gateCredit
  try dsimp only
  (repeat' split) <;> first
    | simp
    | (rename_i h; have h' := congrArg (fun r => r.1.startUp) h; simp at h'; simp [h'])
    | simp_all
@[simp] theorem State.modJournal_startUp (s : State) (f : Journal → Journal) : (State.modJournal s f).startUp = s.startUp := by unfold State.modJournal; simp
@[simp] theorem State.writeJournal_startUp (s : State) (k step : Nat) (bytes : List Byte) : (State.writeJournal s k step bytes).startUp = s.startUp := by unfold State.writeJournal; (repeat' split) <;> simp
@[simp] theorem State.askGather_startUp (s : State) (g : GatherReq) : (State.askGather s g).startUp = s.startUp := by unfold State.askGather; (repeat' split) <;> simp
@[simp] theorem State.regather_startUp (s : State) (layer axis : Nat) : (State.regather s layer axis).startUp = s.startUp := by unfold State.regather; simp
@[simp] theorem State.commitStep_startUp (s : State) (d : DoneRun) : (State.commitStep s d).startUp = s.startUp := by
  unfold State.commitStep
  try dsimp only
  (repeat' split) <;> first
    | simp
    | (rename_i h; have h' := congrArg (fun r => r.1.startUp) h; simp at h'; simp [h'])
    | simp_all
@[simp] theorem State.endReplay_startUp (s : State) (dec : Option Nat) (status detail result : Nat) : (State.endReplay s dec status detail result).startUp = s.startUp := by
  unfold State.endReplay
  try dsimp only
  (repeat' split) <;> first
    | simp
    | (rename_i h; have h' := congrArg (fun r => r.1.startUp) h; simp at h'; simp [h'])
    | simp_all
@[simp] theorem State.finishReplay_startUp (s : State) (dec : Nat) : (State.finishReplay s dec).startUp = s.startUp := by unfold State.finishReplay; simp
@[simp] theorem State.reportSums_startUp (s : State) (r : Run) (ds : List ShardDone) : (State.reportSums s r ds).1.startUp = s.startUp := by unfold State.reportSums; (repeat' split) <;> simp
@[simp] theorem State.closeStep_startUp (s : State) : (State.closeStep s).startUp = s.startUp := by
  unfold State.closeStep
  try dsimp only
  (repeat' split) <;> first
    | simp
    | (rename_i h; have h' := congrArg (fun r => r.1.startUp) h; simp at h'; simp [h'])
    | simp_all
@[simp] theorem State.returnCredit_startUp (s : State) (dev n : Nat) : (State.returnCredit s dev n).startUp = s.startUp := by unfold State.returnCredit; simp
@[simp] theorem State.writeNotice_startUp (s : State) (m : Msg) (cause : Nat) : (State.writeNotice s m cause).startUp = s.startUp := by unfold State.writeNotice; simp
@[simp] theorem State.coreWritten_startUp (s : State) (m : Msg) : (State.coreWritten s m).startUp = s.startUp := by unfold State.coreWritten; simp
@[simp] theorem State.closeBucket_startUp (s : State) (b : Nat) (ab : Bool) : (State.closeBucket s b ab).startUp = s.startUp := by
  unfold State.closeBucket
  try dsimp only
  (repeat' split) <;> first
    | simp
    | (rename_i h; have h' := congrArg (fun r => r.1.startUp) h; simp at h'; simp [h'])
    | simp_all
@[simp] theorem State.quiesce_startUp (s : State) : (State.quiesce s).startUp = s.startUp := by unfold State.quiesce; simp
@[simp] theorem State.broadcast_startUp (s : State) (mk : Nat → Msg) : (State.broadcast s mk).startUp = s.startUp := by unfold State.broadcast; simp
@[simp] theorem State.abandonStep_startUp (s : State) : (State.abandonStep s).startUp = s.startUp := by
  unfold State.abandonStep
  try dsimp only
  (repeat' split) <;> first
    | simp
    | (rename_i h; have h' := congrArg (fun r => r.1.startUp) h; simp at h'; simp [h'])
    | simp_all
@[simp] theorem State.keepRepaired_startUp (s : State) (step : Nat) : (State.keepRepaired s step).startUp = s.startUp := by unfold State.keepRepaired; simp
@[simp] theorem State.decideStep_startUp (s : State) (d : Nat) : (State.decideStep s d).startUp = s.startUp := by unfold State.decideStep; (repeat' split) <;> simp
@[simp] theorem State.recordSeal_startUp (s : State) (dev : Nat) (nf ab : Bool) : (State.recordSeal s dev nf ab).startUp = s.startUp := by
  unfold State.recordSeal
  try dsimp only
  (repeat' split) <;> first
    | simp
    | (rename_i h; have h' := congrArg (fun r => r.1.startUp) h; simp at h'; simp [h'])
    | simp_all
@[simp] theorem State.sendSeal_startUp (s : State) (nf ab : Bool) : (State.sendSeal s nf ab).startUp = s.startUp := by unfold State.sendSeal; simp
@[simp] theorem State.epochClose_startUp (s : State) (cause : Nat) : (State.epochClose s cause).startUp = s.startUp := by unfold State.epochClose; simp
@[simp] theorem State.strike_startUp (s : State) (k cause : Nat) : (State.strike s k cause).startUp = s.startUp := by unfold State.strike; simp

end Sys2Proof.Machine
end

