-- ==== Sys2Proof/Laws/FrameMemory.lean ====
section
/-! SUPPORT. What leaves the start-up registers, the row maps and the queue alone: the links, the memory commands and DMA. -/

namespace Sys2Proof.Machine

@[simp] theorem State.finishPower_startUp (s : State) (kind index : Nat) (keep : Option Nat) (result : Cmd → Nat) : (State.finishPower s kind index keep result).startUp = s.startUp := by unfold State.finishPower; simp
@[simp] theorem State.enterRung_startUp (s : State) (k r : Nat) : (State.enterRung s k r).startUp = s.startUp := by unfold State.enterRung; simp
theorem execCoreGate_startUp (x y : Fin 48) (s : State) : ∀ s', execCoreGate x y s = .next s' → s'.startUp = s.startUp := by
  intro t h
  unfold execCoreGate at h
  try dsimp only at h
  (repeat' split at h) <;> cases h <;> (repeat' split) <;> simp_all
@[simp] theorem State.freezeFor_startUp (s : State) (k : Nat) (on : Bool) : (State.freezeFor s k on).startUp = s.startUp := by unfold State.freezeFor; (repeat' split) <;> simp
@[simp] theorem State.rouseDie_startUp (s : State) (k : Nat) : (State.rouseDie s k).startUp = s.startUp := by unfold State.rouseDie; (repeat' split) <;> simp
@[simp] theorem State.enable_startUp (s : State) (k remain : Nat) (wake : Bool) : (State.enable s k remain wake).startUp = s.startUp := by unfold State.enable; simp
theorem execDomainEnable_startUp (kind : Fin 8) (index : BitVec 24) (remain : Nat) (wake : Bool) (s : State) : ∀ s', execDomainEnable kind index remain wake s = .next s' → s'.startUp = s.startUp := by
  intro t h
  unfold execDomainEnable at h
  cases h
  simp
@[simp] theorem State.wakeCore_startUp (s : State) (no : Nat) : (State.wakeCore s no).startUp = s.startUp := by unfold State.wakeCore; simp
@[simp] theorem State.wakeDie_startUp (s : State) (die : Nat) : (State.wakeDie s die).startUp = s.startUp := by unfold State.wakeDie; simp
theorem execCoreWake_startUp (x y : Fin 48) (s : State) : ∀ s', execCoreWake x y s = .next s' → s'.startUp = s.startUp := by
  intro t h
  unfold execCoreWake at h
  cases h
  simp
@[simp] theorem State.autoEntry_startUp (s : State) (no rung : Nat) : (State.autoEntry s no rung).startUp = s.startUp := by unfold State.autoEntry; simp
theorem execCoreDozeEntry_startUp (x y : Fin 48) (s : State) : ∀ s', execCoreDozeEntry x y s = .next s' → s'.startUp = s.startUp := by
  intro t h
  unfold execCoreDozeEntry at h
  cases h
  simp
theorem execCoreNapEntry_startUp (x y : Fin 48) (s : State) : ∀ s', execCoreNapEntry x y s = .next s' → s'.startUp = s.startUp := by
  intro t h
  unfold execCoreNapEntry at h
  cases h
  simp
theorem execDieGate_startUp (die : Fin 25) (s : State) : ∀ s', execDieGate die s = .next s' → s'.startUp = s.startUp := by
  intro t h
  unfold execDieGate at h
  try dsimp only at h
  (repeat' split at h) <;> cases h <;> (repeat' split) <;> simp_all
@[simp] theorem State.portGate_startUp (s : State) (k : Nat) : (State.portGate s k).startUp = s.startUp := by unfold State.portGate; simp
theorem execMemPortGate_startUp (port : Fin 48) (s : State) : ∀ s', execMemPortGate port s = .next s' → s'.startUp = s.startUp := by
  intro t h
  unfold execMemPortGate at h
  cases h
  simp
theorem execPortGate_startUp (port : Fin 16) (s : State) : ∀ s', execPortGate port s = .next s' → s'.startUp = s.startUp := by
  intro t h
  unfold execPortGate at h
  cases h
  simp
theorem execDrainComplete_startUp (kind : Fin 8) (index : BitVec 24) (s : State) : ∀ s', execDrainComplete kind index s = .next s' → s'.startUp = s.startUp := by
  intro t h
  unfold execDrainComplete at h
  try dsimp only at h
  (repeat' split at h) <;> cases h <;> (repeat' split) <;> simp_all
@[simp] theorem State.coreSleep_startUp (s : State) (no : Nat) : (State.coreSleep s no).startUp = s.startUp := by unfold State.coreSleep; simp
@[simp] theorem State.reach_startUp (s : State) (kind k r : Nat) : (State.reach s kind k r).startUp = s.startUp := by unfold State.reach; simp
theorem execRetireStepComplete_startUp (kind : Fin 8) (index : BitVec 24) (s : State) : ∀ s', execRetireStepComplete kind index s = .next s' → s'.startUp = s.startUp := by
  intro t h
  unfold execRetireStepComplete at h
  try dsimp only at h
  (repeat' split at h) <;> cases h <;> (repeat' split) <;> simp_all
@[simp] theorem State.wakePath_startUp (s : State) (a b : Nat × Nat) : (State.wakePath s a b).startUp = s.startUp := by unfold State.wakePath; simp
@[simp] theorem State.toAgents_startUp (s : State) (m : Msg) : (State.toAgents s m).startUp = s.startUp := by unfold State.toAgents; simp
@[simp] theorem State.setLpair_startUp (s : State) (i : Nat) (x : LPair) : (State.setLpair s i x).startUp = s.startUp := by unfold State.setLpair; simp
@[simp] theorem State.modLpair_startUp (s : State) (i : Nat) (f : LPair → LPair) : (State.modLpair s i f).startUp = s.startUp := by unfold State.modLpair; simp
@[simp] theorem State.refreshDetour_startUp (s : State) (d : Nat) : (State.refreshDetour s d).startUp = s.startUp := by unfold State.refreshDetour; simp
@[simp] theorem State.blockModule_startUp (s : State) (dev : Nat) : (State.blockModule s dev).startUp = s.startUp := by unfold State.blockModule; simp
@[simp] theorem State.notePool_startUp (s : State) (d : Nat) : (State.notePool s d).startUp = s.startUp := by unfold State.notePool; simp
@[simp] theorem State.freeUnit_startUp (s : State) (u : Nat) : (State.freeUnit s u).startUp = s.startUp := by unfold State.freeUnit; simp
@[simp] theorem State.sentUnit_startUp (s : State) (w : WFlit) : (State.sentUnit s w).startUp = s.startUp := by unfold State.sentUnit; (repeat' split) <;> simp
@[simp] theorem State.choosePort_startUp (s : State) (i : Nat) : (State.choosePort s i).1.startUp = s.startUp := by
  unfold State.choosePort
  try dsimp only
  (repeat' split) <;> first
    | simp
    | (rename_i h; have h' := congrArg (fun r => r.1.startUp) h; simp at h'; simp [h'])
    | simp_all
@[simp] theorem State.sendIdle_startUp (s : State) (p : Nat) : (State.sendIdle s p).startUp = s.startUp := by unfold State.sendIdle; simp
@[simp] theorem State.idleWork_startUp (s : State) (p : Nat) : (State.idleWork s p).startUp = s.startUp := by unfold State.idleWork; simp
@[simp] theorem State.sendOn_startUp (s : State) (p : Nat) (w : WFlit) : (State.sendOn s p w).startUp = s.startUp := by unfold State.sendOn; simp
@[simp] theorem State.linkRound_startUp (s : State) (die inst : Nat) (cands : List (Nat × Nat × Nat)) (can : Nat → Bool) : (State.linkRound s die inst cands can).1.startUp = s.startUp := by
  unfold State.linkRound
  try dsimp only
  (repeat' split) <;> first
    | simp
    | (rename_i h; have h' := congrArg (fun r => r.1.startUp) h; simp at h'; simp [h'])
    | simp_all
@[simp] theorem State.sendWaiting_startUp (s : State) (i p : Nat) (w : WFlit) : (State.sendWaiting s i p w).startUp = s.startUp := by unfold State.sendWaiting; simp
@[simp] theorem State.sendNew_startUp (s : State) (i p r : Nat) : (State.sendNew s i p r).startUp = s.startUp := by unfold State.sendNew; (repeat' split) <;> simp
@[simp] theorem State.pump_startUp (fuel : Nat) (s : State) (i : Nat) : (s.pump i fuel).startUp = s.startUp := by
  induction fuel generalizing s with
  | zero => rfl
  | succ n ih =>
    unfold State.pump
    split
    · rfl
    · rename_i h
      have h1 := fst_startUp h
      rw [State.choosePort_startUp] at h1
      split
      · rw [ih, State.sendWaiting_startUp, h1]
      · split
        · rfl
        · split <;> rename_i h2 <;> have h3 := fst_startUp h2 <;> rw [State.linkRound_startUp, h1] at h3 <;> simp [ih, h3]

@[simp] theorem State.wakePort_startUp (s : State) (p : Nat) : (State.wakePort s p).startUp = s.startUp := by unfold State.wakePort; simp
@[simp] theorem State.drainPair_startUp (s : State) (i : Nat) : (s.drainPair i).startUp = s.startUp := by
  unfold State.drainPair
  dsimp only
  split
  · rfl
  · rw [foldl_startUp]
    · rw [State.pump_startUp]
      (repeat' split) <;> simp
    · intro x b
      split <;> simp

@[simp] theorem State.freeUnits_startUp (s : State) (us : List Nat) : (State.freeUnits s us).startUp = s.startUp := by unfold State.freeUnits; simp
@[simp] theorem State.enqueue_startUp (s : State) (i ch : Nat) (bytes : List Byte) (src : Nat) (units : List Nat) : (State.enqueue s i ch bytes src units).startUp = s.startUp := by unfold State.enqueue; simp
@[simp] theorem State.flushStream_startUp (s : State) (i ch : Nat) : (State.flushStream s i ch).startUp = s.startUp := by unfold State.flushStream; simp
@[simp] theorem State.copyTo_startUp (s : State) (bytes : List Byte) (cls d e left : Nat) (cur : Bool) (unit : Option Nat) : (State.copyTo s bytes cls d e left cur unit).startUp = s.startUp := by unfold State.copyTo; simp
@[simp] theorem State.startCopies_startUp (s : State) (bytes : List Byte) (cls lo : Nat) (unit : Option Nat) : (State.startCopies s bytes cls lo unit).startUp = s.startUp := by unfold State.startCopies; simp
@[simp] theorem State.routeOut_startUp (s : State) (m : Msg) (die src : Nat) (cur : Bool) (units : List Nat) : (State.routeOut s m die src cur units).startUp = s.startUp := by unfold State.routeOut; (repeat' split) <;> simp
@[simp] theorem State.ringHop_startUp (s : State) (r : RingMsg) : (State.ringHop s r).startUp = s.startUp := by unfold State.ringHop; simp
@[simp] theorem State.ringRound_startUp (s : State) (die : Nat) (up : Bool) : (State.ringRound s die up).startUp = s.startUp := by
  unfold State.ringRound
  try dsimp only
  (repeat' (split <;> try (rename_i heq; replace heq := fst_startUp heq)))
  all_goals simp_all
@[simp] theorem State.ringLand_startUp (s : State) : (State.ringLand s).startUp = s.startUp := by unfold State.ringLand; simp
@[simp] theorem State.ringWork_startUp (s : State) (fuel : Nat) : (State.ringWork s fuel).startUp = s.startUp := by
  induction fuel generalizing s with
  | zero => rfl
  | succ n ih => unfold State.ringWork; (repeat' split) <;> simp [ih]
@[simp] theorem State.takeUp_startUp (s : State) : s.takeUp.startUp = s.startUp := by
  unfold State.takeUp
  dsimp only
  split
  · rfl
  · rw [← State.startUp_eta]
    refine foldl_pair_startUp _ _ _ (fun x m => ?_)
    (repeat' split) <;> simp

@[simp] theorem State.drainCtrl_startUp (s : State) (p : Nat) : (State.drainCtrl s p).startUp = s.startUp := by unfold State.drainCtrl; simp
@[simp] theorem State.linkWork_startUp (s : State) : (State.linkWork s).startUp = s.startUp := by unfold State.linkWork; simp
@[simp] theorem State.sendCtrl_startUp (s : State) (p op arg : Nat) : (State.sendCtrl s p op arg).startUp = s.startUp := by unfold State.sendCtrl; simp
@[simp] theorem State.handOver_startUp (s : State) (p : Nat) : (State.handOver s p).startUp = s.startUp := by unfold State.handOver; simp
@[simp] theorem State.retrain_startUp (s : State) (p : Nat) : (State.retrain s p).startUp = s.startUp := by unfold State.retrain; simp
@[simp] theorem State.awakened_startUp (s : State) (kind index : Nat) (coefFails : Bool) (from' : Nat) : (State.awakened s kind index coefFails from').startUp = s.startUp := by unfold State.awakened; simp
theorem execExitComplete_startUp (kind : Fin 8) (index : ExitEnd) (s : State) : ∀ s', execExitComplete kind index s = .next s' → s'.startUp = s.startUp := by
  intro t h
  unfold execExitComplete at h
  try dsimp only at h
  split at h <;> cases h <;> (try simp) <;> (repeat' split) <;> simp
@[simp] theorem State.ctrlNow_startUp (s : State) (p op arg : Nat) : (State.ctrlNow s p op arg).startUp = s.startUp := by unfold State.ctrlNow; simp
@[simp] theorem State.sendLost_startUp (s : State) (dev cause : Nat) : (State.sendLost s dev cause).startUp = s.startUp := by unfold State.sendLost; simp
@[simp] theorem State.memberLost_startUp (s : State) (dev cause : Nat) : (State.memberLost s dev cause).startUp = s.startUp := by
  unfold State.memberLost
  try dsimp only
  (repeat' split) <;> first
    | simp
    | (rename_i h; have h' := congrArg (fun r => r.1.startUp) h; simp at h'; simp [h'])
    | simp_all
@[simp] theorem State.mirrorAck_startUp (s : State) (ok : Bool) : (State.mirrorAck s ok).startUp = s.startUp := by
  unfold State.mirrorAck
  try dsimp only
  (repeat' split) <;> first
    | simp
    | (rename_i h; have h' := congrArg (fun r => r.1.startUp) h; simp at h'; simp [h'])
    | simp_all
@[simp] theorem State.injectEntry_startUp (s : State) (i : Nat) (e : PermEntry) : (State.injectEntry s i e).startUp = s.startUp := by unfold State.injectEntry; simp
@[simp] theorem State.resendEntry_startUp (s : State) (i : Nat) : (State.resendEntry s i).startUp = s.startUp := by unfold State.resendEntry; (repeat' split) <;> simp
@[simp] theorem State.answerMem_startUp (r : State × MemAns) : (State.answerMem r).startUp = r.1.startUp := by unfold State.answerMem; (repeat' split) <;> simp
@[simp] theorem State.answerReq_startUp (q : MemReq) (wr : Bool) (r : State × MemAns) : (State.answerReq q wr r).startUp = r.1.startUp := by unfold State.answerReq; (repeat' split) <;> simp
@[simp] theorem State.answerNow_startUp (q : MemReq) (wr : Bool) (r : State × MemAns) : (State.answerNow q wr r).startUp = r.1.startUp := by unfold State.answerNow; simp
@[simp] theorem State.keepWaiting_startUp (s : State) (q : MemReq) (data : Option (List Byte)) (a : MemAns) : (State.keepWaiting s q data a).startUp = s.startUp := by unfold State.keepWaiting; simp
theorem execMemRead_startUp (q : MemReq) (ecc : List (Nat × EccFind)) (s : State) : ∀ s', execMemRead q ecc s = .next s' → s'.startUp = s.startUp := by
  intro t h
  unfold execMemRead at h
  cases h
  simp
theorem execMemWrite_startUp (q : MemReq) (data : List Byte) (s : State) : ∀ s', execMemWrite q data s = .next s' → s'.startUp = s.startUp := by
  intro t h
  unfold execMemWrite at h
  cases h
  simp
theorem execStripeBufferTimeout_startUp (grp : Fin 16) (row : Nat) (s : State) : ∀ s', execStripeBufferTimeout grp row s = .next s' → s'.startUp = s.startUp := by
  intro t h
  unfold execStripeBufferTimeout at h
  (repeat' split at h) <;> cases h <;> simp
@[simp] theorem State.modPort_startUp (s : State) (p : Nat) (f : MPort → MPort) : (State.modPort s p f).startUp = s.startUp := by unfold State.modPort; simp
@[simp] theorem State.portOffline_startUp (s : State) (p cause : Nat) : (State.portOffline s p cause).startUp = s.startUp := by unfold State.portOffline; simp
theorem execPortOffline_startUp (port : Fin 48) (cause : BitVec 8) (s : State) : ∀ s', execPortOffline port cause s = .next s' → s'.startUp = s.startUp := by
  intro t h
  unfold execPortOffline at h
  try dsimp only at h
  (repeat' split at h) <;> cases h <;> (repeat' split) <;> simp_all
@[simp] theorem State.portReturn_startUp (s : State) (p : Nat) (rate : Option Nat) : (State.portReturn s p rate).startUp = s.startUp := by unfold State.portReturn; (repeat' split) <;> simp
theorem execPortThermalReturn_startUp (port : Fin 48) (rate : Option (BitVec 3)) (s : State) : ∀ s', execPortThermalReturn port rate s = .next s' → s'.startUp = s.startUp := by
  intro t h
  unfold execPortThermalReturn at h
  try dsimp only at h
  (repeat' split at h) <;> cases h <;> (repeat' split) <;> simp_all
@[simp] theorem State.rebuildRows_startUp (s : State) (p row : Nat) : (State.rebuildRows s p row).startUp = s.startUp := by unfold State.rebuildRows; simp
@[simp] theorem State.rebuildWork_startUp (s : State) (n : Nat) : (State.rebuildWork s n).startUp = s.startUp := by unfold State.rebuildWork; simp
theorem execPortRebuildComplete_startUp (port : Fin 48) (s : State) : ∀ s', execPortRebuildComplete port s = .next s' → s'.startUp = s.startUp := by
  intro t h
  unfold execPortRebuildComplete at h
  try dsimp only at h
  (repeat' split at h) <;> cases h <;> (repeat' split) <;> simp_all
@[simp] theorem State.syncCeil_startUp (s : State) (die : Nat) : (State.syncCeil s die).startUp = s.startUp := by unfold State.syncCeil; simp
theorem execMr4Poll_startUp (port : Fin 48) (report : Mr4) (s : State) : ∀ s', execMr4Poll port report s = .next s' → s'.startUp = s.startUp := by
  intro t h
  unfold execMr4Poll at h
  try dsimp only at h
  (repeat' split at h) <;> cases h <;> (repeat' split) <;> simp_all
theorem execPatrolScrub_startUp (port : Fin 48) (ch : Fin 4) (row : Nat) (find : Option EccFind) (s : State) : ∀ s', execPatrolScrub port ch row find s = .next s' → s'.startUp = s.startUp := by
  intro t h
  unfold execPatrolScrub at h
  try dsimp only at h
  (repeat' split at h) <;> cases h <;> (repeat' split) <;> simp_all
theorem execLcQuotaWindow_startUp (die : Fin 4) (s : State) : ∀ s', execLcQuotaWindow die s = .next s' → s'.startUp = s.startUp := by
  intro t h
  unfold execLcQuotaWindow at h
  cases h
  simp
@[simp] theorem State.retry_startUp (s : State) (w : WaitReq) : (s.retry w).startUp = s.startUp := by
  obtain ⟨q, d⟩ := w
  cases d <;> simp only [State.retry] <;> split <;> simp

theorem execTokenBucketFill_startUp (die : Fin 4) (s : State) : ∀ t, execTokenBucketFill die s = .next t → t.startUp = s.startUp := by
  intro t h
  unfold execTokenBucketFill at h
  cases h
  rw [foldl_startUp _ _ _ (fun x w => State.retry_startUp x w), State.modMem_startUp]

@[simp] theorem State.letThrough_startUp (s : State) (w : WaitReq) : (State.letThrough s w).startUp = s.startUp := by unfold State.letThrough; simp
@[simp] theorem State.settleBar2_startUp (s : State) : (State.settleBar2 s).startUp = s.startUp := by unfold State.settleBar2; simp
@[simp] theorem State.modChan_startUp (s : State) (ch : Nat) (f : DmaChan → DmaChan) : (State.modChan s ch f).startUp = s.startUp := by unfold State.modChan; simp
@[simp] theorem State.modJob_startUp (s : State) (ch i : Nat) (f : DmaJob → DmaJob) : (State.modJob s ch i f).startUp = s.startUp := by unfold State.modJob; simp
@[simp] theorem State.submit_startUp (s : State) (ch : Nat) (d : DmaDesc) (w : DmaFrom) (slot paid : Nat) : (State.submit s ch d w slot paid).startUp = s.startUp := by unfold State.submit; simp
@[simp] theorem State.tileRead_startUp (s : State) (a : ChestAddr) (m : Nat) : (State.tileRead s a m).1.startUp = s.startUp := by unfold State.tileRead; (repeat' split) <;> simp
@[simp] theorem State.chestRead_startUp (fuel n : Nat) (s : State) (a : ChestAddr) : (s.chestRead a fuel n).1.startUp = s.startUp := by
  induction fuel generalizing s a n with
  | zero => rfl
  | succ k ih =>
    unfold State.chestRead
    dsimp only
    (repeat' split) <;> simp_all [pair_eq]

@[simp] theorem State.tileWrite_startUp (s : State) (a : ChestAddr) (tc : Nat) (bs : List Byte) : (s.tileWrite a tc bs).1.startUp = s.startUp := by
  unfold State.tileWrite
  split
  · rfl
  · rename_i h
    have h1 := State.placeTile_startUp _ _ _ _ h
    (repeat' split) <;> simp [h1]

@[simp] theorem State.chestWrite_startUp (fuel : Nat) (s : State) (a : ChestAddr) (tc : Nat) (bs : List Byte) : (s.chestWrite a tc fuel bs).1.startUp = s.startUp := by
  induction fuel generalizing s a bs with
  | zero => rfl
  | succ n ih =>
    unfold State.chestWrite
    dsimp only
    (repeat' split) <;> simp_all [pair_eq]

@[simp] theorem State.recallMiss_startUp (s : State) (a : ChestAddr) (first : Bool) (n : Nat) : (State.recallMiss s a first n).startUp = s.startUp := by unfold State.recallMiss; simp
@[simp] theorem State.jobRead_startUp (s : State) (j : DmaJob) (o n : Nat) : (s.jobRead j o n).1.startUp = s.startUp := by
  unfold State.jobRead
  dsimp only
  (repeat' split) <;> simp_all [pair_eq]

@[simp] theorem State.jobWrite_startUp (s : State) (j : DmaJob) (o : Nat) (bs : List Byte) : (s.jobWrite j o bs).1.startUp = s.startUp := by
  unfold State.jobWrite
  dsimp only
  (repeat' split) <;> simp_all [pair_eq]

@[simp] theorem State.burstOk_startUp (s : State) (ch i : Nat) (j : DmaJob) (o n : Nat) : (State.burstOk s ch i j o n).1.startUp = s.startUp := by unfold State.burstOk; (repeat' split) <;> simp
@[simp] theorem State.payJob_startUp (s : State) (ch i : Nat) (j : DmaJob) : (State.payJob s ch i j).1.startUp = s.startUp := by
  unfold State.payJob
  try dsimp only
  (repeat' split) <;> first
    | simp
    | (rename_i h; have h' := congrArg (fun r => r.1.startUp) h; simp at h'; simp [h'])
    | simp_all
@[simp] theorem State.startJob_startUp (s : State) (ch i : Nat) (j : DmaJob) : (State.startJob s ch i j).1.startUp = s.startUp := by unfold State.startJob; (repeat' split) <;> simp
@[simp] theorem State.overlapped_startUp (s : State) (j : DmaJob) (o : Nat) (bs : List Byte) : (State.overlapped s j o bs).1.startUp = s.startUp := by
  unfold State.overlapped
  try dsimp only
  (repeat' split) <;> first
    | simp
    | (rename_i h; have h' := congrArg (fun r => r.1.startUp) h; simp at h'; simp [h'])
    | simp_all
@[simp] theorem State.copyBurst_startUp (s : State) (ch i : Nat) (j : DmaJob) : (s.copyBurst ch i j).1.startUp = s.startUp := by
  unfold State.copyBurst
  dsimp only
  (repeat' split) <;> simp_all [pair_eq]

@[simp] theorem State.addBurst_startUp (s : State) (ch i : Nat) (j : DmaJob) : (s.addBurst ch i j).1.startUp = s.startUp := by
  unfold State.addBurst
  dsimp only
  (repeat' split) <;> simp_all [pair_eq]

@[simp] theorem State.releaseVersion_startUp (s : State) : (State.releaseVersion s).startUp = s.startUp := by unfold State.releaseVersion; simp
@[simp] theorem State.noteTail_startUp (s : State) (j : DmaJob) (bs : List Byte) : (State.noteTail s j bs).startUp = s.startUp := by unfold State.noteTail; simp
@[simp] theorem State.contribStart_startUp (s : State) (ch i : Nat) (j : DmaJob) (bs : List Byte) : (State.contribStart s ch i j bs).startUp = s.startUp := by unfold State.contribStart; simp
@[simp] theorem State.sendMessage_startUp (s : State) (ch i : Nat) (j : DmaJob) : (s.sendMessage ch i j).1.startUp = s.startUp := by
  unfold State.sendMessage
  dsimp only
  (repeat' split) <;> simp_all [pair_eq]

@[simp] theorem State.runDma_startUp (n : Nat) (s : State) (ch op : Nat) (burst : State → Nat → Nat → DmaJob → State × Bool)
    (hb : ∀ x a b c, (burst x a b c).1.startUp = x.startUp) : (s.runDma ch op burst n).startUp = s.startUp := by
  induction n generalizing s with
  | zero => rfl
  | succ n ih =>
    unfold State.runDma
    dsimp only
    (repeat' (split <;> try (rename_i heq; replace heq := fst_startUp heq)))
    all_goals simp_all

@[simp] theorem State.runOp_startUp (s : State) (die : Fin 8) (chan : BitVec 5) (op n : Nat) (burst : State → Nat → Nat → DmaJob → State × Bool)
    (hb : ∀ x a b c, (burst x a b c).1.startUp = x.startUp) : (s.runOp die chan op n burst).startUp = s.startUp := by
  unfold State.runOp
  (repeat' split) <;> simp [hb]

theorem execCopy_startUp (die : Fin 8) (chan : BitVec 5) (bursts : Nat) (s : State) : ∀ s', execCopy die chan bursts s = .next s' → s'.startUp = s.startUp := by
  intro t h
  unfold execCopy at h
  cases h
  simp
theorem execAddF32_startUp (die : Fin 8) (chan : BitVec 5) (bursts : Nat) (s : State) : ∀ s', execAddF32 die chan bursts s = .next s' → s'.startUp = s.startUp := by
  intro t h
  unfold execAddF32 at h
  cases h
  simp
theorem execDmaSend_startUp (die : Fin 8) (chan : BitVec 5) (messages : Nat) (s : State) : ∀ s', execDmaSend die chan messages s = .next s' → s'.startUp = s.startUp := by
  intro t h
  unfold execDmaSend at h
  cases h
  simp
@[simp] theorem State.tell_startUp (s : State) (ch : Nat) (j : DmaJob) (st cause : Nat) : (State.tell s ch j st cause).startUp = s.startUp := by unfold State.tell; (repeat' split) <;> simp
@[simp] theorem State.completeJob_startUp (s : State) (ch : Nat) (j : DmaJob) : (State.completeJob s ch j).startUp = s.startUp := by unfold State.completeJob; (repeat' split) <;> simp
theorem execDmaComplete_startUp (die : Fin 8) (chan : BitVec 5) (s : State) : ∀ s', execDmaComplete die chan s = .next s' → s'.startUp = s.startUp := by
  intro t h
  unfold execDmaComplete at h
  try dsimp only at h
  (repeat' split at h) <;> cases h <;> (repeat' split) <;> simp_all
theorem execCqHeadPoll_startUp (die : Fin 8) (chan : BitVec 5) (s : State) : ∀ s', execCqHeadPoll die chan s = .next s' → s'.startUp = s.startUp := by
  intro t h
  unfold execCqHeadPoll at h
  try dsimp only at h
  (repeat' split at h) <;> cases h <;> (repeat' split) <;> simp_all
theorem execDmaChannelAbort_startUp (die : Fin 8) (chan : BitVec 5) (s : State) : ∀ s', execDmaChannelAbort die chan s = .next s' → s'.startUp = s.startUp := by
  intro t h
  unfold execDmaChannelAbort at h
  (repeat' split at h) <;> cases h <;> simp

end Sys2Proof.Machine
end

