-- ==== Sys2Proof/Laws/FrameComm.lean ====
section
/-! SUPPORT. What leaves the start-up registers, the row maps and the queue alone: messages, contributions, step ops and gathers. -/

namespace Sys2Proof.Machine

@[simp] theorem State.dropMsg_startUp (s : State) (m : Msg) (key : CKey) : (State.dropMsg s m key).startUp = s.startUp := by unfold State.dropMsg; simp
@[simp] theorem State.deliver_startUp (s : State) (m : Msg) (act : State → Site → State) (hact : ∀ x0 x1, (act x0 x1).startUp = x0.startUp) : (State.deliver s m act).startUp = s.startUp := by
  unfold State.deliver
  try dsimp only
  (repeat' split) <;> first
    | simp
    | (rename_i h; have h' := congrArg (fun r => r.1.startUp) h; simp at h'; simp [h'])
    | simp_all
@[simp] theorem State.modCh_startUp (s : State) (p : Site) (ch : Nat) (f : Chan → Chan) : (State.modCh s p ch f).startUp = s.startUp := by unfold State.modCh; simp
@[simp] theorem State.modEp_startUp (s : State) (p : Site) (ep : Nat) (f : Endp → Endp) : (State.modEp s p ep f).startUp = s.startUp := by unfold State.modEp; simp
@[simp] theorem State.ringData_startUp (s : State) (p : Site) (m : Msg) (ch : Chan) : (State.ringData s p m ch).startUp = s.startUp := by unfold State.ringData; simp
@[simp] theorem State.setTile_startUp (s : State) (p : Site) (j : JTile) : (State.setTile s p j).startUp = s.startUp := by unfold State.setTile; simp
@[simp] theorem State.tileWide_startUp (s : State) (p : Site) (d : TDesc) (j : JTile) : (State.tileWide s p d j).startUp = s.startUp := by unfold State.tileWide; simp
@[simp] theorem State.tileFails_startUp (s : State) (p : Site) (d : TDesc) (j : JTile) : (State.tileFails s p d j).startUp = s.startUp := by unfold State.tileFails; simp
@[simp] theorem State.wideSegment_startUp (s : State) (p : Site) (m : Msg) (j : JTile) : (State.wideSegment s p m j).startUp = s.startUp := by unfold State.wideSegment; simp
@[simp] theorem State.joinInto_startUp (s : State) (p : Site) (m : Msg) (d : TDesc) (j : JTile) : (State.joinInto s p m d j).startUp = s.startUp := by
  unfold State.joinInto
  try dsimp only
  (repeat' split) <;> first
    | simp
    | (rename_i h; have h' := congrArg (fun r => r.1.startUp) h; simp at h'; simp [h'])
    | simp_all
@[simp] theorem State.noteSender_startUp (s : State) (p : Site) (j : JTile) (who : Sender) : (State.noteSender s p j who).startUp = s.startUp := by unfold State.noteSender; simp
@[simp] theorem State.askLate_startUp (s : State) (p : Site) (d : TDesc) (j : JTile) (who : Sender) (kind : Nat) : (State.askLate s p d j who kind).startUp = s.startUp := by unfold State.askLate; simp
@[simp] theorem State.joinData_startUp (s : State) (p : Site) (m : Msg) (ch : Chan) : (State.joinData s p m ch).startUp = s.startUp := by
  unfold State.joinData
  try dsimp only
  (repeat' split) <;> first
    | simp
    | (rename_i h; have h' := congrArg (fun r => r.1.startUp) h; simp at h'; simp [h'])
    | simp_all
@[simp] theorem State.dataMsg_startUp (s : State) (p : Site) (m : Msg) : (State.dataMsg s p m).startUp = s.startUp := by unfold State.dataMsg; simp
theorem execRingMessage_startUp (m : Msg) (s : State) : ∀ s', execRingMessage m s = .next s' → s'.startUp = s.startUp := by
  intro t h
  unfold execRingMessage at h
  cases h
  simp
theorem execJoinSegment_startUp (m : Msg) (s : State) : ∀ s', execJoinSegment m s = .next s' → s'.startUp = s.startUp := by
  intro t h
  unfold execJoinSegment at h
  cases h
  simp
theorem execTokenMessage_startUp (m : Msg) (s : State) : ∀ s', execTokenMessage m s = .next s' → s'.startUp = s.startUp := by
  intro t h
  unfold execTokenMessage at h
  cases h
  simp
@[simp] theorem State.opDone_startUp (s : State) (p : Site) (f : InFlight) : (State.opDone s p f).startUp = s.startUp := by unfold State.opDone; (repeat' split) <;> simp
@[simp] theorem State.creditOne_startUp (s : State) (p : Site) (ep : Nat) : (State.creditOne s p ep).startUp = s.startUp := by
  unfold State.creditOne
  try dsimp only
  (repeat' split) <;> first
    | simp
    | (rename_i h; have h' := congrArg (fun r => r.1.startUp) h; simp at h'; simp [h'])
    | simp_all
theorem execCreditMessage_startUp (m : Msg) (s : State) : ∀ t, execCreditMessage m s = .next t → t.startUp = s.startUp := by
  intro t h
  unfold execCreditMessage at h
  cases h
  refine State.deliver_startUp _ _ _ (fun x p => ?_)
  split
  · exact foldl_startUp _ _ _ (fun y b => State.creditOne_startUp _ _ _)
  · rfl

@[simp] theorem State.payReplay_startUp (s : State) (p : Site) (cost : Nat) : (State.payReplay s p cost).startUp = s.startUp := by unfold State.payReplay; simp
theorem execJigsawResend_startUp (m : Msg) (s : State) : ∀ s', execJigsawResend m s = .next s' → s'.startUp = s.startUp := by
  intro t h
  unfold execJigsawResend at h
  cases h
  refine State.deliver_startUp _ _ _ (fun x p => ?_)
  try dsimp only
  (repeat' split) <;> simp
theorem execWideRequest_startUp (m : Msg) (s : State) : ∀ s', execWideRequest m s = .next s' → s'.startUp = s.startUp := by
  intro t h
  unfold execWideRequest at h
  cases h
  refine State.deliver_startUp _ _ _ (fun x p => ?_)
  try dsimp only
  (repeat' split) <;> simp
theorem execJigsawResendTimeout_startUp (p : Site) (ch : BitVec 8) (tile : Nat) (s : State) : ∀ s', execJigsawResendTimeout p ch tile s = .next s' → s'.startUp = s.startUp := by
  intro t h
  unfold execJigsawResendTimeout at h
  (repeat' split at h) <;> cases h <;> simp
theorem execRecv_startUp (p : Site) (h : OpHead) (ch : BitVec 8) (d l : BitVec 4) (s : State) : ∀ s', execRecv p h ch d l s = .next s' → s'.startUp = s.startUp := by
  intro t h
  unfold execRecv at h
  try dsimp only at h
  (repeat' split at h) <;> cases h <;> (repeat' split) <;> simp_all
@[simp] theorem State.freeSlot_startUp (s : State) (p : Site) (ch : Nat) : (State.freeSlot s p ch).startUp = s.startUp := by unfold State.freeSlot; (repeat' split) <;> simp
theorem execRfree_startUp (p : Site) (h : OpHead) (ch : BitVec 8) (s : State) : ∀ s', execRfree p h ch s = .next s' → s'.startUp = s.startUp := by
  intro t h
  unfold execRfree at h
  cases h
  simp
theorem execFwd_startUp (p : Site) (h : OpHead) (ch : BitVec 8) (ep : BitVec 6) (s : State) : ∀ s', execFwd p h ch ep s = .next s' → s'.startUp = s.startUp := by
  intro t h
  unfold execFwd at h
  try dsimp only at h
  (repeat' split at h) <;> cases h <;> (repeat' split) <;> simp_all
theorem execSend_startUp (p : Site) (h : OpHead) (a : SendArgs) (s : State) : ∀ s', execSend p h a s = .next s' → s'.startUp = s.startUp := by
  intro t h
  unfold execSend at h
  cases h
  simp
theorem execSync_startUp (p : Site) (h : OpHead) (ep : BitVec 6) (token count : BitVec 4) (s : State) : ∀ s', execSync p h ep token count s = .next s' → s'.startUp = s.startUp := by
  intro t h
  unfold execSync at h
  cases h
  simp
@[simp] theorem State.dmaSubmit_startUp (s : State) (p : Site) (a : DmaOpArgs) : (State.dmaSubmit s p a).startUp = s.startUp := by
  unfold State.dmaSubmit
  try dsimp only
  (repeat' split) <;> first
    | simp
    | (rename_i h; have h' := congrArg (fun r => r.1.startUp) h; simp at h'; simp [h'])
    | simp_all
theorem execDload_startUp (p : Site) (h : OpHead) (a : DmaOpArgs) (s : State) : ∀ s', execDload p h a s = .next s' → s'.startUp = s.startUp := by
  intro t h
  unfold execDload at h
  cases h
  simp
theorem execDstore_startUp (p : Site) (h : OpHead) (a : DmaOpArgs) (s : State) : ∀ s', execDstore p h a s = .next s' → s'.startUp = s.startUp := by
  intro t h
  unfold execDstore at h
  cases h
  simp
@[simp] theorem State.coreNotice_startUp (s : State) (p : Site) (v : Nat) : (State.coreNotice s p v).startUp = s.startUp := by unfold State.coreNotice; (repeat' split) <;> simp
@[simp] theorem State.dieNotice_startUp (s : State) (ch v : Nat) : (State.dieNotice s ch v).startUp = s.startUp := by unfold State.dieNotice; (repeat' split) <;> simp
theorem execDmaNotice_startUp (m : Msg) (s : State) : ∀ t, execDmaNotice m s = .next t → t.startUp = s.startUp := by
  intro t h
  unfold execDmaNotice at h
  dsimp only at h
  refine ite_next_startUp h (fun h => ?_) (fun h => next_startUp h (State.deliver_startUp _ _ _ (fun x p => by simp)))
  refine ite_next_startUp h (fun h => next_startUp h rfl) (fun h => ?_)
  exact ite_next_startUp h (fun h => next_startUp h (by simp)) (fun h => next_startUp h (by simp))
@[simp] theorem State.agentMsg_startUp (s : State) (m : Msg) (bad : Option Nat) (act : State → State) (hact : ∀ x0, (act x0).startUp = x0.startUp) : (State.agentMsg s m bad act).startUp = s.startUp := by
  unfold State.agentMsg
  try dsimp only
  (repeat' split) <;> first
    | simp
    | (rename_i h; have h' := congrArg (fun r => r.1.startUp) h; simp at h'; simp [h'])
    | simp_all
@[simp] theorem State.collEvent_startUp (s : State) (code : Nat) (dev member tag : Nat) : (State.collEvent s code dev member tag).startUp = s.startUp := by unfold State.collEvent; simp
@[simp] theorem State.dropContrib_startUp (s : State) (m : Msg) (h : ContribHdr) (check : Nat) : (State.dropContrib s m h check).startUp = s.startUp := by unfold State.dropContrib; (repeat' split) <;> simp
@[simp] theorem State.landBytes_startUp (s : State) (l : Landing) (bs : List Byte) : (State.landBytes s l bs).startUp = s.startUp := by unfold State.landBytes; simp
@[simp] theorem State.landTurn_startUp (s : State) (dev agent : Nat) (h : ContribHdr) : (State.landTurn s dev agent h).startUp = s.startUp := by unfold State.landTurn; simp
@[simp] theorem State.landMessage_startUp (s : State) (m : Msg) : (State.landMessage s m).startUp = s.startUp := by
  unfold State.landMessage
  try dsimp only
  (repeat' split) <;> first
    | simp
    | (rename_i h; have h' := congrArg (fun r => r.1.startUp) h; simp at h'; simp [h'])
    | simp_all
theorem execContributionReceive_startUp (m : Msg) (s : State) : ∀ s', execContributionReceive m s = .next s' → s'.startUp = s.startUp := by
  intro t h
  unfold execContributionReceive at h
  (repeat' split at h) <;> cases h <;> simp
@[simp] theorem State.freeLanding_startUp (s : State) (l : Landing) : (State.freeLanding s l).startUp = s.startUp := by unfold State.freeLanding; simp
@[simp] theorem State.closeIfDone_startUp (s : State) (b : Nat) : (State.closeIfDone s b).startUp = s.startUp := by unfold State.closeIfDone; simp
@[simp] theorem State.takeContrib_startUp (s : State) (l : Landing) : (State.takeContrib s l).startUp = s.startUp := by
  unfold State.takeContrib
  try dsimp only
  (repeat' split) <;> first
    | simp
    | (rename_i h; have h' := congrArg (fun r => r.1.startUp) h; simp at h'; simp [h'])
    | simp_all
@[simp] theorem State.runAgent_startUp (s : State) (agent : Nat) (fuel : Nat) : (State.runAgent s agent fuel).startUp = s.startUp := by
  induction fuel generalizing s with
  | zero => rfl
  | succ n ih => unfold State.runAgent; (repeat' split) <;> simp [ih]
@[simp] theorem State.crcFail_startUp (s : State) (l : Landing) : (State.crcFail s l).startUp = s.startUp := by unfold State.crcFail; simp
@[simp] theorem State.contribEnd_startUp (s : State) (dev agent : Nat) : (State.contribEnd s dev agent).startUp = s.startUp := by unfold State.contribEnd; (repeat' split) <;> simp
theorem execContributionEnd_startUp (dev : BitVec 14) (agent : Fin 4) (s : State) : ∀ s', execContributionEnd dev agent s = .next s' → s'.startUp = s.startUp := by
  intro t h
  unfold execContributionEnd at h
  cases h
  simp
@[simp] theorem State.resendContrib_startUp (s : State) (dev tag : Nat) : (State.resendContrib s dev tag).startUp = s.startUp := by
  unfold State.resendContrib
  try dsimp only
  (repeat' split) <;> first
    | simp
    | (rename_i h; have h' := congrArg (fun r => r.1.startUp) h; simp at h'; simp [h'])
    | simp_all
theorem execLandCredit_startUp (agent : Fin 4) (m : Msg) (s : State) : ∀ s', execLandCredit agent m s = .next s' → s'.startUp = s.startUp := by
  intro t h
  unfold execLandCredit at h
  (repeat' split at h) <;> cases h <;> simp
theorem execContribResend_startUp (m : Msg) (s : State) : ∀ s', execContribResend m s = .next s' → s'.startUp = s.startUp := by
  intro t h
  unfold execContribResend at h
  (repeat' split at h) <;> cases h <;> simp
theorem execSealSend_startUp (s : State) : ∀ s', execSealSend s = .next s' → s'.startUp = s.startUp := by
  intro t h
  unfold execSealSend at h
  (repeat' split at h) <;> cases h <;> simp
@[simp] theorem State.takeSeal_startUp (s : State) (m : Msg) : (State.takeSeal s m).startUp = s.startUp := by unfold State.takeSeal; simp
theorem execSeal_startUp (m : Msg) (s : State) : ∀ s', execSeal m s = .next s' → s'.startUp = s.startUp := by
  intro t h
  unfold execSeal at h
  (repeat' split at h) <;> cases h <;> simp
theorem execFirmwareEpochClose_startUp (cause : BitVec 8) (s : State) : ∀ s', execFirmwareEpochClose cause s = .next s' → s'.startUp = s.startUp := by
  intro t h
  unfold execFirmwareEpochClose at h
  cases h
  simp
@[simp] theorem State.askNext_startUp (s : State) (g : GatherReq) : (State.askNext s g).startUp = s.startUp := by
  unfold State.askNext
  try dsimp only
  (repeat' split) <;> first
    | simp
    | (rename_i h; have h' := congrArg (fun r => r.1.startUp) h; simp at h'; simp [h'])
    | simp_all
@[simp] theorem State.askGathers_startUp (s : State) (r : Run) : (State.askGathers s r).startUp = s.startUp := by unfold State.askGathers; simp
theorem execGatherReq_startUp (m : Msg) (s : State) : ∀ s', execGatherReq m s = .next s' → s'.startUp = s.startUp := by
  intro t h
  unfold execGatherReq at h
  (repeat' split at h) <;> cases h <;> simp
@[simp] theorem State.srcCrcOf_startUp (s : State) (g : GatherReq) (version : Nat) (body : List Byte) : (State.srcCrcOf s g version body).1.startUp = s.startUp := by
  unfold State.srcCrcOf
  try dsimp only
  (repeat' split) <;> first
    | simp
    | (rename_i h; have h' := congrArg (fun r => r.1.startUp) h; simp at h'; simp [h'])
    | simp_all
@[simp] theorem State.sendGather_startUp (s : State) (g : GatherReq) (bs : List Byte) : (State.sendGather s g bs).startUp = s.startUp := by unfold State.sendGather; simp
@[simp] theorem State.serveGather_startUp (s : State) (g : GatherReq) : (State.serveGather s g).startUp = s.startUp := by unfold State.serveGather; (repeat' split) <;> simp
theorem execGatherServe_startUp (s : State) : ∀ s', execGatherServe s = .next s' → s'.startUp = s.startUp := by
  intro t h
  unfold execGatherServe at h
  (repeat' split at h) <;> cases h <;> simp
@[simp] theorem State.gatherFails_startUp (s : State) (g : GatherReq) (a : Option Nat) (foundVer foundCrc : Nat) : (State.gatherFails s g a foundVer foundCrc).startUp = s.startUp := by unfold State.gatherFails; simp
@[simp] theorem State.gatherEnd_startUp (s : State) (dev : Nat) (h : List Byte) (landed trailer : Nat) : (State.gatherEnd s dev h landed trailer).startUp = s.startUp := by
  unfold State.gatherEnd
  try dsimp only
  (repeat' split) <;> first
    | simp
    | (rename_i h; have h' := congrArg (fun r => r.1.startUp) h; simp at h'; simp [h'])
    | simp_all
@[simp] theorem State.gatherLand_startUp (s : State) (m : Msg) : (State.gatherLand s m).startUp = s.startUp := by
  unfold State.gatherLand
  try dsimp only
  (repeat' split) <;> first
    | simp
    | (rename_i h; have h' := congrArg (fun r => r.1.startUp) h; simp at h'; simp [h'])
    | simp_all
@[simp] theorem State.gatherMessage_startUp (s : State) (m : Msg) : (State.gatherMessage s m).startUp = s.startUp := by
  unfold State.gatherMessage
  try dsimp only
  (repeat' split) <;> first
    | simp
    | (rename_i h; have h' := congrArg (fun r => r.1.startUp) h; simp at h'; simp [h'])
    | simp_all
theorem execGatherReceive_startUp (m : Msg) (s : State) : ∀ s', execGatherReceive m s = .next s' → s'.startUp = s.startUp := by
  intro t h
  unfold execGatherReceive at h
  (repeat' split at h) <;> cases h <;> simp
@[simp] theorem State.bwdRelease_startUp (s : State) (m : Msg) : (State.bwdRelease s m).startUp = s.startUp := by unfold State.bwdRelease; simp
theorem execBwdRelease_startUp (m : Msg) (s : State) : ∀ s', execBwdRelease m s = .next s' → s'.startUp = s.startUp := by
  intro t h
  unfold execBwdRelease at h
  (repeat' split at h) <;> cases h <;> simp

end Sys2Proof.Machine
end

