-- ==== Sys2Proof/Laws/FrameSlot.lean ====
section
/-! SUPPORT. What leaves the start-up registers, the row maps and the queue alone: the job slot and its epochs. -/

namespace Sys2Proof.Machine

@[simp] theorem State.countUpdate_startUp (s : State) (w : UpdPlan) (layer n : Nat) (u : UpdStats) : (State.countUpdate s w layer n u).startUp = s.startUp := by unfold State.countUpdate; simp
@[simp] theorem State.reportBlocks_startUp (s : State) (w : UpdPlan) (addr : Nat) (seqs : List Nat) : (State.reportBlocks s w addr seqs).startUp = s.startUp := by unfold State.reportBlocks; simp
@[simp] theorem State.countCodings_startUp (s : State) (w : UpdPlan) (n : Nat) (u : UpdStats) (rows : Bool) : (State.countCodings s w n u rows).startUp = s.startUp := by unfold State.countCodings; simp
@[simp] theorem State.watch_startUp (s : State) (r : UpdRec) (layer : Nat) (u : UpdStats) : (State.watch s r layer u).startUp = s.startUp := by unfold State.watch; simp
@[simp] theorem State.writeHeader_startUp (s : State) (hdr area step kNext : Nat) (u : UpdStats) : (State.writeHeader s hdr area step kNext u).startUp = s.startUp := by unfold State.writeHeader; simp
@[simp] theorem State.writeUpdate_startUp (s : State) (r : Run) (layer shard hdr : Nat) (o : Upd.Out) : (State.writeUpdate s r layer shard hdr o).startUp = s.startUp := by unfold State.writeUpdate; simp
@[simp] theorem State.shardSkip_startUp (s : State) (r : Run) (layer shard hdr : Nat) (w : UpdPlan) : (State.shardSkip s r layer shard hdr w).startUp = s.startUp := by unfold State.shardSkip; simp
@[simp] theorem State.shardUpdate_startUp (s : State) (r : Run) (layer shard hdr : Nat) (w : UpdPlan) : (State.shardUpdate s r layer shard hdr w).startUp = s.startUp := by unfold State.shardUpdate; simp
@[simp] theorem State.shardCommit_startUp (s : State) (layer shard : Nat) (w : UpdPlan) : (State.shardCommit s layer shard w).startUp = s.startUp := by
  unfold State.shardCommit
  try dsimp only
  (repeat' split) <;> first
    | simp
    | (rename_i h; have h' := congrArg (fun r => r.1.startUp) h; simp at h'; simp [h'])
    | simp_all
@[simp] theorem State.formWideCopy_startUp (s : State) (layer shard hdr : Nat) : (State.formWideCopy s layer shard hdr).startUp = s.startUp := by unfold State.formWideCopy; simp
theorem execShardCommit_startUp (layer shard : BitVec 16) (w : UpdPlan) (s : State) : ∀ s', execShardCommit layer shard w s = .next s' → s'.startUp = s.startUp := by
  intro t h
  unfold execShardCommit at h
  cases h
  simp
theorem execMirrorSend_startUp (s : State) : ∀ s', execMirrorSend s = .next s' → s'.startUp = s.startUp := by
  intro t h
  unfold execMirrorSend at h
  try dsimp only at h
  (repeat' split at h) <;> cases h <;> (repeat' split) <;> simp_all
@[simp] theorem State.writeDirectory_startUp (s : State) (kind key version crc : Nat) : (State.writeDirectory s kind key version crc).startUp = s.startUp := by
  unfold State.writeDirectory
  try dsimp only
  (repeat' split) <;> first
    | simp
    | (rename_i h; have h' := congrArg (fun r => r.1.startUp) h; simp at h'; simp [h'])
    | simp_all
@[simp] theorem State.mirrorUnit_startUp (s : State) (m : Msg) : (State.mirrorUnit s m).startUp = s.startUp := by
  unfold State.mirrorUnit
  try dsimp only
  (repeat' split) <;> first
    | simp
    | (rename_i h; have h' := congrArg (fun r => r.1.startUp) h; simp at h'; simp [h'])
    | simp_all
theorem execMirrorUnitReceive_startUp (m : Msg) (s : State) : ∀ s', execMirrorUnitReceive m s = .next s' → s'.startUp = s.startUp := by
  intro t h
  unfold execMirrorUnitReceive at h
  (repeat' split at h) <;> cases h <;> simp
@[simp] theorem State.grantChans_startUp (s : State) (k : Nat) : (State.grantChans s k).startUp = s.startUp := by unfold State.grantChans; simp
@[simp] theorem State.applyRank_startUp (s : State) (r : Nat) : (State.applyRank s r).startUp = s.startUp := by unfold State.applyRank; simp
@[simp] theorem State.initHeaders_startUp (s : State) : (State.initHeaders s).startUp = s.startUp := by
  unfold State.initHeaders
  try dsimp only
  refine foldl_startUp _ _ _ (fun x o => ?_)
  try dsimp only
  (repeat' split) <;> simp
@[simp] theorem State.sendEntry_startUp (s : State) (i : Nat) (e : PermEntry) : (State.sendEntry s i e).startUp = s.startUp := by unfold State.sendEntry; simp
@[simp] theorem State.noteEm_startUp (s : State) (bucket version : Nat) : (State.noteEm s bucket version).startUp = s.startUp := by unfold State.noteEm; simp
@[simp] theorem State.emptySpare_startUp (s : State) : (State.emptySpare s).startUp = s.startUp := by unfold State.emptySpare; simp
@[simp] theorem State.settle_startUp (s : State) (takeover : Bool) (e : PermEntry) : (s.settle takeover e).startUp = s.startUp := by
  unfold State.settle
  extract_lets +lift
  split
  · split <;> simp
  · split
    · rw [foldl_pair_startUp]
      · exact State.modSlot_startUp _ _ _
      · intro x c; simp
    · (repeat' split) <;> simp

@[simp] theorem State.finishActive_startUp (s : State) (opcode : Nat) : (State.finishActive s opcode).startUp = s.startUp := by unfold State.finishActive; (repeat' split) <;> simp
@[simp] theorem State.finishLoad_startUp (s : State) (e : EpochRec) : (State.finishLoad s e).startUp = s.startUp := by unfold State.finishLoad; simp
@[simp] theorem State.tellRing_startUp (s : State) (d : Nat) : (State.tellRing s d).startUp = s.startUp := by unfold State.tellRing; simp
@[simp] theorem State.unbar_startUp (s : State) : (State.unbar s).startUp = s.startUp := by unfold State.unbar; simp
@[simp] theorem State.adopt_startUp (s : State) (e : EpochRec) : (s.adopt e).startUp = s.startUp := by
  unfold State.adopt
  extract_lets +lift x0 s1 x me loading pm s2 role member s3 s4 s5 s6 s7 s8 s9 s10
  simp only [State.finishActive_startUp]
  have h1 : s1.startUp = s.startUp := by simp only [s1]; split <;> simp
  have h2 : s2.startUp = s.startUp := by simp only [s2]; simp [h1]
  have h3 : s3.startUp = s.startUp := by simp only [s3]; (repeat' split) <;> simp [h2]
  have h4 : s4.startUp = s.startUp := by simp only [s4]; (repeat' split) <;> simp [h3]
  have h5 : s5.startUp = s.startUp := by simp only [s5]; (repeat' split) <;> simp [h4]
  have h6 : s6.startUp = s.startUp := by simp only [s6]; (repeat' split) <;> simp [h5]
  have h7 : s7.startUp = s.startUp := by simp only [s7]; (repeat' split) <;> simp [h6]
  have h8 : s8.startUp = s.startUp := by simp only [s8]; (repeat' split) <;> simp [h7]
  have h9 : s9.startUp = s.startUp := by simp only [s9]; (repeat' split) <;> simp [h8]
  simp only [s10, State.unbar_startUp, h9]

@[simp] theorem State.tryAdopt_startUp (s : State) (e : EpochRec) : (s.tryAdopt e).startUp = s.startUp := by
  unfold State.tryAdopt
  split <;> simp

@[simp] theorem State.issueEpoch_startUp (s : State) (e : EpochRec) : (State.issueEpoch s e).startUp = s.startUp := by unfold State.issueEpoch; simp
theorem execNextEpochIssue_startUp (s : State) : ∀ s', execNextEpochIssue s = .next s' → s'.startUp = s.startUp := by
  intro t h
  unfold execNextEpochIssue at h
  try dsimp only at h
  (repeat' split at h) <;> cases h <;> (repeat' split) <;> simp_all
@[simp] theorem State.rejectEpoch_startUp (s : State) (dev epoch : Nat) : (State.rejectEpoch s dev epoch).startUp = s.startUp := by unfold State.rejectEpoch; simp
@[simp] theorem State.epochPart_startUp (s : State) (m : Msg) : (State.epochPart s m).startUp = s.startUp := by unfold State.epochPart; simp
@[simp] theorem State.fwMsg_startUp (s : State) (m : Msg) (op : Nat) (act : State → State) (hact : ∀ x0, (act x0).startUp = x0.startUp) : (State.fwMsg s m op act).startUp = s.startUp := by
  unfold State.fwMsg
  try dsimp only
  (repeat' (split <;> try (rename_i heq; replace heq := fst_startUp heq)))
  all_goals simp_all
theorem execEpochPart_startUp (m : Msg) (s : State) : ∀ s', execEpochPart m s = .next s' → s'.startUp = s.startUp := by
  intro t h
  unfold execEpochPart at h
  cases h
  simp
theorem execJobLoadEpochTimeout_startUp (s : State) : ∀ s', execJobLoadEpochTimeout s = .next s' → s'.startUp = s.startUp := by
  intro t h
  unfold execJobLoadEpochTimeout at h
  (repeat' split at h) <;> cases h <;> simp
@[simp] theorem State.recordDone_startUp (s : State) (dev : Nat) : (State.recordDone s dev).startUp = s.startUp := by unfold State.recordDone; simp
@[simp] theorem State.permDone_startUp (s : State) : (State.permDone s).startUp = s.startUp := by unfold State.permDone; simp
@[simp] theorem State.startPerm_startUp (s : State) (number : Nat) (takeover : Option (Nat × Nat)) (entries : List PermEntry) : (State.startPerm s number takeover entries).startUp = s.startUp := by unfold State.startPerm; simp
@[simp] theorem State.permFails_startUp (s : State) (i : Nat) (e : PermEntry) : (State.permFails s i e).startUp = s.startUp := by
  unfold State.permFails
  try dsimp only
  (repeat' split) <;> first
    | simp
    | (rename_i h; have h' := congrArg (fun r => r.1.startUp) h; simp at h'; simp [h'])
    | simp_all
@[simp] theorem State.permMessage_startUp (s : State) (m : Msg) : (s.permMessage m).startUp = s.startUp := by
  unfold State.permMessage
  dsimp only
  split
  · rfl
  · (repeat' split) <;> simp

theorem execPermuteEntryReceive_startUp (m : Msg) (s : State) : ∀ s', execPermuteEntryReceive m s = .next s' → s'.startUp = s.startUp := by
  intro t h
  unfold execPermuteEntryReceive at h
  try dsimp only at h
  (repeat' split at h) <;> cases h <;> (repeat' split) <;> first
    | rfl
    | (simp; done)
    | (have hb := fst_startUp ‹_ = ((_ : State), _)›; simp at hb; simp [hb]; done)
    | (simp_all; done)
theorem execPermuteDone_startUp (m : Msg) (s : State) : ∀ t, execPermuteDone m s = .next t → t.startUp = s.startUp := by
  intro t h
  unfold execPermuteDone at h
  refine ite_next_startUp h (fun h => next_startUp h rfl) (fun h => next_startUp h (State.agentMsg_startUp _ _ _ _ (fun x => ?_)))
  dsimp only
  (repeat' split) <;> simp

theorem execMemberLost_startUp (m : Msg) (s : State) : ∀ s', execMemberLost m s = .next s' → s'.startUp = s.startUp := by
  intro t h
  unfold execMemberLost at h
  cases h
  simp
theorem execLostMemberTimeout_startUp (dev : BitVec 14) (s : State) : ∀ s', execLostMemberTimeout dev s = .next s' → s'.startUp = s.startUp := by
  intro t h
  unfold execLostMemberTimeout at h
  try dsimp only at h
  (repeat' split at h) <;> cases h <;> (repeat' split) <;> simp_all
theorem execTakeover_startUp (lost : BitVec 14) (able : List (BitVec 14)) (s : State) :
    ∀ t, execTakeover lost able s = .next t → t.startUp = s.startUp := by
  intro t h
  unfold execTakeover at h
  extract_lets at h
  refine ite_next_startUp h (fun h => next_startUp h rfl) (fun h => ?_)
  split at h
  · exact next_startUp h (State.beyond_startUp ..)
  · refine ite_next_startUp h (fun h => next_startUp h (State.beyond_startUp ..)) (fun h => ?_)
    refine ite_next_startUp h (fun h => next_startUp h (State.beyond_startUp ..)) (fun h => ?_)
    refine ite_next_startUp h (fun h => next_startUp h (State.beyond_startUp ..)) (fun h => ?_)
    refine next_startUp h ?_
    rw [State.startPerm_startUp]
    split
    · exact State.applyRank_startUp ..
    · rfl

theorem execStepRepair_startUp (step : Word) (copies : Bool) (s : State) : ∀ s', execStepRepair step copies s = .next s' → s'.startUp = s.startUp := by
  intro t h
  unfold execStepRepair at h
  try dsimp only at h
  (repeat' split at h) <;> cases h <;> (repeat' split) <;> simp_all

end Sys2Proof.Machine
end

