-- ==== Sys2Proof/Laws/FrameOps.lean ====
section
/-! SUPPORT. What leaves the start-up registers, the row maps and the queue alone: the vector and product ops. -/

namespace Sys2Proof.Machine

@[simp] theorem vecRun_startUp (s : State) (p : Site) (fn : VecFn) (a : VecArgs) (late : Bool) : (vecRun s p fn a late).startUp = s.startUp := by
  unfold vecRun
  try dsimp only
  (repeat' split) <;> first
    | simp
    | (rename_i h; have h' := congrArg (fun r => r.1.startUp) h; simp at h'; simp [h'])
    | simp_all
@[simp] theorem vecOp_startUp (s : State) (p : Site) (h : OpHead) (fn : VecFn) (a : VecArgs) : (vecOp s p h fn a).startUp = s.startUp := by unfold vecOp; simp
@[simp] theorem redRun_startUp (s : State) (p : Site) (fn : RedFn) (a : RedArgs) : (redRun s p fn a).startUp = s.startUp := by unfold redRun; simp
@[simp] theorem redOp_startUp (s : State) (p : Site) (h : OpHead) (fn : RedFn) (a : RedArgs) : (redOp s p h fn a).startUp = s.startUp := by unfold redOp; simp
@[simp] theorem tloadRun_startUp (s : State) (p : Site) (a : VecArgs) : (tloadRun s p a).startUp = s.startUp := by
  unfold tloadRun
  try dsimp only
  (repeat' split) <;> first
    | simp
    | (rename_i h; have h' := congrArg (fun r => r.1.startUp) h; simp at h'; simp [h'])
    | simp_all
@[simp] theorem tloadOp_startUp (s : State) (p : Site) (h : OpHead) (a : VecArgs) : (tloadOp s p h a).startUp = s.startUp := by unfold tloadOp; simp
@[simp] theorem tstoreRun_startUp (s : State) (p : Site) (a : VecArgs) : (tstoreRun s p a).startUp = s.startUp := by
  unfold tstoreRun
  try dsimp only
  (repeat' split) <;> first
    | simp
    | (rename_i h; have h' := congrArg (fun r => r.1.startUp) h; simp at h'; simp [h'])
    | simp_all
@[simp] theorem tstoreOp_startUp (s : State) (p : Site) (h : OpHead) (a : VecArgs) : (tstoreOp s p h a).startUp = s.startUp := by unfold tstoreOp; simp
@[simp] theorem tredRun_startUp (s : State) (p : Site) (a : VecArgs) : (tredRun s p a).startUp = s.startUp := by
  unfold tredRun
  try dsimp only
  (repeat' split) <;> first
    | simp
    | (rename_i h; have h' := congrArg (fun r => r.1.startUp) h; simp at h'; simp [h'])
    | simp_all
@[simp] theorem tredOp_startUp (s : State) (p : Site) (h : OpHead) (a : VecArgs) : (tredOp s p h a).startUp = s.startUp := by unfold tredOp; simp
@[simp] theorem tbinRun_startUp (s : State) (p : Site) (a : VecArgs) : (tbinRun s p a).startUp = s.startUp := by
  unfold tbinRun
  try dsimp only
  (repeat' split) <;> first
    | simp
    | (rename_i h; have h' := congrArg (fun r => r.1.startUp) h; simp at h'; simp [h'])
    | simp_all
@[simp] theorem tbinExec_startUp (s : State) (p : Site) (h : OpHead) (a : VecArgs) : (tbinExec s p h a).startUp = s.startUp := by unfold tbinExec; simp
theorem execIadd_startUp (p : Site) (h : OpHead) (v : VecArgs) (s : State) : ∀ s', execIadd p h v s = .next s' → s'.startUp = s.startUp := by
  intro t h
  unfold execIadd at h
  cases h
  simp
theorem execIsub_startUp (p : Site) (h : OpHead) (v : VecArgs) (s : State) : ∀ s', execIsub p h v s = .next s' → s'.startUp = s.startUp := by
  intro t h
  unfold execIsub at h
  cases h
  simp
theorem execImul_startUp (p : Site) (h : OpHead) (v : VecArgs) (s : State) : ∀ s', execImul p h v s = .next s' → s'.startUp = s.startUp := by
  intro t h
  unfold execImul at h
  cases h
  simp
theorem execImin_startUp (p : Site) (h : OpHead) (v : VecArgs) (s : State) : ∀ s', execImin p h v s = .next s' → s'.startUp = s.startUp := by
  intro t h
  unfold execImin at h
  cases h
  simp
theorem execImax_startUp (p : Site) (h : OpHead) (v : VecArgs) (s : State) : ∀ s', execImax p h v s = .next s' → s'.startUp = s.startUp := by
  intro t h
  unfold execImax at h
  cases h
  simp
theorem execIabs_startUp (p : Site) (h : OpHead) (v : VecArgs) (s : State) : ∀ s', execIabs p h v s = .next s' → s'.startUp = s.startUp := by
  intro t h
  unfold execIabs at h
  cases h
  simp
theorem execIneg_startUp (p : Site) (h : OpHead) (v : VecArgs) (s : State) : ∀ s', execIneg p h v s = .next s' → s'.startUp = s.startUp := by
  intro t h
  unfold execIneg at h
  cases h
  simp
theorem execIcmpeq_startUp (p : Site) (h : OpHead) (v : VecArgs) (s : State) : ∀ s', execIcmpeq p h v s = .next s' → s'.startUp = s.startUp := by
  intro t h
  unfold execIcmpeq at h
  cases h
  simp
theorem execIcmplt_startUp (p : Site) (h : OpHead) (v : VecArgs) (s : State) : ∀ s', execIcmplt p h v s = .next s' → s'.startUp = s.startUp := by
  intro t h
  unfold execIcmplt at h
  cases h
  simp
theorem execShl_startUp (p : Site) (h : OpHead) (v : VecArgs) (s : State) : ∀ s', execShl p h v s = .next s' → s'.startUp = s.startUp := by
  intro t h
  unfold execShl at h
  cases h
  simp
theorem execShr_startUp (p : Site) (h : OpHead) (v : VecArgs) (s : State) : ∀ s', execShr p h v s = .next s' → s'.startUp = s.startUp := by
  intro t h
  unfold execShr at h
  cases h
  simp
theorem execSra_startUp (p : Site) (h : OpHead) (v : VecArgs) (s : State) : ∀ s', execSra p h v s = .next s' → s'.startUp = s.startUp := by
  intro t h
  unfold execSra at h
  cases h
  simp
theorem execAndOp_startUp (p : Site) (h : OpHead) (v : VecArgs) (s : State) : ∀ s', execAndOp p h v s = .next s' → s'.startUp = s.startUp := by
  intro t h
  unfold execAndOp at h
  cases h
  simp
theorem execOrOp_startUp (p : Site) (h : OpHead) (v : VecArgs) (s : State) : ∀ s', execOrOp p h v s = .next s' → s'.startUp = s.startUp := by
  intro t h
  unfold execOrOp at h
  cases h
  simp
theorem execXorOp_startUp (p : Site) (h : OpHead) (v : VecArgs) (s : State) : ∀ s', execXorOp p h v s = .next s' → s'.startUp = s.startUp := by
  intro t h
  unfold execXorOp at h
  cases h
  simp
theorem execAndn_startUp (p : Site) (h : OpHead) (v : VecArgs) (s : State) : ∀ s', execAndn p h v s = .next s' → s'.startUp = s.startUp := by
  intro t h
  unfold execAndn at h
  cases h
  simp
theorem execSel_startUp (p : Site) (h : OpHead) (v : VecArgs) (s : State) : ∀ s', execSel p h v s = .next s' → s'.startUp = s.startUp := by
  intro t h
  unfold execSel at h
  cases h
  simp
theorem execMov_startUp (p : Site) (h : OpHead) (v : VecArgs) (s : State) : ∀ s', execMov p h v s = .next s' → s'.startUp = s.startUp := by
  intro t h
  unfold execMov at h
  cases h
  simp
theorem execFadd_startUp (p : Site) (h : OpHead) (v : VecArgs) (s : State) : ∀ s', execFadd p h v s = .next s' → s'.startUp = s.startUp := by
  intro t h
  unfold execFadd at h
  cases h
  simp
theorem execFsub_startUp (p : Site) (h : OpHead) (v : VecArgs) (s : State) : ∀ s', execFsub p h v s = .next s' → s'.startUp = s.startUp := by
  intro t h
  unfold execFsub at h
  cases h
  simp
theorem execFmul_startUp (p : Site) (h : OpHead) (v : VecArgs) (s : State) : ∀ s', execFmul p h v s = .next s' → s'.startUp = s.startUp := by
  intro t h
  unfold execFmul at h
  cases h
  simp
theorem execFfma_startUp (p : Site) (h : OpHead) (v : VecArgs) (s : State) : ∀ s', execFfma p h v s = .next s' → s'.startUp = s.startUp := by
  intro t h
  unfold execFfma at h
  cases h
  simp
theorem execFmin_startUp (p : Site) (h : OpHead) (v : VecArgs) (s : State) : ∀ s', execFmin p h v s = .next s' → s'.startUp = s.startUp := by
  intro t h
  unfold execFmin at h
  cases h
  simp
theorem execFmax_startUp (p : Site) (h : OpHead) (v : VecArgs) (s : State) : ∀ s', execFmax p h v s = .next s' → s'.startUp = s.startUp := by
  intro t h
  unfold execFmax at h
  cases h
  simp
theorem execFabs_startUp (p : Site) (h : OpHead) (v : VecArgs) (s : State) : ∀ s', execFabs p h v s = .next s' → s'.startUp = s.startUp := by
  intro t h
  unfold execFabs at h
  cases h
  simp
theorem execFneg_startUp (p : Site) (h : OpHead) (v : VecArgs) (s : State) : ∀ s', execFneg p h v s = .next s' → s'.startUp = s.startUp := by
  intro t h
  unfold execFneg at h
  cases h
  simp
theorem execFcmpeq_startUp (p : Site) (h : OpHead) (v : VecArgs) (s : State) : ∀ s', execFcmpeq p h v s = .next s' → s'.startUp = s.startUp := by
  intro t h
  unfold execFcmpeq at h
  cases h
  simp
theorem execFcmplt_startUp (p : Site) (h : OpHead) (v : VecArgs) (s : State) : ∀ s', execFcmplt p h v s = .next s' → s'.startUp = s.startUp := by
  intro t h
  unfold execFcmplt at h
  cases h
  simp
theorem execFcmple_startUp (p : Site) (h : OpHead) (v : VecArgs) (s : State) : ∀ s', execFcmple p h v s = .next s' → s'.startUp = s.startUp := by
  intro t h
  unfold execFcmple at h
  cases h
  simp
theorem execCvtF32I32_startUp (p : Site) (h : OpHead) (v : VecArgs) (s : State) : ∀ s', execCvtF32I32 p h v s = .next s' → s'.startUp = s.startUp := by
  intro t h
  unfold execCvtF32I32 at h
  cases h
  simp
theorem execCvtI32F32_startUp (p : Site) (h : OpHead) (v : VecArgs) (s : State) : ∀ s', execCvtI32F32 p h v s = .next s' → s'.startUp = s.startUp := by
  intro t h
  unfold execCvtI32F32 at h
  cases h
  simp
theorem execCvtToBf16_startUp (p : Site) (h : OpHead) (v : VecArgs) (s : State) : ∀ s', execCvtToBf16 p h v s = .next s' → s'.startUp = s.startUp := by
  intro t h
  unfold execCvtToBf16 at h
  cases h
  simp
theorem execCvtToFp16_startUp (p : Site) (h : OpHead) (v : VecArgs) (s : State) : ∀ s', execCvtToFp16 p h v s = .next s' → s'.startUp = s.startUp := by
  intro t h
  unfold execCvtToFp16 at h
  cases h
  simp
theorem execCvtToE5m2_startUp (p : Site) (h : OpHead) (v : VecArgs) (s : State) : ∀ s', execCvtToE5m2 p h v s = .next s' → s'.startUp = s.startUp := by
  intro t h
  unfold execCvtToE5m2 at h
  cases h
  simp
theorem execCvtToE4m3_startUp (p : Site) (h : OpHead) (v : VecArgs) (s : State) : ∀ s', execCvtToE4m3 p h v s = .next s' → s'.startUp = s.startUp := by
  intro t h
  unfold execCvtToE4m3 at h
  cases h
  simp
theorem execCvtFromBf16_startUp (p : Site) (h : OpHead) (v : VecArgs) (s : State) : ∀ s', execCvtFromBf16 p h v s = .next s' → s'.startUp = s.startUp := by
  intro t h
  unfold execCvtFromBf16 at h
  cases h
  simp
theorem execCvtFromFp16_startUp (p : Site) (h : OpHead) (v : VecArgs) (s : State) : ∀ s', execCvtFromFp16 p h v s = .next s' → s'.startUp = s.startUp := by
  intro t h
  unfold execCvtFromFp16 at h
  cases h
  simp
theorem execCvtFromE5m2_startUp (p : Site) (h : OpHead) (v : VecArgs) (s : State) : ∀ s', execCvtFromE5m2 p h v s = .next s' → s'.startUp = s.startUp := by
  intro t h
  unfold execCvtFromE5m2 at h
  cases h
  simp
theorem execCvtFromE4m3_startUp (p : Site) (h : OpHead) (v : VecArgs) (s : State) : ∀ s', execCvtFromE4m3 p h v s = .next s' → s'.startUp = s.startUp := by
  intro t h
  unfold execCvtFromE4m3 at h
  cases h
  simp
theorem execMax_startUp (p : Site) (h : OpHead) (r : RedArgs) (s : State) : ∀ s', execMax p h r s = .next s' → s'.startUp = s.startUp := by
  intro t h
  unfold execMax at h
  cases h
  simp
theorem execMin_startUp (p : Site) (h : OpHead) (r : RedArgs) (s : State) : ∀ s', execMin p h r s = .next s' → s'.startUp = s.startUp := by
  intro t h
  unfold execMin at h
  cases h
  simp
theorem execMaxabs_startUp (p : Site) (h : OpHead) (r : RedArgs) (s : State) : ∀ s', execMaxabs p h r s = .next s' → s'.startUp = s.startUp := by
  intro t h
  unfold execMaxabs at h
  cases h
  simp
theorem execSum_startUp (p : Site) (h : OpHead) (r : RedArgs) (s : State) : ∀ s', execSum p h r s = .next s' → s'.startUp = s.startUp := by
  intro t h
  unfold execSum at h
  cases h
  simp
theorem execSsq_startUp (p : Site) (h : OpHead) (r : RedArgs) (s : State) : ∀ s', execSsq p h r s = .next s' → s'.startUp = s.startUp := by
  intro t h
  unfold execSsq at h
  cases h
  simp
theorem execNorm_startUp (p : Site) (h : OpHead) (r : RedArgs) (s : State) : ∀ s', execNorm p h r s = .next s' → s'.startUp = s.startUp := by
  intro t h
  unfold execNorm at h
  cases h
  simp
theorem execCountNf_startUp (p : Site) (h : OpHead) (r : RedArgs) (s : State) : ∀ s', execCountNf p h r s = .next s' → s'.startUp = s.startUp := by
  intro t h
  unfold execCountNf at h
  cases h
  simp
theorem execTap_startUp (p : Site) (h : OpHead) (fn : RedFn) (r : RedArgs) (s : State) : ∀ s', execTap p h fn r s = .next s' → s'.startUp = s.startUp := by
  intro t h
  unfold execTap at h
  cases h
  simp
theorem execTload_startUp (p : Site) (h : OpHead) (v : VecArgs) (s : State) : ∀ s', execTload p h v s = .next s' → s'.startUp = s.startUp := by
  intro t h
  unfold execTload at h
  cases h
  simp
theorem execTstore_startUp (p : Site) (h : OpHead) (v : VecArgs) (s : State) : ∀ s', execTstore p h v s = .next s' → s'.startUp = s.startUp := by
  intro t h
  unfold execTstore at h
  cases h
  simp
theorem execTred_startUp (p : Site) (h : OpHead) (v : VecArgs) (s : State) : ∀ s', execTred p h v s = .next s' → s'.startUp = s.startUp := by
  intro t h
  unfold execTred at h
  cases h
  simp
theorem execTbin_startUp (p : Site) (h : OpHead) (v : VecArgs) (s : State) : ∀ s', execTbin p h v s = .next s' → s'.startUp = s.startUp := by
  intro t h
  unfold execTbin at h
  cases h
  simp
@[simp] theorem State.payUnit_startUp (s : State) (p : Site) (cost : Nat) : (State.payUnit s p cost).1.startUp = s.startUp := by
  unfold State.payUnit
  try dsimp only
  (repeat' split) <;> first
    | simp
    | (rename_i h; have h' := congrArg (fun r => r.1.startUp) h; simp at h'; simp [h'])
    | simp_all
@[simp] theorem State.regatherFor_startUp (s : State) (p : Site) (a : MatmulArgs) : (State.regatherFor s p a).startUp = s.startUp := by unfold State.regatherFor; (repeat' split) <;> simp
theorem execMatmul_startUp (p : Site) (h : OpHead) (a : MatmulArgs) (s : State) : ∀ s', execMatmul p h a s = .next s' → s'.startUp = s.startUp := by
  intro t h
  unfold execMatmul at h
  cases h
  simp
@[simp] theorem State.dropTile_startUp (s : State) (p : Site) (d : TDesc) (j : JTile) : (State.dropTile s p d j).startUp = s.startUp := by unfold State.dropTile; simp
@[simp] theorem State.reportTile_startUp (s : State) (p : Site) (addr : Nat) (d : TDesc) (x : MatIn) : (State.reportTile s p addr d x).startUp = s.startUp := by unfold State.reportTile; simp
@[simp] theorem State.formChunk_startUp (s : State) (p : Site) (m : MatRun) (d : TDesc) (x y : MatIn) : (State.formChunk s p m d x y).1.startUp = s.startUp := by unfold State.formChunk; (repeat' split) <;> simp
@[simp] theorem State.tqReserve_startUp (s : State) (p : Site) : (State.tqReserve s p).1.startUp = s.startUp := by unfold State.tqReserve; simp
@[simp] theorem State.runChunks_startUp (fuel : Nat) (s : State) (p : Site) (m : MatRun) : (s.runChunks p fuel m).1.startUp = s.startUp := by
  induction fuel generalizing s m with
  | zero => rfl
  | succ k ih =>
    unfold State.runChunks
    extract_lets c r
    split
    · rfl
    · split
      · extract_lets kind s1 s2 s3
        split
        extract_lets owe
        split
        · split
          · rw [ih]; simp [r]
          · simp
        · split
          · have h1 : s1.startUp = s.startUp := by simp only [s1]; simp
            have h2 : s2.startUp = s.startUp := by simp only [s2]; split <;> simp [h1]
            have h3 : s3.startUp = s.startUp := by simp only [s3]; split <;> simp [h2]
            rw [ih, State.formChunk_startUp, h3]
          · split
            · rename_i h; rw [ih, fst_startUp h, State.payUnit_startUp]
            · rename_i h; rw [fst_startUp h, State.payUnit_startUp]
      · rfl

@[simp] theorem State.tqFill_startUp (s : State) (p : Site) (id : Nat) (acc : SMap Word) (tag : Long) : (State.tqFill s p id acc tag).startUp = s.startUp := by unfold State.tqFill; simp
@[simp] theorem State.bankDrain_startUp (s : State) (p : Site) (d : TDesc) (slot : Nat) (acc : SMap Word) : (State.bankDrain s p d slot acc).startUp = s.startUp := by unfold State.bankDrain; simp
@[simp] theorem State.bxDrain_startUp (s : State) (p : Site) (d : TDesc) (m : MatRun) (ch : Nat) : (State.bxDrain s p d m ch).startUp = s.startUp := by unfold State.bxDrain; simp
@[simp] theorem State.setFlight_startUp (s : State) (p : Site) (f g : InFlight) : (State.setFlight s p f g).startUp = s.startUp := by unfold State.setFlight; simp
@[simp] theorem State.deliverMat_startUp (s : State) (p : Site) (f : InFlight) (m : MatRun) : (State.deliverMat s p f m).startUp = s.startUp := by
  unfold State.deliverMat
  try dsimp only
  (repeat' split) <;> first
    | simp
    | (rename_i h; have h' := congrArg (fun r => r.1.startUp) h; simp at h'; simp [h'])
    | simp_all
@[simp] theorem State.runDeferred_startUp (s : State) (p : Site) (d : Deferred) : (State.runDeferred s p d).startUp = s.startUp := by unfold State.runDeferred; (repeat' split) <;> simp
@[simp] theorem State.payLater_startUp (n : Nat) (s : State) (p : Site) (cost : Nat) : (s.payLater p cost n).1.startUp = s.startUp := by
  induction n generalizing s with
  | zero => rfl
  | succ k ih =>
    unfold State.payLater
    split
    · rename_i h; rw [ih, fst_startUp h, State.payUnit_startUp]
    · rename_i h; rw [fst_startUp h, State.payUnit_startUp]

@[simp] theorem State.formWide_startUp (s : State) (p : Site) (w : WideRun) : (State.formWide s p w).1.startUp = s.startUp := by unfold State.formWide; simp
@[simp] theorem State.runWide_startUp (fuel : Nat) (s : State) (p : Site) (w : WideRun) : (s.runWide p fuel w).1.startUp = s.startUp := by
  induction fuel generalizing s w with
  | zero => rfl
  | succ k ih =>
    unfold State.runWide
    dsimp only
    (repeat' split) <;> simp_all [pair_eq]

@[simp] theorem State.deliverWide_startUp (s : State) (p : Site) (f : InFlight) (w : WideRun) : (State.deliverWide s p f w).startUp = s.startUp := by unfold State.deliverWide; (repeat' split) <;> simp
@[simp] theorem State.finishOp_startUp (s : State) (p : Site) (f : InFlight) : (s.finishOp p f).startUp = s.startUp := by
  unfold State.finishOp
  rcases h : s.payLater p f.unitCost f.units with ⟨s1, left⟩
  have h1 : s1.startUp = s.startUp := by rw [fst_startUp h, State.payLater_startUp]
  clear h
  dsimp only
  split
  · simp [h1]
  · split
    · simp [h1]
    · simp [h1]
    · rename_i m _
      rcases h2 : (s1.setFlight p f { f with units := 0 }).runChunks p (40 * 4096) m with ⟨s2, m2⟩
      have h3 : s2.startUp = s.startUp := by rw [fst_startUp h2, State.runChunks_startUp, State.setFlight_startUp, h1]
      clear h2
      dsimp only
      split <;> simp [h3]
    · (repeat' split) <;> simp [h1]
    · split <;> simp [h1]
    · simp [h1]
    · simp [h1]
    · simp [h1]

theorem execOpComplete_startUp (p : Site) (unit : OpUnit) (s : State) : ∀ s', execOpComplete p unit s = .next s' → s'.startUp = s.startUp := by
  intro t h
  unfold execOpComplete at h
  (repeat' split at h) <;> cases h <;> simp
theorem execWmatmul_startUp (p : Site) (h : OpHead) (a : WmatmulArgs) (s : State) : ∀ s', execWmatmul p h a s = .next s' → s'.startUp = s.startUp := by
  intro t h
  unfold execWmatmul at h
  cases h
  simp
@[simp] theorem State.deferShadow_startUp (s : State) (no : Nat) (on : Bool) : (State.deferShadow s no on).startUp = s.startUp := by unfold State.deferShadow; simp
theorem execShadowTile_startUp (p : Site) (a : ShadowArgs) (s : State) : ∀ s', execShadowTile p a s = .next s' → s'.startUp = s.startUp := by
  intro t h
  unfold execShadowTile at h
  try dsimp only at h
  (repeat' split at h) <;> cases h <;> (repeat' split) <;> simp_all
theorem execBankClear_startUp (x y : Fin 48) (s : State) : ∀ s', execBankClear x y s = .next s' → s'.startUp = s.startUp := by
  intro t h
  unfold execBankClear at h
  try dsimp only at h
  (repeat' split at h) <;> cases h <;> (repeat' split) <;> simp_all
@[simp] theorem State.spillOne_startUp (s : State) (no : Nat) (guest wide : Bool) : (State.spillOne s no guest wide).startUp = s.startUp := by
  unfold State.spillOne
  try dsimp only
  (repeat' split) <;> first
    | simp
    | (rename_i h; have h' := congrArg (fun r => r.1.startUp) h; simp at h'; simp [h'])
    | simp_all
@[simp] theorem State.spill_startUp (s : State) (no : Nat) (guest : Bool) : (State.spill s no guest).startUp = s.startUp := by
  unfold State.spill
  try dsimp only
  (repeat' split) <;> first
    | simp
    | (rename_i h; have h' := congrArg (fun r => r.1.startUp) h; simp at h'; simp [h'])
    | simp_all
@[simp] theorem State.reload_startUp (s : State) (no : Nat) (guest : Bool) : (State.reload s no guest).startUp = s.startUp := by unfold State.reload; simp
theorem execGuestEntry_startUp (x y : Fin 48) (s : State) : ∀ s', execGuestEntry x y s = .next s' → s'.startUp = s.startUp := by
  intro t h
  unfold execGuestEntry at h
  try dsimp only at h
  (repeat' split at h) <;> cases h <;> (repeat' split) <;> simp_all
theorem execGuestPreempt_startUp (x y : Fin 48) (cycles : Nat) (s : State) : ∀ s', execGuestPreempt x y cycles s = .next s' → s'.startUp = s.startUp := by
  intro t h
  unfold execGuestPreempt at h
  try dsimp only at h
  (repeat' split at h) <;> cases h <;> (repeat' split) <;> simp_all

end Sys2Proof.Machine
end

