-- ==== Sys2Proof/Laws/FrameModule.lean ====
section
/-! SUPPORT. What leaves the start-up registers, the row maps and the queue alone: faults, the governor and start-up. -/

namespace Sys2Proof.Machine

@[simp] theorem State.coreBeyond_startUp (s : State) (no : Nat) : (State.coreBeyond s no).startUp = s.startUp := by unfold State.coreBeyond; simp
theorem execCoreFault_startUp (x y : Fin 48) (s : State) : ∀ s', execCoreFault x y s = .next s' → s'.startUp = s.startUp := by
  intro t h
  unfold execCoreFault at h
  try dsimp only at h
  (repeat' split at h) <;> cases h <;> (repeat' split) <;> simp_all
@[simp] theorem State.moduleFault_startUp (s : State) : (State.moduleFault s).startUp = s.startUp := by unfold State.moduleFault; simp
theorem execModuleFault_startUp (s : State) : ∀ s', execModuleFault s = .next s' → s'.startUp = s.startUp := by
  intro t h
  unfold execModuleFault at h
  cases h
  simp
theorem execSeamReplay_startUp (die : Fin 25) (replays : Nat) (good : Bool) (s : State) : ∀ s', execSeamReplay die replays good s = .next s' → s'.startUp = s.startUp := by
  intro t h
  unfold execSeamReplay at h
  cases h
  simp
@[simp] theorem State.swappedCore_startUp (s : State) (no : Nat) : (State.swappedCore s no).startUp = s.startUp := by unfold State.swappedCore; simp
@[simp] theorem State.reloadCore_startUp (s : State) (k no : Nat) : (State.reloadCore s k no).startUp = s.startUp := by unfold State.reloadCore; simp
@[simp] theorem State.restartGuests_startUp (s : State) (no : Nat) : (State.restartGuests s no).startUp = s.startUp := by unfold State.restartGuests; simp
@[simp] theorem State.modGov_startUp (s : State) (d : Nat) (f : Gov → Gov) : (State.modGov s d f).startUp = s.startUp := by unfold State.modGov; simp
@[simp] theorem State.returnPurses_startUp (s : State) (d : Nat) : (State.returnPurses s d).startUp = s.startUp := by unfold State.returnPurses; simp
@[simp] theorem State.syncSurplus_startUp (s : State) (d : Nat) : (State.syncSurplus s d).startUp = s.startUp := by unfold State.syncSurplus; simp
theorem execBudgetRefill_startUp (die : Fin 16) (s : State) : ∀ s', execBudgetRefill die s = .next s' → s'.startUp = s.startUp := by
  intro t h
  unfold execBudgetRefill at h
  cases h
  simp
theorem execBudgetCorrection_startUp (die : Fin 16) (measured base : Nat) (s : State) : ∀ s', execBudgetCorrection die measured base s = .next s' → s'.startUp = s.startUp := by
  intro t h
  unfold execBudgetCorrection at h
  cases h
  simp
theorem execThermalSensorRead_startUp (die : Fin 16) (t : Int) (s : State) : ∀ s', execThermalSensorRead die t s = .next s' → s'.startUp = s.startUp := by
  intro t h
  unfold execThermalSensorRead at h
  cases h
  simp
theorem execPurseRefillRequest_startUp (p : Site) (s : State) : ∀ s', execPurseRefillRequest p s = .next s' → s'.startUp = s.startUp := by
  intro t h
  unfold execPurseRefillRequest at h
  try dsimp only at h
  (repeat' split at h) <;> cases h <;> (repeat' split) <;> simp_all
theorem State.serve_startUp (s : State) (d : Nat) (r : RefillReq) (grant : Int) : ∀ s', State.serve s d r grant = some s' → s'.startUp = s.startUp := by
  intro t h
  unfold State.serve at h
  (repeat' split at h) <;> simp at h
  all_goals (subst h; simp)
@[simp] theorem State.serveMain_startUp (l : List RefillReq) (s : State) (d : Nat) : (s.serveMain d l).startUp = s.startUp := by
  induction l generalizing s with
  | nil => rfl
  | cons r t ih =>
    unfold State.serveMain
    split
    · rename_i h; rw [ih, State.serve_startUp _ _ _ _ _ h]
    · rfl

@[simp] theorem State.serveGuests_startUp (l : List RefillReq) (s : State) (d : Nat) : (s.serveGuests d l).startUp = s.startUp := by
  induction l generalizing s with
  | nil => rfl
  | cons r t ih =>
    unfold State.serveGuests
    split
    · rename_i h; rw [ih, State.serve_startUp _ _ _ _ _ h]
    · rw [ih]

theorem execGovernorRound_startUp (die : Fin 16) (s : State) : ∀ s', execGovernorRound die s = .next s' → s'.startUp = s.startUp := by
  intro t h
  unfold execGovernorRound at h
  try dsimp only at h
  (repeat' split at h) <;> cases h <;> (repeat' split) <;> simp_all
@[simp] theorem State.stepMemCeil_startUp (s : State) (d : Nat) : (State.stepMemCeil s d).startUp = s.startUp := by unfold State.stepMemCeil; (repeat' split) <;> simp
theorem execGovernorWindow_startUp (die : Fin 16) (s : State) : ∀ s', execGovernorWindow die s = .next s' → s'.startUp = s.startUp := by
  intro t h
  unfold execGovernorWindow at h
  cases h
  simp
@[simp] theorem State.modBoot_startUp (s : State) (f : Boot → Boot) : (s.modBoot f).startUp = ((f s.boot).legalKey, s.rows, s.pending) := (rfl)

@[simp] theorem State.bootCount_startUp (s : State) (id : Nat) (n : Nat) : (State.bootCount s id n).startUp = s.startUp := by unfold State.bootCount; simp
@[simp] theorem State.logEnd_startUp (s : State) : (State.logEnd s).startUp = s.startUp := by unfold State.logEnd; simp
@[simp] theorem State.diesAt_startUp (s : State) (r : Nat) : (State.diesAt s r).startUp = s.startUp := by unfold State.diesAt; simp
@[simp] theorem State.newNonce_startUp (s : State) : (State.newNonce s).startUp = s.startUp := by unfold State.newNonce; simp
theorem execCrystalStart_startUp (s : State) : ∀ s', execCrystalStart s = .next s' → s'.startUp = s.startUp := by
  intro t h
  unfold execCrystalStart at h
  try dsimp only at h
  (repeat' split at h) <;> cases h <;> first
    | rfl
    | (simp; done)
    | (have hb := fst_startUp ‹_ = ((_ : State), _)›; simp at hb; simp [hb]; done)
    | (simp_all; done)
theorem execRefclkStop_startUp (s : State) : ∀ s', execRefclkStop s = .next s' → s'.startUp = s.startUp := by
  intro t h
  unfold execRefclkStop at h
  try dsimp only at h
  (repeat' split at h) <;> cases h <;> first
    | rfl
    | (simp; done)
    | (have hb := fst_startUp ‹_ = ((_ : State), _)›; simp at hb; simp [hb]; done)
    | (simp_all; done)
@[simp] theorem State.trainPort_startUp (s : State) (ports : List MemTrain) (p : Nat) : (State.trainPort s ports p).startUp = s.startUp := by
  unfold State.trainPort
  try dsimp only
  (repeat' split) <;> first
    | rfl
    | (simp; done)
    | (have hb := fst_startUp ‹_ = ((_ : State), _)›; simp at hb; simp [hb]; done)
    | (simp_all; done)
theorem execTestReset_startUp (s : State) : ∀ s', execTestReset s = .next s' → s'.startUp = s.startUp := by
  intro t h
  unfold execTestReset at h
  try dsimp only at h
  (repeat' split at h) <;> cases h <;> first
    | rfl
    | (simp; done)
    | (have hb := fst_startUp ‹_ = ((_ : State), _)›; simp at hb; simp [hb]; done)
    | (simp_all; done)

end Sys2Proof.Machine
end

