-- ==== Sys2Proof/Laws/FrameMail.lean ====
section
/-! SUPPORT. What leaves the start-up registers, the row maps and the queue alone: the mailbox, its commands and the step boundary. -/

namespace Sys2Proof.Machine

@[simp] theorem State.ringError_startUp (s : State) (r cause : Nat) : (State.ringError s r cause).startUp = s.startUp := by unfold State.ringError; simp
@[simp] theorem State.ringStop_startUp (s : State) (r cause : Nat) : (State.ringStop s r cause).startUp = s.startUp := by unfold State.ringStop; simp
@[simp] theorem State.ringIgnored_startUp (s : State) (r : Nat) : (State.ringIgnored s r).startUp = s.startUp := by unfold State.ringIgnored; simp
@[simp] theorem State.ringLook_startUp (s : State) (r : Nat) : (State.ringLook s r).startUp = s.startUp := by unfold State.ringLook; simp
@[simp] theorem State.ringCtrl_startUp (s : State) (r v : Nat) : (State.ringCtrl s r v).startUp = s.startUp := by unfold State.ringCtrl; simp
@[simp] theorem State.ringBase_startUp (s : State) (r : Nat) (high : Bool) (v : Nat) : (State.ringBase s r high v).startUp = s.startUp := by unfold State.ringBase; simp
@[simp] theorem State.ringDoorbell_startUp (s : State) (r : Nat) (v : Word) : (State.ringDoorbell s r v).startUp = s.startUp := by unfold State.ringDoorbell; simp
@[simp] theorem State.ringErrClear_startUp (s : State) (r : Nat) : (State.ringErrClear s r).startUp = s.startUp := by unfold State.ringErrClear; simp
theorem execRingEnable_startUp (fn : Fin 4) (ring : Fin 11) (v : Word) (s : State) : ∀ s', execRingEnable fn ring v s = .next s' → s'.startUp = s.startUp := by
  intro t h
  unfold execRingEnable at h
  cases h
  simp
theorem execRingDisable_startUp (fn : Fin 4) (ring : Fin 11) (v : Word) (s : State) : ∀ s', execRingDisable fn ring v s = .next s' → s'.startUp = s.startUp := by
  intro t h
  unfold execRingDisable at h
  cases h
  simp
theorem execRingBaseWrite_startUp (fn : Fin 4) (ring : Fin 11) (reg : RingReg) (v : Word) (s : State) : ∀ s', execRingBaseWrite fn ring reg v s = .next s' → s'.startUp = s.startUp := by
  intro t h
  unfold execRingBaseWrite at h
  try dsimp only at h
  (repeat' split at h) <;> cases h <;> (repeat' split) <;> simp_all
theorem execDoorbell_startUp (fn : Fin 4) (ring : Fin 11) (v : Word) (s : State) : ∀ s', execDoorbell fn ring v s = .next s' → s'.startUp = s.startUp := by
  intro t h
  unfold execDoorbell at h
  cases h
  simp
theorem execRingErrClear_startUp (fn : Fin 4) (ring : Fin 11) (s : State) : ∀ s', execRingErrClear fn ring s = .next s' → s'.startUp = s.startUp := by
  intro t h
  unfold execRingErrClear at h
  cases h
  simp
@[simp] theorem State.turnAway_startUp (s : State) (c : Cmd) (status detail : Nat) : (State.turnAway s c status detail).startUp = s.startUp := by unfold State.turnAway; simp
theorem execCommandFetch_startUp (ring : Fin 5) (pcie : Bool) (s : State) : ∀ s', execCommandFetch ring pcie s = .next s' → s'.startUp = s.startUp := by
  intro t h
  unfold execCommandFetch at h
  try dsimp only at h
  (repeat' split at h) <;> cases h <;> (repeat' split) <;> simp_all
theorem execIrqCoalesce_startUp (ring : Fin 11) (s : State) : ∀ s', execIrqCoalesce ring s = .next s' → s'.startUp = s.startUp := by
  intro t h
  unfold execIrqCoalesce at h
  try dsimp only at h
  (repeat' split at h) <;> cases h <;> (repeat' split) <;> simp_all
@[simp] theorem State.flushEvents_startUp (s : State) (fuel : Nat) : (State.flushEvents s fuel).startUp = s.startUp := by
  induction fuel generalizing s with
  | zero => rfl
  | succ n ih => unfold State.flushEvents; (repeat' split) <;> simp [ih]
theorem execEventFlush_startUp (pcie : Bool) (s : State) : ∀ s', execEventFlush pcie s = .next s' → s'.startUp = s.startUp := by
  intro t h
  unfold execEventFlush at h
  (repeat' split at h) <;> cases h <;> simp
theorem execReconcileSweep_startUp (s : State) : ∀ s', execReconcileSweep s = .next s' → s'.startUp = s.startUp := by
  intro t h
  unfold execReconcileSweep at h
  cases h
  simp
theorem execVfEnable_startUp (k : Fin 3) (en : Bool) (s : State) : ∀ s', execVfEnable k en s = .next s' → s'.startUp = s.startUp := by
  intro t h
  unfold execVfEnable at h
  cases h
  simp
@[simp] theorem State.command_startUp (s : State) (r op : Nat) (act : State → Cmd → State) (hact : ∀ x0 x1, (act x0 x1).startUp = x0.startUp) : (State.command s r op act).startUp = s.startUp := by
  unfold State.command
  try dsimp only
  (repeat' split) <;> first
    | simp
    | (rename_i h; have h' := congrArg (fun r => r.1.startUp) h; simp at h'; simp [h'])
    | simp_all
theorem execNopCommand_startUp (ring : Fin 5) (s : State) : ∀ s', execNopCommand ring s = .next s' → s'.startUp = s.startUp := by
  intro t h
  unfold execNopCommand at h
  cases h
  simp
theorem execIdentify_startUp (s : State) : ∀ s', execIdentify s = .next s' → s'.startUp = s.startUp := by
  intro t h
  unfold execIdentify at h
  cases h
  simp
@[simp] theorem State.endLinkConfig_startUp (s : State) : (State.endLinkConfig s).startUp = s.startUp := by
  unfold State.endLinkConfig
  try dsimp only
  (repeat' split) <;> first
    | simp
    | (rename_i h; have h' := congrArg (fun r => r.1.startUp) h; simp at h'; simp [h'])
    | simp_all
theorem execLinkConfig_startUp (s : State) : ∀ s', execLinkConfig s = .next s' → s'.startUp = s.startUp := by
  intro t h
  unfold execLinkConfig at h
  cases h
  simp
theorem execPartitionCreate_startUp (s : State) : ∀ s', execPartitionCreate s = .next s' → s'.startUp = s.startUp := by
  intro t h
  refine next_startUp h (State.command_startUp _ _ _ _ (fun x c => ?_))
  extract_lets
  (repeat' split) <;> first
    | exact State.complete_startUp ..
    | (rw [State.finish_startUp]; exact State.modMem_startUp ..)

theorem execPartitionDestroy_startUp (s : State) : ∀ s', execPartitionDestroy s = .next s' → s'.startUp = s.startUp := by
  intro t h
  unfold execPartitionDestroy at h
  cases h
  simp
theorem execScrubPartition_startUp (s : State) : ∀ s', execScrubPartition s = .next s' → s'.startUp = s.startUp := by
  intro t h
  unfold execScrubPartition at h
  cases h
  simp
theorem execScrubDone_startUp (part : Fin 8) (s : State) : ∀ s', execScrubDone part s = .next s' → s'.startUp = s.startUp := by
  intro t h
  unfold execScrubDone at h
  refine ite_next_startUp h (fun h => next_startUp h rfl) (fun h => next_startUp h ?_)
  split
  · rw [State.finish_startUp, State.modMem_startUp]
    refine foldl_startUp _ _ _ (fun x q => ?_)
    split <;> simp
  · rw [State.modMem_startUp]
    refine foldl_startUp _ _ _ (fun x q => ?_)
    split <;> simp

theorem execMemPortSetOffline_startUp (s : State) : ∀ s', execMemPortSetOffline s = .next s' → s'.startUp = s.startUp := by
  intro t h
  unfold execMemPortSetOffline at h
  (repeat' split at h) <;> cases h <;> simp
theorem execMemPortSetReturn_startUp (rate : Option (BitVec 3)) (s : State) : ∀ s', execMemPortSetReturn rate s = .next s' → s'.startUp = s.startUp := by
  intro t h
  unfold execMemPortSetReturn at h
  (repeat' split at h) <;> cases h <;> simp
@[simp] theorem State.deepen_startUp (s : State) (kind index t : Nat) : (State.deepen s kind index t).startUp = s.startUp := by unfold State.deepen; simp
theorem execPowerSet_startUp (remain : Nat) (s : State) : ∀ s', execPowerSet remain s = .next s' → s'.startUp = s.startUp := by
  intro t h
  unfold execPowerSet at h
  cases h
  simp
theorem execGovernorSet_startUp (s : State) : ∀ s', execGovernorSet s = .next s' → s'.startUp = s.startUp := by
  intro t h
  unfold execGovernorSet at h
  cases h
  refine State.command_startUp _ _ _ _ (fun x c => ?_)
  extract_lets
  (repeat' split) <;> simp
@[simp] theorem State.readTelemetry_startUp (s : State) (c : Cmd) (clear : Bool) : (State.readTelemetry s c clear).startUp = s.startUp := by unfold State.readTelemetry; simp
@[simp] theorem State.telemetryRead_startUp (s : State) (r : Nat) (clear : Bool) : (State.telemetryRead s r clear).startUp = s.startUp := by unfold State.telemetryRead; (repeat' split) <;> simp
theorem execTelemetryRead_startUp (ring : Fin 5) (s : State) : ∀ s', execTelemetryRead ring s = .next s' → s'.startUp = s.startUp := by
  intro t h
  unfold execTelemetryRead at h
  cases h
  simp
theorem execTelemetryReadClear_startUp (ring : Fin 5) (s : State) : ∀ s', execTelemetryReadClear ring s = .next s' → s'.startUp = s.startUp := by
  intro t h
  unfold execTelemetryReadClear at h
  cases h
  simp
@[simp] theorem State.wrongState_startUp (s : State) (c : Cmd) : (State.wrongState s c).startUp = s.startUp := by unfold State.wrongState; simp
@[simp] theorem State.loadSlot_startUp (s : State) (k : Nat) : (State.loadSlot s k).startUp = s.startUp := by unfold State.loadSlot; simp
@[simp] theorem State.beginLoad_startUp (s : State) (c : Cmd) (b : List Byte) (part : Nat) : (State.beginLoad s c b part).startUp = s.startUp := by unfold State.beginLoad; simp
@[simp] theorem State.wakePorts_startUp (s : State) : (State.wakePorts s).startUp = s.startUp := by unfold State.wakePorts; simp
@[simp] theorem State.guestLoad_startUp (s : State) (c : Cmd) (b : List Byte) (part : Nat) : (State.guestLoad s c b part).startUp = s.startUp := by unfold State.guestLoad; simp
theorem execJobLoad_startUp (ring : Fin 4) (s : State) : ∀ s', execJobLoad ring s = .next s' → s'.startUp = s.startUp := by
  intro t h
  unfold execJobLoad at h
  cases h
  refine State.command_startUp _ _ _ _ (fun x c => ?_)
  extract_lets
  (repeat' split) <;> simp
@[simp] theorem State.revokeChans_startUp (s : State) (k : Nat) (keep : List Nat) : (State.revokeChans s k keep).startUp = s.startUp := by unfold State.revokeChans; simp
@[simp] theorem State.unbind_startUp (s : State) (k : Nat) : (State.unbind s k).startUp = s.startUp := by unfold State.unbind; simp
@[simp] theorem State.abortCmds_startUp (s : State) (r : Nat) (but : Cmd) : (State.abortCmds s r but).startUp = s.startUp := by unfold State.abortCmds; simp
@[simp] theorem State.unloadSlot_startUp (s : State) (k : Nat) : (State.unloadSlot s k).startUp = s.startUp := by unfold State.unloadSlot; simp
theorem execJobUnload_startUp (ring : Fin 4) (s : State) : ∀ s', execJobUnload ring s = .next s' → s'.startUp = s.startUp := by
  intro t h
  unfold execJobUnload at h
  cases h
  simp
@[simp] theorem State.applyMap_startUp (s : State) (k : Nat) (b : List Byte) : (State.applyMap s k b).startUp = s.startUp := by unfold State.applyMap; simp
@[simp] theorem State.actMap_startUp (s : State) (c : Cmd) : (State.actMap s c).startUp = s.startUp := by
  unfold State.actMap
  try dsimp only
  (repeat' split) <;> first
    | simp
    | (rename_i h; have h' := congrArg (fun r => r.1.startUp) h; simp at h'; simp [h'])
    | simp_all
@[simp] theorem State.actMode_startUp (s : State) (c : Cmd) : (State.actMode s c).startUp = s.startUp := by unfold State.actMode; simp
@[simp] theorem State.actPolicy_startUp (s : State) (c : Cmd) : (State.actPolicy s c).startUp = s.startUp := by
  unfold State.actPolicy
  try dsimp only
  (repeat' split) <;> first
    | simp
    | (rename_i h; have h' := congrArg (fun r => r.1.startUp) h; simp at h'; simp [h'])
    | simp_all
@[simp] theorem State.actEpoch_startUp (s : State) (c : Cmd) : (State.actEpoch s c).startUp = s.startUp := by unfold State.actEpoch; simp
@[simp] theorem State.actSpares_startUp (s : State) (c : Cmd) : (State.actSpares s c).startUp = s.startUp := by
  unfold State.actSpares
  try dsimp only
  (repeat' split) <;> first
    | simp
    | (rename_i h; have h' := congrArg (fun r => r.1.startUp) h; simp at h'; simp [h'])
    | simp_all
@[simp] theorem State.actBoundary_startUp (s : State) (c : Cmd) : (State.actBoundary s c).startUp = s.startUp := by unfold State.actBoundary; simp
@[simp] theorem State.boundaryRow_startUp (s : State) (r op : Nat) : (State.boundaryRow s r op).startUp = s.startUp := by unfold State.boundaryRow; (repeat' split) <;> simp
theorem execJobMap_startUp (ring : Fin 4) (s : State) : ∀ s', execJobMap ring s = .next s' → s'.startUp = s.startUp := by
  intro t h
  unfold execJobMap at h
  cases h
  simp
theorem execLayerMode_startUp (ring : Fin 4) (s : State) : ∀ s', execLayerMode ring s = .next s' → s'.startUp = s.startUp := by
  intro t h
  unfold execLayerMode at h
  cases h
  simp
theorem execFallbackPolicy_startUp (ring : Fin 4) (s : State) : ∀ s', execFallbackPolicy ring s = .next s' → s'.startUp = s.startUp := by
  intro t h
  unfold execFallbackPolicy at h
  cases h
  simp
theorem execEpochIssue_startUp (s : State) : ∀ s', execEpochIssue s = .next s' → s'.startUp = s.startUp := by
  intro t h
  unfold execEpochIssue at h
  cases h
  simp
theorem execSpareSet_startUp (s : State) : ∀ s', execSpareSet s = .next s' → s'.startUp = s.startUp := by
  intro t h
  unfold execSpareSet at h
  cases h
  simp
@[simp] theorem State.stateCopy_startUp (s : State) (c : Cmd) (out : Bool) : (State.stateCopy s c out).startUp = s.startUp := by unfold State.stateCopy; simp
@[simp] theorem State.copyRow_startUp (s : State) (r : Nat) (out : Bool) : (State.copyRow s r out).startUp = s.startUp := by unfold State.copyRow; (repeat' split) <;> simp
theorem execStateCopyIn_startUp (ring : Fin 4) (s : State) : ∀ s', execStateCopyIn ring s = .next s' → s'.startUp = s.startUp := by
  intro t h
  unfold execStateCopyIn at h
  cases h
  simp
theorem execStateCopyOut_startUp (ring : Fin 4) (s : State) : ∀ s', execStateCopyOut ring s = .next s' → s'.startUp = s.startUp := by
  intro t h
  unfold execStateCopyOut at h
  cases h
  simp
theorem execRunStep_startUp (s : State) : ∀ s', execRunStep s = .next s' → s'.startUp = s.startUp := by
  intro t h
  unfold execRunStep at h
  cases h
  refine State.command_startUp _ _ _ _ (fun x c => ?_)
  extract_lets
  (repeat' split) <;> simp
theorem execCancelSteps_startUp (s : State) : ∀ s', execCancelSteps s = .next s' → s'.startUp = s.startUp := by
  intro t h
  unfold execCancelSteps at h
  cases h
  simp
theorem execEpochClose_startUp (s : State) : ∀ s', execEpochClose s = .next s' → s'.startUp = s.startUp := by
  intro t h
  unfold execEpochClose at h
  cases h
  simp
@[simp] theorem State.startReshard_startUp (s : State) : (State.startReshard s).startUp = s.startUp := by
  unfold State.startReshard
  try dsimp only
  (repeat' split) <;> first
    | simp
    | (rename_i h; have h' := congrArg (fun r => r.1.startUp) h; simp at h'; simp [h'])
    | simp_all
theorem execReshard_startUp (s : State) : ∀ s', execReshard s = .next s' → s'.startUp = s.startUp := by
  intro t h
  unfold execReshard at h
  try dsimp only at h
  (repeat' split at h) <;> cases h <;> (repeat' split) <;> simp_all
theorem execJournalRead_startUp (s : State) : ∀ s', execJournalRead s = .next s' → s'.startUp = s.startUp := by
  intro t h
  unfold execJournalRead at h
  cases h
  simp
theorem execReplayStep_startUp (s : State) : ∀ s', execReplayStep s = .next s' → s'.startUp = s.startUp := by
  intro t h
  unfold execReplayStep at h
  cases h
  refine State.command_startUp _ _ _ _ (fun x c => ?_)
  extract_lets
  (repeat' split) <;> simp
theorem execRollbackRelease_startUp (s : State) : ∀ s', execRollbackRelease s = .next s' → s'.startUp = s.startUp := by
  intro t h
  unfold execRollbackRelease at h
  cases h
  simp
@[simp] theorem State.evalProd_startUp (s : State) (skip : Bool) (key : Nat) : (State.evalProd s skip key).startUp = s.startUp := by
  unfold State.evalProd
  try dsimp only
  (repeat' split) <;> first
    | simp
    | (rename_i h; have h' := congrArg (fun r => r.1.startUp) h; simp at h'; simp [h'])
    | simp_all
@[simp] theorem State.scaleEvent_startUp (s : State) (k : Nat) (skip replay : Bool) (layer : Nat) : (State.scaleEvent s k skip replay layer).startUp = s.startUp := by unfold State.scaleEvent; simp
@[simp] theorem State.layerReports_startUp (s : State) (skip replay : Bool) (layer : Nat) : (State.layerReports s skip replay layer).startUp = s.startUp := by unfold State.layerReports; simp
@[simp] theorem State.shadowReport_startUp (s : State) (skip replay : Bool) (key : Nat) : (State.shadowReport s skip replay key).startUp = s.startUp := by unfold State.shadowReport; simp
@[simp] theorem State.absorbedReports_startUp (s : State) : (State.absorbedReports s).startUp = s.startUp := by unfold State.absorbedReports; simp
@[simp] theorem State.stepReports_startUp (s : State) : (State.stepReports s).startUp = s.startUp := by unfold State.stepReports; (repeat' split) <;> simp
@[simp] theorem State.replayModes_startUp (s : State) (step : Nat) : (State.replayModes s step).startUp = s.startUp := by unfold State.replayModes; (repeat' split) <;> simp
@[simp] theorem State.lateCopies_startUp (s : State) : (State.lateCopies s).startUp = s.startUp := by unfold State.lateCopies; simp
@[simp] theorem State.applyBoundary_startUp (s : State) : (State.applyBoundary s).startUp = s.startUp := by unfold State.applyBoundary; (repeat' split) <;> simp
@[simp] theorem State.coreRelease_startUp (s : State) (step : Nat) (clear : Bool) (no : Nat) : (State.coreRelease s step clear no).startUp = s.startUp := by
  unfold State.coreRelease
  try dsimp only
  (repeat' split) <;> first
    | simp
    | (rename_i h; have h' := congrArg (fun r => r.1.startUp) h; simp at h'; simp [h'])
    | simp_all
@[simp] theorem State.mark_startUp (s : State) : (State.mark s).startUp = s.startUp := by unfold State.mark; simp
@[simp] theorem State.release'_br (s : State) (r : Run) : (State.release' s r).startUp = s.startUp := by unfold State.release'; simp
theorem execStepRelease_startUp (s : State) : ∀ s', execStepRelease s = .next s' → s'.startUp = s.startUp := by
  intro t h
  unfold execStepRelease at h
  try dsimp only at h
  (repeat' split at h) <;> cases h <;> (repeat' split) <;> simp_all

end Sys2Proof.Machine
end

