-- ==== Sys2Proof/Laws/FrameHost.lean ====
section
/-! SUPPORT. What leaves the start-up registers, the row maps and the queue alone: the host port, the links, the tile ops and the clock. -/

namespace Sys2Proof.Machine

theorem execNop_startUp (p : Site) (h : OpHead) (s : State) : ∀ s', execNop p h s = .next s' → s'.startUp = s.startUp := by
  intro t h
  unfold execNop at h
  cases h
  simp
theorem execWait_startUp (p : Site) (h : OpHead) (timeout : BitVec 32) (d : BitVec 4) (s : State) : ∀ s', execWait p h timeout d s = .next s' → s'.startUp = s.startUp := by
  intro t h
  unfold execWait at h
  cases h
  simp
theorem execWaitStep_startUp (p : Site) (h : OpHead) (timeout : BitVec 32) (d : BitVec 4) (s : State) : ∀ s', execWaitStep p h timeout d s = .next s' → s'.startUp = s.startUp := by
  intro t h
  unfold execWaitStep at h
  cases h
  simp
@[simp] theorem State.waitTimeout_startUp (s : State) (p : Site) : (State.waitTimeout s p).startUp = s.startUp := by
  unfold State.waitTimeout
  try dsimp only
  (repeat' split) <;> first
    | simp
    | (rename_i h; have h' := congrArg (fun r => r.1.startUp) h; simp at h'; simp [h'])
    | simp_all
theorem execWaitTimeout_startUp (p : Site) (s : State) : ∀ s', execWaitTimeout p s = .next s' → s'.startUp = s.startUp := by
  intro t h
  unfold execWaitTimeout at h
  cases h
  simp
theorem execLoop_startUp (p : Site) (h : OpHead) (a : LoopArgs) (s : State) : ∀ s', execLoop p h a s = .next s' → s'.startUp = s.startUp := by
  intro t h
  unfold execLoop at h
  cases h
  simp
theorem execBranch_startUp (p : Site) (h : OpHead) (a : BranchArgs) (s : State) : ∀ s', execBranch p h a s = .next s' → s'.startUp = s.startUp := by
  intro t h
  unfold execBranch at h
  cases h
  simp
theorem execSets_startUp (p : Site) (h : OpHead) (d : BitVec 4) (imm : BitVec 32) (s : State) : ∀ s', execSets p h d imm s = .next s' → s'.startUp = s.startUp := by
  intro t h
  unfold execSets at h
  cases h
  simp
theorem execAdds_startUp (p : Site) (h : OpHead) (a : AddsArgs) (s : State) : ∀ s', execAdds p h a s = .next s' → s'.startUp = s.startUp := by
  intro t h
  unfold execAdds at h
  cases h
  simp
theorem execSload_startUp (p : Site) (h : OpHead) (d : BitVec 4) (src : Lsa) (word : BitVec 6) (s : State) : ∀ s', execSload p h d src word s = .next s' → s'.startUp = s.startUp := by
  intro t h
  unfold execSload at h
  cases h
  simp
theorem execSloadSpecial_startUp (p : Site) (h : OpHead) (d : BitVec 4) (src : Lsa) (word : BitVec 6) (s : State) : ∀ s', execSloadSpecial p h d src word s = .next s' → s'.startUp = s.startUp := by
  intro t h
  unfold execSloadSpecial at h
  cases h
  simp
@[simp] theorem State.syncHint_startUp (s : State) (no : Nat) : (State.syncHint s no).startUp = s.startUp := by unfold State.syncHint; simp
theorem execSleep_startUp (p : Site) (h : OpHead) (rung : BitVec 3) (s : State) : ∀ s', execSleep p h rung s = .next s' → s'.startUp = s.startUp := by
  intro t h
  unfold execSleep at h
  cases h
  simp
@[simp] theorem State.jobTrap_startUp (s : State) (p : Site) (code : Nat) : (State.jobTrap s p code).startUp = s.startUp := by unfold State.jobTrap; simp
theorem execTrap_startUp (p : Site) (h : OpHead) (code next : BitVec 16) (s : State) : ∀ s', execTrap p h code next s = .next s' → s'.startUp = s.startUp := by
  intro t h
  unfold execTrap at h
  cases h
  simp
@[simp] theorem State.modHost_startUp (s : State) (f : HostRegs → HostRegs) : (State.modHost s f).startUp = s.startUp := by unfold State.modHost; simp
@[simp] theorem State.modDdma_startUp (s : State) (k : Nat) (f : Ddma → Ddma) : (State.modDdma s k f).startUp = s.startUp := by unfold State.modDdma; simp
@[simp] theorem State.ddmaOn_startUp (s : State) (k : Nat) : (State.ddmaOn s k).startUp = s.startUp := by unfold State.ddmaOn; simp
@[simp] theorem State.ddmaOff_startUp (s : State) (k : Nat) : (State.ddmaOff s k).startUp = s.startUp := by unfold State.ddmaOff; simp
@[simp] theorem State.ddmaCtrl_startUp (s : State) (k v : Nat) : (State.ddmaCtrl s k v).startUp = s.startUp := by unfold State.ddmaCtrl; simp
@[simp] theorem State.ddmaSubmit_startUp (s : State) (k : Nat) : (State.ddmaSubmit s k).startUp = s.startUp := by unfold State.ddmaSubmit; simp
@[simp] theorem State.ddmaWrite_startUp (s : State) (k o : Nat) (v : Word) : (State.ddmaWrite s k o v).startUp = s.startUp := by unfold State.ddmaWrite; simp
@[simp] theorem State.fwuEnd_startUp (s : State) (cause : Nat) : (State.fwuEnd s cause).startUp = s.startUp := by unfold State.fwuEnd; simp
@[simp] theorem State.fwuWrite_startUp (s : State) : s.fwuWrite.startUp = s.startUp := by
  unfold State.fwuWrite
  extract_lets
  split
  · exact State.fwuEnd_startUp ..
  · rw [State.startUp_mk, State.startUp_eta]
    refine (State.modHost_startUp ..).trans ((State.modBoot_startUp ..).trans ?_)
    rw [Boot.legalKey_mk, Boot.legalKey_eta, State.startUp_eta]

@[simp] theorem State.fwuRaiseCount_startUp (s : State) : (State.fwuRaiseCount s).startUp = s.startUp := by
  unfold State.fwuRaiseCount
  try dsimp only
  (repeat' split) <;> first
    | rfl
    | (simp; done)
    | (have hb := fst_startUp ‹_ = ((_ : State), _)›; simp at hb; simp [hb]; done)
    | (simp_all; done)
@[simp] theorem State.fwuCtrl_startUp (s : State) (v : Nat) : (s.fwuCtrl v).startUp = s.startUp := by
  unfold State.fwuCtrl
  extract_lets s1
  have h1 : s1.startUp = s.startUp := State.modHost_startUp ..
  (repeat' split) <;> simp [h1]

@[simp] theorem State.dropGrant_startUp (s : State) : (State.dropGrant s).startUp = s.startUp := by unfold State.dropGrant; simp
@[simp] theorem State.askGrant_startUp (s : State) : (State.askGrant s).startUp = s.startUp := by unfold State.askGrant; (repeat' split) <;> simp
@[simp] theorem State.debugCtrl_startUp (s : State) (v : Nat) : (State.debugCtrl s v).startUp = s.startUp := by unfold State.debugCtrl; simp
@[simp] theorem State.sidebandGo_startUp (s : State) (v : Nat) : (s.sidebandGo v).startUp = s.startUp := by
  unfold State.sidebandGo
  extract_lets s1 die off
  have h1 : s1.startUp = s.startUp := State.modHost_startUp ..
  split
  · exact h1
  · split
    · rw [State.modHost_startUp, h1]
    · split
      · split
        · rw [State.arbCtrlWrite_startUp, h1]
        · exact h1
      · split
        · rw [State.modHost_startUp, h1]
        · rw [State.startUp_mk, State.startUp_eta, State.modHost_startUp, h1]

@[simp] theorem State.winWrite_startUp (s : State) (high : Bool) (v : Nat) : (State.winWrite s high v).startUp = s.startUp := by unfold State.winWrite; simp
@[simp] theorem State.msixWrite_startUp (s : State) (fn i : Nat) (v : Word) : (State.msixWrite s fn i v).startUp = s.startUp := by unfold State.msixWrite; simp
@[simp] theorem State.ringWrite_startUp (s : State) (r o : Nat) (v : Word) : (State.ringWrite s r o v).startUp = s.startUp := by unfold State.ringWrite; simp
@[simp] theorem State.bootStatusWrite_startUp (s : State) (v : Nat) : (State.bootStatusWrite s v).startUp = s.startUp := by
  unfold State.bootStatusWrite
  try dsimp only
  (repeat' split) <;> first
    | rfl
    | (simp; done)
    | (have hb := fst_startUp ‹_ = ((_ : State), _)›; simp at hb; simp [hb]; done)
    | (simp_all; done)
theorem execBar0UnsupportedRequest_startUp (fn : Fin 4) (off : BitVec 26) (len : BitVec 13) (s : State) : ∀ s', execBar0UnsupportedRequest fn off len s = .next s' → s'.startUp = s.startUp := by
  intro t h
  unfold execBar0UnsupportedRequest at h
  (repeat' split at h) <;> cases h <;> simp
theorem execBar2Resize_startUp (log2 : BitVec 6) (s : State) : ∀ s', execBar2Resize log2 s = .next s' → s'.startUp = s.startUp := by
  intro t h
  unfold execBar2Resize at h
  cases h
  simp
theorem execBar2Read_startUp (off : BitVec 36) (len : Nat) (s : State) : ∀ s', execBar2Read off len s = .next s' → s'.startUp = s.startUp := by
  intro t h
  unfold execBar2Read at h
  (repeat' split at h) <;> cases h <;> simp
theorem execBar2Write_startUp (off : BitVec 36) (data : List (Option Byte)) (s : State) : ∀ s', execBar2Write off data s = .next s' → s'.startUp = s.startUp := by
  intro t h
  unfold execBar2Write at h
  try dsimp only at h
  (repeat' split at h) <;> cases h <;> (repeat' split) <;> simp_all
theorem execFwuDone_startUp (good : Bool) (s : State) : ∀ s', execFwuDone good s = .next s' → s'.startUp = s.startUp := by
  intro t h
  unfold execFwuDone at h
  try dsimp only at h
  (repeat' split at h) <;> cases h <;> first
    | rfl
    | (simp; done)
    | (have hb := fst_startUp ‹_ = ((_ : State), _)›; simp at hb; simp [hb]; done)
    | (simp_all; done)
@[simp] theorem State.portReset_startUp (s : State) : (State.portReset s).startUp = s.startUp := by unfold State.portReset; simp
theorem execGuestFunctionReset_startUp (k : Fin 3) (s : State) : ∀ s', execGuestFunctionReset k s = .next s' → s'.startUp = s.startUp := by
  intro t h
  unfold execGuestFunctionReset at h
  try dsimp only at h
  (repeat' split at h) <;> cases h <;> (repeat' split) <;> simp_all
@[simp] theorem State.ackIn_startUp (s : State) (p : Nat) (ack : BitVec 16) (nak : Bool) : (State.ackIn s p ack nak).startUp = s.startUp := by unfold State.ackIn; simp
@[simp] theorem State.creditsIn_startUp (s : State) (i : Nat) (cs : List (BitVec 16)) : (State.creditsIn s i cs).startUp = s.startUp := by unfold State.creditsIn; simp
@[simp] theorem State.takeMessages_startUp (s : State) (i ch : Nat) (fuel : Nat) : (State.takeMessages s i ch fuel).startUp = s.startUp := by
  induction fuel generalizing s with
  | zero => rfl
  | succ n ih => unfold State.takeMessages; (repeat' split) <;> simp [ih]
@[simp] theorem State.takeCopy_startUp (s : State) (i : Nat) (f : Flit) : (State.takeCopy s i f).startUp = s.startUp := by unfold State.takeCopy; simp
@[simp] theorem State.routeFlit_startUp (s : State) (p : Nat) (f : Flit) : (State.routeFlit s p f).startUp = s.startUp := by unfold State.routeFlit; simp
@[simp] theorem State.routeAhead_startUp (s : State) (p : Nat) (fuel : Nat) : (State.routeAhead s p fuel).startUp = s.startUp := by
  induction fuel generalizing s with
  | zero => unfold State.routeAhead; simp
  | succ n ih =>
    unfold State.routeAhead
    dsimp only
    (repeat' split) <;> first
      | simp [ih]
      | simp_all
@[simp] theorem State.dataIn_startUp (s : State) (p : Nat) (f : Flit) : (State.dataIn s p f).startUp = s.startUp := by unfold State.dataIn; simp
@[simp] theorem State.degraded_startUp (s : State) (p : Nat) : (State.degraded s p).startUp = s.startUp := by unfold State.degraded; simp
@[simp] theorem State.rewidth_startUp (s : State) (p : Nat) (tell : Bool) : (State.rewidth s p tell).startUp = s.startUp := by unfold State.rewidth; simp
@[simp] theorem State.endWidths_startUp (s : State) : (State.endWidths s).startUp = s.startUp := by unfold State.endWidths; simp
theorem execLaneRetire_startUp (port : Fin 16) (s : State) : ∀ s', execLaneRetire port s = .next s' → s'.startUp = s.startUp := by
  intro t h
  unfold execLaneRetire at h
  try dsimp only at h
  (repeat' split at h) <;> cases h <;> (repeat' split) <;> simp_all
theorem execLaneSpared_startUp (port : Fin 16) (s : State) : ∀ s', execLaneSpared port s = .next s' → s'.startUp = s.startUp := by
  intro t h
  unfold execLaneSpared at h
  cases h
  simp
@[simp] theorem State.rungReq_startUp (s : State) (p r : Nat) : (State.rungReq s p r).startUp = s.startUp := by unfold State.rungReq; simp
theorem execRungReq_startUp (port : Fin 16) (rung : BitVec 12) (s : State) : ∀ s', execRungReq port rung s = .next s' → s'.startUp = s.startUp := by
  intro t h
  unfold execRungReq at h
  cases h
  simp
@[simp] theorem State.rungAck_startUp (s : State) (p r : Nat) : (State.rungAck s p r).startUp = s.startUp := by unfold State.rungAck; simp
theorem execRungAck_startUp (port : Fin 16) (rung : BitVec 12) (s : State) : ∀ s', execRungAck port rung s = .next s' → s'.startUp = s.startUp := by
  intro t h
  unfold execRungAck at h
  cases h
  simp
@[simp] theorem State.laneMap_startUp (s : State) (p i : Nat) : (State.laneMap s p i).startUp = s.startUp := by unfold State.laneMap; simp
theorem execLaneMap_startUp (port : Fin 16) (index : BitVec 12) (s : State) : ∀ s', execLaneMap port index s = .next s' → s'.startUp = s.startUp := by
  intro t h
  unfold execLaneMap at h
  cases h
  simp
@[simp] theorem State.widthReq_startUp (s : State) (p w : Nat) : (State.widthReq s p w).startUp = s.startUp := by unfold State.widthReq; simp
theorem execWidthReq_startUp (port : Fin 16) (width : BitVec 12) (s : State) : ∀ s', execWidthReq port width s = .next s' → s'.startUp = s.startUp := by
  intro t h
  unfold execWidthReq at h
  cases h
  simp
@[simp] theorem State.ctrlIn_startUp (s : State) (p : Nat) (f : Flit) : (State.ctrlIn s p f).startUp = s.startUp := by unfold State.ctrlIn; (repeat' split) <;> simp
@[simp] theorem State.goodFlit_startUp (s : State) (p : Nat) (f : Flit) : (State.goodFlit s p f).startUp = s.startUp := by unfold State.goodFlit; simp
theorem execFlitReceive_startUp (port : Fin 16) (f : Flit) (s : State) : ∀ s', execFlitReceive port f s = .next s' → s'.startUp = s.startUp := by
  intro t h
  unfold execFlitReceive at h
  extract_lets p d s1 s2 at h
  have h1 : s1.startUp = s.startUp := by simp only [s1, State.wakeDie_startUp]; split <;> simp
  have h2 : s2.startUp = s.startUp := by simp only [s2, State.count_startUp, h1]
  refine ite_next_startUp h (fun h => next_startUp h rfl) (fun h => ?_)
  refine ite_next_startUp h (fun h => next_startUp h (State.wakePort_startUp ..)) (fun h => ?_)
  refine ite_next_startUp h (fun h => next_startUp h ?_) (fun h => next_startUp h ?_)
  · rw [State.linkWork_startUp, State.count_startUp, State.modLport_startUp, h2]
  · rw [State.linkWork_startUp, State.goodFlit_startUp, h2]

theorem execFlitFlushTimeout_startUp (pair : Fin 8) (ch : Fin 6) (s : State) : ∀ s', execFlitFlushTimeout pair ch s = .next s' → s'.startUp = s.startUp := by
  intro t h
  refine next_startUp h ?_
  rw [State.linkWork_startUp, State.flushStream_startUp, State.linkWork_startUp]

@[simp] theorem State.loseUnreachable_startUp (s : State) (d : Nat) : (State.loseUnreachable s d).startUp = s.startUp := by unfold State.loseUnreachable; simp
theorem execLinkState_startUp (m : Msg) (s : State) : ∀ s', execLinkState m s = .next s' → s'.startUp = s.startUp := by
  intro t h
  unfold execLinkState at h
  cases h
  simp
@[simp] theorem State.forgetUnits_startUp (s : State) (i : Nat) : (State.forgetUnits s i).startUp = s.startUp := by unfold State.forgetUnits; simp
@[simp] theorem State.reroute_startUp (l : List (Nat × List Byte)) (us : List Nat) (s : State) (i : Nat) : (s.reroute i l us).startUp = s.startUp := by
  induction l generalizing s us with
  | nil => simp [State.reroute]
  | cons a t ih => obtain ⟨src, b⟩ := a; simp [State.reroute, ih]

@[simp] theorem State.pairFalls_startUp (s : State) (i : Nat) : (State.pairFalls s i).startUp = s.startUp := by unfold State.pairFalls; simp
theorem execPairDown_startUp (pair : Fin 8) (stalled : Bool) (s : State) : ∀ s', execPairDown pair stalled s = .next s' → s'.startUp = s.startUp := by
  intro t h
  exact ite_next_startUp h (fun h => next_startUp h rfl) (fun h => next_startUp h (State.pairFalls_startUp ..))

theorem execPortTrainingComplete_startUp (port : Fin 16) (far : Option PortIdent) (s : State) :
    ∀ s', execPortTrainingComplete port far s = .next s' → s'.startUp = s.startUp := by
  intro t h
  refine ite_next_startUp h (fun h => next_startUp h rfl) (fun h => next_startUp h ?_)
  rw [State.linkWork_startUp, State.endLinkConfig_startUp, State.syncView_startUp]
  split
  · exact State.modLport_startUp ..
  · split
    · rw [State.modLpair_startUp, State.modLport_startUp, State.modLport_startUp]
    · rw [State.post_startUp, State.count_startUp, State.modLport_startUp]
theorem execJtagInstructionLoad_startUp (die : Fin 25) (ins : JtagIns) (s : State) :
    ∀ s', execJtagInstructionLoad die ins s = .next s' → s'.startUp = s.startUp := by
  intro t h
  unfold execJtagInstructionLoad at h
  extract_lets granted n s1 s2 at h
  have h1 : s1.startUp = s.startUp := by
    simp only [s1, State.modBoot_startUp, Boot.legalKey_mk, Boot.legalKey_eta, State.startUp_eta]
  have h2 : s2.startUp = s.startUp := (State.arbAll_startUp ..).trans h1
  refine ite_next_startUp h (fun h => next_startUp h h1) (fun h => next_startUp h ?_)
  split
  · rw [State.moduleFault_startUp, h2]
  · exact h2

@[simp] theorem State.mctpSay_startUp (s : State) (code : Nat) (bs : List Byte) : (State.mctpSay s code bs).startUp = s.startUp := by unfold State.mctpSay; simp
@[simp] theorem State.mctpFw_startUp (s : State) (f : State → State) (hf : ∀ x0, (f x0).startUp = x0.startUp) : (State.mctpFw s f).startUp = s.startUp := by
  unfold State.mctpFw
  try dsimp only
  (repeat' split) <;> first
    | simp
    | (rename_i h; have h' := congrArg (fun r => r.1.startUp) h; simp at h'; simp [h'])
    | simp_all
theorem execGetHealth_startUp (s : State) : ∀ s', execGetHealth s = .next s' → s'.startUp = s.startUp := by
  intro t h
  unfold execGetHealth at h
  cases h
  simp
theorem execGetTemps_startUp (side : List (BitVec 8)) (s : State) : ∀ s', execGetTemps side s = .next s' → s'.startUp = s.startUp := by
  intro t h
  unfold execGetTemps at h
  cases h
  simp
theorem execGetPower_startUp (mv : BitVec 16) (ma : BitVec 32) (w : BitVec 16) (dies : List (BitVec 16)) (s : State) : ∀ s', execGetPower mv ma w dies s = .next s' → s'.startUp = s.startUp := by
  intro t h
  unfold execGetPower at h
  cases h
  simp
theorem execSetPowerLimit_startUp (w : BitVec 16) (s : State) : ∀ s', execSetPowerLimit w s = .next s' → s'.startUp = s.startUp := by
  intro t h
  unfold execSetPowerLimit at h
  cases h
  simp
theorem execReadBootStatus_startUp (s : State) : ∀ s', execReadBootStatus s = .next s' → s'.startUp = s.startUp := by
  intro t h
  unfold execReadBootStatus at h
  cases h
  simp
theorem execReadStartLog_startUp (off : BitVec 8) (s : State) : ∀ s', execReadStartLog off s = .next s' → s'.startUp = s.startUp := by
  intro t h
  unfold execReadStartLog at h
  cases h
  simp
theorem execGetIdentity_startUp (s : State) : ∀ s', execGetIdentity s = .next s' → s'.startUp = s.startUp := by
  intro t h
  unfold execGetIdentity at h
  cases h
  simp
theorem execLsmov_startUp (p : Site) (h : OpHead) (a : LsmovArgs) (s : State) : ∀ s', execLsmov p h a s = .next s' → s'.startUp = s.startUp := by
  intro t h
  unfold execLsmov at h
  cases h
  simp
theorem execLsmovFill_startUp (p : Site) (h : OpHead) (a : LsmovArgs) (s : State) : ∀ s', execLsmovFill p h a s = .next s' → s'.startUp = s.startUp := by
  intro t h
  unfold execLsmovFill at h
  cases h
  simp
@[simp] theorem quantRun_startUp (s : State) (p : Site) (a : QuantArgs) (q : QuantIn) (bs : List QBlk) : (quantRun s p a q bs).startUp = s.startUp := by unfold quantRun; simp
theorem execQuant_startUp (p : Site) (h : OpHead) (a : QuantArgs) (s : State) : ∀ s', execQuant p h a s = .next s' → s'.startUp = s.startUp := by
  intro t h
  unfold execQuant at h
  try dsimp only at h
  (repeat' split at h) <;> cases h <;> (repeat' split) <;> simp_all
@[simp] theorem pinwheelRun_startUp (s : State) (p : Site) (line : Nat) (d : TDesc) (ls : List (List Word × Nat)) : (pinwheelRun s p line d ls).startUp = s.startUp := by unfold pinwheelRun; simp
theorem execPinwheel_startUp (p : Site) (h : OpHead) (a : PinwheelArgs) (s : State) : ∀ s', execPinwheel p h a s = .next s' → s'.startUp = s.startUp := by
  intro t h
  unfold execPinwheel at h
  try dsimp only at h
  (repeat' split at h) <;> cases h <;> (repeat' split) <;> simp_all

@[simp] theorem State.waitCounts_startUp (s : State) (n : Nat) : (State.waitCounts s n).startUp = s.startUp := by unfold State.waitCounts; simp
@[simp] theorem State.tick_startUp (s : State) : (State.tick s).startUp = s.startUp := by unfold State.tick; simp


end Sys2Proof.Machine
end

