-- ==== Sys2Proof/Laws/Issue.lean ====
section
/-! SUPPORT. What the issue of an op (R173) does: one lemma for the operation, and what it leaves of the cores' memories, registers and
the rest of the block. -/

namespace Sys2Proof.Machine

/-- An op that issues takes its effect on the state that its issue leaves, and the position advances unless the op moves it itself. -/
theorem issue_of_issues {s : State} {p : Site} {h : OpHead} {pl : Plan} (eff : State → State) (hi : s.issues p h pl = true) :
    s.issue p h pl eff = if pl.ctl then eff (s.issued p h pl) else (eff (s.issued p h pl)).goto p ((s.ctx p).pos + 1) := by
  simp only [State.issues, Bool.and_eq_true, decide_eq_true_eq, Option.isNone_iff_eq_none] at hi
  obtain ⟨⟨⟨⟨h1, h2⟩, h3⟩, h4⟩, h5⟩ := hi
  simp [State.issue, h1, h2, h3, h4, h5]

/-! Records to the host leave the cores alone. -/

@[simp] theorem State.raise_cores (s : State) (fn vec : Nat) : (s.raise fn vec).cores = s.cores := by
  unfold State.raise
  dsimp only
  (repeat' split) <;> simp
@[simp] theorem State.signal_cores (s : State) (r : Nat) (u : Bool) : (s.signal r u).cores = s.cores := by
  unfold State.signal
  dsimp only
  (repeat' split) <;> simp
@[simp] theorem State.putRecord_cores (s : State) (r ph : Nat) (b : List Byte) (u : Bool) : (s.putRecord r ph b u).cores = s.cores := by
  unfold State.putRecord
  simp
@[simp] theorem State.flushRecords_cores (s : State) (r n : Nat) : (s.flushRecords r n).cores = s.cores := by
  induction n generalizing s with
  | zero => rfl
  | succ n ih =>
    unfold State.flushRecords
    (repeat' split) <;> simp [ih]
@[simp] theorem State.complete_cores (s : State) (c : Cmd) (st d r : Nat) : (s.complete c st d r).cores = s.cores := by
  unfold State.complete
  simp
  split <;> simp
theorem foldl_cores {β : Type} (f : State → β → State) (l : List β) (s : State) (h : ∀ x b, (f x b).cores = x.cores) :
    (l.foldl f s).cores = s.cores := by
  induction l generalizing s with
  | nil => rfl
  | cons b t ih => rw [List.foldl_cons, ih, h]
@[simp] theorem State.completeActive_cores (s : State) (r st : Nat) : (s.completeActive r st).cores = s.cores :=
  foldl_cores _ _ _ (fun _ _ => State.complete_cores ..)
@[simp] theorem State.haltSlot_cores (s : State) (k : Nat) : (s.haltSlot k).cores = s.cores := by
  unfold State.haltSlot State.abortSlotDma
  simp
@[simp] theorem State.post_cores (s : State) (code : Nat) (cls : EvClass) (slot : Option Nat) (src : Nat) (pl : List Byte) (a b : Bool) :
    (s.post code cls slot src pl a b).cores = s.cores := by
  unfold State.post
  split <;> simp

/-- A core by its table. -/
theorem core_of_cores {s t : State} (h : t.cores = s.cores) (no : Nat) : t.core no = s.core no := by simp only [State.core, h]

/-- A routine fault (R183) stops its context and touches nothing else of any core. -/
@[simp] theorem State.routineFault_core (s : State) (p : Site) (code off w no : Nat) :
    (s.routineFault p code off w).core no = (s.setCtx p { s.ctx p with status := .faulted code }).core no := by
  refine core_of_cores ?_ no
  unfold State.routineFault
  simp only [State.haltSlot_cores, State.post_cores]
  split <;> simp

/-- The memories of a core, its tile queue and its stream joiner: what no issue and no move of a position touches. -/
def Core.holds (c : Core) : Memory × Memory × Memory × List TqEntry × Nat := (c.lmem, c.oc, c.ta, c.tq, c.chestLines)

@[simp] theorem Core.setCtx_holds (c : Core) (g : Bool) (t : Ctx) : (c.setCtx g t).holds = c.holds := by cases g <;> rfl
@[simp] theorem State.setCtx_holds (s : State) (p : Site) (t : Ctx) (no : Nat) : ((s.setCtx p t).core no).holds = (s.core no).holds := by
  by_cases h : no = Site.no p
  · subst h; simp [State.setCtx]
  · simp [State.setCtx, State.core, State.setCore, SMap.get_set, h]
@[simp] theorem State.routineFault_holds (s : State) (p : Site) (code off w no : Nat) :
    ((s.routineFault p code off w).core no).holds = (s.core no).holds := by rw [State.routineFault_core, State.setCtx_holds]
@[simp] theorem State.goto_holds (s : State) (p : Site) (n no : Nat) : ((s.goto p n).core no).holds = (s.core no).holds := by
  unfold State.goto
  dsimp only
  split <;> simp
@[simp] theorem State.payFloor_cores (s : State) (no ch : Nat) : (s.payFloor no ch).cores = s.cores := by
  unfold State.payFloor
  simp
@[simp] theorem State.pay_holds (s : State) (p : Site) (pl : Plan) (no : Nat) : ((s.pay p pl).core no).holds = (s.core no).holds := by
  unfold State.pay
  dsimp only
  split
  · rw [core_of_cores (State.payFloor_cores ..)]
  · rw [core_of_cores (State.setGov_cores ..), State.setCtx_holds]
@[simp] theorem State.bankSeen_holds (s : State) (k a n no : Nat) : ((s.bankSeen k a n).core no).holds = (s.core no).holds := by
  unfold State.bankSeen
  dsimp only
  split
  · rfl
  split
  · rfl
  · rw [core_of_cores (foldl_cores _ _ _ fun _ _ => State.count_cores ..), core_of_cores (State.modSlot_cores ..)]
    by_cases h : no = k
    · subst h; rw [State.core_setCore]; rfl
    · simp [State.core, State.setCore, SMap.get_set, h]
@[simp] theorem State.bankReads_holds (s : State) (k : Nat) (l : List Rng) (no : Nat) : ((s.bankReads k l).core no).holds = (s.core no).holds := by
  unfold State.bankReads
  induction l generalizing s with
  | nil => rfl
  | cons r t ih =>
    rw [List.foldl_cons, ih]
    split
    · rw [State.bankSeen_holds]
    · rfl
@[simp] theorem State.issued_holds (s : State) (p : Site) (h : OpHead) (pl : Plan) (no : Nat) :
    ((s.issued p h pl).core no).holds = (s.core no).holds := by
  unfold State.issued
  dsimp only
  split
  · rw [core_of_cores (State.count_cores ..), core_of_cores (State.count_cores ..), State.bankReads_holds, State.pay_holds, State.setCtx_holds]
  · rw [core_of_cores (State.count_cores ..), State.bankReads_holds, State.pay_holds, State.setCtx_holds]

/-- The context of a site after a context was put there. -/
@[simp] theorem State.setCtx_ctx (s : State) (p : Site) (t : Ctx) : (s.setCtx p t).ctx p = t := by
  simp only [State.ctx, State.setCtx, State.core_setCore, Core.ctx_setCtx]

/-- What an op may read of a context at its issue: scalar registers, routine header, channels, endpoints, loops and position. -/
def Ctx.reads (t : Ctx) : SMap Word × Hdr × Nat × List LoopFrame × Nat := (t.sregs, t.hdr, t.pos, t.loops, t.slot)

theorem Ctx.takeTokens_reads (t : Ctx) (m : BitVec 16) : (t.takeTokens m).reads = t.reads := by
  have : ∀ (l : List Nat) (c : Ctx),
      (l.foldl (fun (c : Ctx) i => if m.getLsbD i then c.setToken i (c.token i - 1) else c) c).reads = c.reads := by
    intro l
    induction l with
    | nil => intro c; rfl
    | cons a l ih =>
      intro c
      rw [List.foldl_cons, ih]
      split <;> rfl
  exact this _ _
theorem launch_reads (t : Ctx) (h : OpHead) (pl : Plan) : (launch (issueTokens t h pl) h pl).reads = t.reads := by
  have h1 : (issueTokens t h pl).reads = t.reads := by
    unfold issueTokens
    dsimp only
    split
    · split
      · rfl
      · exact Ctx.takeTokens_reads ..
    · split
      · rfl
      · exact Ctx.takeTokens_reads ..
  unfold launch
  split
  · exact h1
  · exact h1
theorem State.ctx_of_cores {s t : State} (h : t.cores = s.cores) (p : Site) : t.ctx p = s.ctx p := by
  simp only [State.ctx, core_of_cores h]
/-- Marking bank slots as read changes no context. -/
theorem State.bankSeen_ctx (s : State) (k a n : Nat) (p : Site) : (s.bankSeen k a n).ctx p = s.ctx p := by
  unfold State.bankSeen
  dsimp only
  split
  · rfl
  split
  · rfl
  · rw [State.ctx_of_cores (foldl_cores _ _ _ fun _ _ => State.count_cores ..), State.ctx_of_cores (State.modSlot_cores ..)]
    unfold State.ctx
    by_cases h : Site.no p = k
    · subst h; rw [State.core_setCore]; rfl
    · simp [State.core, State.setCore, SMap.get_set, h]
theorem State.bankReads_ctx (s : State) (k : Nat) (l : List Rng) (p : Site) : (s.bankReads k l).ctx p = s.ctx p := by
  unfold State.bankReads
  induction l generalizing s with
  | nil => rfl
  | cons r t ih =>
    rw [List.foldl_cons, ih]
    split
    · rw [State.bankSeen_ctx]
    · rfl
/-- The state in which an op takes its effect shows it the registers as they were. -/
theorem State.issued_reads (s : State) (p : Site) (h : OpHead) (pl : Plan) : ((s.issued p h pl).ctx p).reads = (s.ctx p).reads := by
  have hp : ∀ x : State, ((x.pay p pl).ctx p).reads = (x.ctx p).reads := by
    intro x
    unfold State.pay
    dsimp only
    split
    · rw [State.ctx_of_cores (State.payFloor_cores ..)]
    · rw [State.ctx_of_cores (State.setGov_cores ..), State.setCtx_ctx]
      rfl
  unfold State.issued
  dsimp only
  split
  · rw [State.ctx_of_cores (State.count_cores ..), State.ctx_of_cores (State.count_cores ..), State.bankReads_ctx, hp, State.setCtx_ctx, launch_reads]
  · rw [State.ctx_of_cores (State.count_cores ..), State.bankReads_ctx, hp, State.setCtx_ctx, launch_reads]

/-- Moving on changes a context as `Ctx.goto` says, but for the status of one that ends with a fault. -/
theorem State.goto_reads (s : State) (p : Site) (n : Nat) : ((s.goto p n).ctx p).reads = ((s.ctx p).goto n).reads := by
  unfold State.goto
  dsimp only
  split
  · simp only [State.ctx, State.routineFault_core]
    have := State.setCtx_ctx (s.setCtx p ((s.ctx p).goto n)) p { (s.setCtx p ((s.ctx p).goto n)).ctx p with status := .faulted 0x01 }
    simp only [State.ctx] at this
    rw [this]
    have h2 := State.setCtx_ctx s p ((s.ctx p).goto n)
    simp only [State.ctx] at h2
    rw [h2]
    rfl
  · rw [State.setCtx_ctx]

end Sys2Proof.Machine
end

