-- ==== Sys2Proof/Laws/Memory.lean ====
section
/-! SUPPORT. What memories answer after a write, and that every memory operation keeps the canonical form (log 4). -/

namespace Sys2Proof
namespace Memory

/-- The canonical form: listed addresses rise, and no entry equals what its address reads as unlisted. -/
theorem wf_iff {m : Memory} : m.wf = true ↔ SMap.rising m.cells = true ∧ ∀ e ∈ m.cells, e.2 ≠ m.unlisted e.1 := by
  unfold Memory.wf SMap.rising
  cases m.cells <;> simp

/-- A read after a write: the byte written, and every other byte as before. -/
theorem read_write (m : Memory) (a : Nat) (v : Byte) (x : Nat) : (m.write a v).read x = if x = a then v else m.read x := by
  show SMap.get (m.unlisted x) (SMap.set (m.unlisted a) m.cells a v) x = _
  by_cases hx : x = a
  · subst hx
    rw [SMap.get_set]
    simp
  · rw [if_neg hx]
    unfold SMap.set
    split
    · exact SMap.get_drop_other hx _
    · rw [SMap.get_ins_other hx, SMap.get_drop_other hx]
      rfl

/-- A write changes what no unlisted address reads as. -/
@[simp] theorem unlisted_write (m : Memory) (a : Nat) (v : Byte) (x : Nat) : (m.write a v).unlisted x = m.unlisted x := rfl

/-- A write keeps the canonical form. -/
theorem wf_write {m : Memory} (h : m.wf = true) (a : Nat) (v : Byte) : (m.write a v).wf = true := by
  obtain ⟨hr, hd⟩ := wf_iff.mp h
  refine wf_iff.mpr ⟨SMap.rising_set hr, fun e he => ?_⟩
  rcases SMap.mem_set he with ⟨rfl, hv⟩ | he
  · exact hv
  · exact hd e he.1

/-- Writing consecutive bytes keeps the canonical form. -/
theorem wf_writeList : ∀ {bs : List Byte} {m : Memory}, m.wf = true → ∀ a, (m.writeList a bs).wf = true
  | [], _, h, _ => h
  | b :: bs, _, h, a => wf_writeList (bs := bs) (wf_write h a b) (a + 1)

/-- A read after a write of consecutive bytes: the bytes written in their range, and every other byte as before. -/
theorem read_writeList : ∀ (bs : List Byte) (m : Memory) (a x : Nat),
    (m.writeList a bs).read x = if a ≤ x ∧ x < a + bs.length then bs.getD (x - a) 0 else m.read x
  | [], m, a, x => by
    have : ¬ (a ≤ x ∧ x < a + ([] : List Byte).length) := by simp
    simp only [this, if_false]
    rfl
  | b :: bs, m, a, x => by
    show ((m.write a b).writeList (a + 1) bs).read x = _
    rw [read_writeList bs (m.write a b) (a + 1) x, read_write]
    simp only [List.length_cons]
    by_cases hx : x = a
    · subst hx
      have h1 : ¬ (x + 1 ≤ x ∧ x < x + 1 + bs.length) := by omega
      have h2 : x ≤ x ∧ x < x + (bs.length + 1) := by omega
      simp [h1, h2]
    · by_cases hin : a + 1 ≤ x ∧ x < a + 1 + bs.length
      · have h2 : a ≤ x ∧ x < a + (bs.length + 1) := by omega
        rw [if_pos hin, if_pos h2]
        obtain ⟨n, hn⟩ : ∃ n, x - a = n + 1 := ⟨x - a - 1, by omega⟩
        rw [show x - (a + 1) = n from by omega, hn]
        simp
      · have h2 : ¬ (a ≤ x ∧ x < a + (bs.length + 1)) := by omega
        rw [if_neg hin, if_neg h2, if_neg hx]

/-- Bytes outside the range written are as before. -/
theorem read_writeList_other {bs : List Byte} {m : Memory} {a x : Nat} (hx : x < a ∨ a + bs.length ≤ x) :
    (m.writeList a bs).read x = m.read x := by
  rw [read_writeList]
  exact if_neg (by omega)

/-- An undefined range leaves what other addresses read as unlisted. -/
theorem unlisted_lose {m : Memory} {lo hi k a : Nat} (h : a < lo ∨ hi ≤ a) : (m.lose lo hi k).unlisted a = m.unlisted a := by
  have : (decide (lo ≤ a) && decide (a < hi)) = false := by
    simp only [Bool.and_eq_false_iff, decide_eq_false_iff_not]; omega
  simp only [Memory.unlisted, Memory.lose, List.find?_cons, this]
  rfl

/-- Losing a range keeps the canonical form. -/
theorem wf_lose {m : Memory} (h : m.wf = true) (lo hi k : Nat) : (m.lose lo hi k).wf = true := by
  obtain ⟨hr, hd⟩ := wf_iff.mp h
  refine wf_iff.mpr ⟨SMap.rising_filter (p := fun e => ! (decide (lo ≤ e.1) && decide (e.1 < hi))) hr, fun e he => ?_⟩
  simp only [Memory.lose, SMap.eraseIf, List.mem_filter, Bool.not_eq_true', Bool.and_eq_false_iff,
    decide_eq_false_iff_not] at he
  rw [unlisted_lose (by omega)]
  exact hd e he.1

/-- Of the parts that cutting [lo, hi) out of a lost range leaves, the first that holds an address outside [lo, hi) has the range's own
number, and there is one just when the range holds the address. -/
theorem find_cutLost {lo hi a : Nat} (h : a < lo ∨ hi ≤ a) (r : Nat × Nat × Nat) :
    ((Memory.cutLost lo hi r).find? (fun r => decide (r.1 ≤ a) && decide (a < r.2.1))).map (fun r => r.2.2) =
      if r.1 ≤ a ∧ a < r.2.1 then some r.2.2 else none := by
  obtain ⟨r1, r2, k⟩ := r
  unfold Memory.cutLost
  by_cases h1 : r1 < min r2 lo <;> by_cases h2 : max r1 hi < r2 <;> by_cases h3 : r1 ≤ a <;> by_cases h4 : a < min r2 lo <;>
    by_cases h5 : max r1 hi ≤ a <;> by_cases h6 : a < r2 <;>
    first
    | (exfalso; omega)
    | simp [h1, h2, h3, h4, h5, h6]

/-- Clearing a range leaves what other addresses read as unlisted. -/
theorem unlisted_clearRange {m : Memory} {a n x : Nat} (h : x < a ∨ a + n ≤ x) : (m.clearRange a n).unlisted x = m.unlisted x := by
  have key : ∀ l : List (Nat × Nat × Nat),
      ((l.flatMap (Memory.cutLost a (a + n))).find? (fun r => decide (r.1 ≤ x) && decide (x < r.2.1))).map (fun r => r.2.2) =
        (l.find? (fun r => decide (r.1 ≤ x) && decide (x < r.2.1))).map (fun r => r.2.2) := by
    intro l
    induction l with
    | nil => rfl
    | cons r l ih =>
      rw [List.flatMap_cons, List.find?_append, List.find?_cons]
      have hc := find_cutLost h r
      by_cases hr : r.1 ≤ x ∧ x < r.2.1
      · have hb : (decide (r.1 ≤ x) && decide (x < r.2.1)) = true := by simp [hr.1, hr.2]
        rw [if_pos hr] at hc
        cases hf : (Memory.cutLost a (a + n) r).find? (fun r => decide (r.1 ≤ x) && decide (x < r.2.1)) with
        | none => rw [hf] at hc; cases hc
        | some y => rw [hf] at hc; simpa [hb] using hc
      · have hb : (decide (r.1 ≤ x) && decide (x < r.2.1)) = false := by
          simp only [Bool.and_eq_false_iff, decide_eq_false_iff_not]; omega
        rw [if_neg hr] at hc
        cases hf : (Memory.cutLost a (a + n) r).find? (fun r => decide (r.1 ≤ x) && decide (x < r.2.1)) with
        | none => simpa [hb, hf] using ih
        | some y => rw [hf] at hc; cases hc
  have hk := key m.lost
  unfold Memory.unlisted Memory.clearRange
  simp only
  revert hk
  cases (m.lost.flatMap (Memory.cutLost a (a + n))).find? (fun r => decide (r.1 ≤ x) && decide (x < r.2.1)) <;>
    cases m.lost.find? (fun r => decide (r.1 ≤ x) && decide (x < r.2.1)) <;> simp_all

/-- Clearing a range keeps the canonical form. -/
theorem wf_clearRange {m : Memory} (h : m.wf = true) (a n : Nat) : (m.clearRange a n).wf = true := by
  obtain ⟨hr, hd⟩ := wf_iff.mp h
  refine wf_iff.mpr ⟨SMap.rising_filter (p := fun e => ! (decide (a ≤ e.1) && decide (e.1 < a + n))) hr, fun e he => ?_⟩
  simp only [Memory.clearRange, SMap.eraseIf, List.mem_filter, Bool.not_eq_true', Bool.and_eq_false_iff,
    decide_eq_false_iff_not] at he
  rw [unlisted_clearRange (by omega)]
  exact hd e he.1

/-- What a cleared place, and any other, reads. -/
theorem read_clearIf (m : Memory) (p : Nat → Bool) (x : Nat) : (m.clearIf p).read x = if p x then m.unlisted x else m.read x := by
  have hu : (m.clearIf p).unlisted x = m.unlisted x := rfl
  unfold Memory.read
  rw [hu]
  generalize m.unlisted x = d
  show SMap.get d (SMap.eraseIf p m.cells) x = _
  induction m.cells with
  | nil => cases p x <;> rfl
  | cons e t ih =>
    obtain ⟨k, v⟩ := e
    unfold SMap.eraseIf at ih ⊢
    by_cases hk : k = x
    · subst hk
      cases hp : p k <;> simp_all [SMap.get]
    · cases hp : p k <;> simp_all [SMap.get]

/-- Clearing places keeps the canonical form. -/
theorem wf_clearIf {m : Memory} (h : m.wf = true) (p : Nat → Bool) : (m.clearIf p).wf = true := by
  obtain ⟨hr, hd⟩ := wf_iff.mp h
  refine wf_iff.mpr ⟨SMap.rising_filter (p := fun e => ! p e.1) hr, fun e he => ?_⟩
  simp only [Memory.clearIf, SMap.eraseIf, List.mem_filter] at he
  exact hd e he.1

end Memory
end Sys2Proof
end

