-- ==== Sys2Proof/Laws/OpFrame.lean ====
section
/-! SUPPORT. What an op leaves alone (`State.opFrame`, `State.stepsCtx`): the operations that core ops are made of, one lemma each, and how
they chain. -/

namespace Sys2Proof.Machine

theorem State.opFrame_refl (s : State) (p : Site) : s.opFrame s p := ⟨fun _ _ => rfl, rfl, fun _ _ => rfl, rfl, id, rfl⟩
theorem State.opFrame_trans {a b c : State} {p : Site} (h1 : c.opFrame b p) (h2 : b.opFrame a p) : c.opFrame a p := by
  obtain ⟨a1, a2, a3, a4, a5, a6⟩ := h1
  obtain ⟨b1, b2, b3, b4, b5, b6⟩ := h2
  refine ⟨fun no h => (a1 no h).trans (b1 no h), a2.trans b2, fun k h => (a3 k h).trans (b3 k h), ?_, fun h => a5 (b5 h), ?_⟩
  · rw [a4, b4]
  · have e : ({ c with cores := a.cores, govs := a.govs, counters := a.counters, slots := a.slots } : State) =
        { ({ c with cores := b.cores, govs := b.govs, counters := b.counters, slots := b.slots } : State) with
          cores := a.cores, govs := a.govs, counters := a.counters, slots := a.slots } := rfl
    rw [e, a6]
    exact b6
/-- Changing the governors and counters of a state is a frame. -/
theorem State.opFrame_of_cores {s t : State} {p : Site} (hc : t.cores = s.cores) (hs : t.slots = s.slots)
    (h : { t with cores := s.cores, govs := s.govs, counters := s.counters, slots := s.slots } = s) : t.opFrame s p := by
  have e : ∀ k, t.slot k = s.slot k := fun k => by simp only [State.slot, hs]
  exact ⟨fun no _ => core_of_cores hc no, by rw [core_of_cores hc], fun k _ => e k, by rw [e], fun hn => by rw [e]; exact hn, h⟩
theorem State.count_opFrame (s : State) (k : CKey) (n : Nat) (p : Site) : (s.count k n).opFrame s p := State.opFrame_of_cores rfl rfl rfl
theorem State.setGov_opFrame (s : State) (d : Nat) (g : Gov) (p : Site) : (s.setGov d g).opFrame s p := State.opFrame_of_cores rfl rfl rfl
/-- Replacing the core of a site by one with the same other context is a frame. -/
theorem State.setCore_opFrame (s : State) (p : Site) (c : Core) (h : c.ctx (!p.guest) = (s.core (Site.no p)).ctx (!p.guest)) :
    (s.setCore (Site.no p) c).opFrame s p :=
  ⟨fun no hn => State.core_setCore_other s c hn, by rw [State.core_setCore, h], fun _ _ => rfl, rfl, id, rfl⟩
/-- Setting slot 0's NF_STEP is a frame. -/
theorem State.setNf_opFrame (s : State) (p : Site) : (s.modSlot 0 (fun x => { x with nf := true })).opFrame s p := by
  refine ⟨fun no _ => rfl, rfl, fun k h => ?_, ?_, fun _ => ?_, rfl⟩
  · simp [State.slot, State.modSlot, State.setSlot, SMap.get_set, h]
  · simp [State.slot, State.modSlot, State.setSlot]
  · simp [State.slot, State.modSlot, State.setSlot]
/-- A fold of frames is a frame. -/
theorem State.foldl_opFrame {β : Type} (f : State → β → State) (l : List β) (s : State) (p : Site) (h : ∀ x b, (f x b).opFrame x p) :
    (l.foldl f s).opFrame s p := by
  induction l generalizing s with
  | nil => exact State.opFrame_refl ..
  | cons b t ih => exact State.opFrame_trans (ih _) (h ..)
theorem State.bankSeen_opFrame (s : State) (p : Site) (a n : Nat) : (s.bankSeen (Site.no p) a n).opFrame s p := by
  unfold State.bankSeen
  dsimp only
  split
  · exact State.opFrame_refl ..
  split
  · exact State.opFrame_refl ..
  · refine State.opFrame_trans (State.foldl_opFrame _ _ _ _ fun x b => State.count_opFrame ..) ?_
    exact State.opFrame_trans (State.setNf_opFrame ..) (State.setCore_opFrame _ _ _ rfl)
theorem State.bankReads_opFrame (s : State) (p : Site) (l : List Rng) : (s.bankReads (Site.no p) l).opFrame s p := by
  refine State.foldl_opFrame _ _ _ _ fun x b => ?_
  split
  · exact State.bankSeen_opFrame ..
  · exact State.opFrame_refl ..
theorem State.setCtx_opFrame (s : State) (p : Site) (t : Ctx) : (s.setCtx p t).opFrame s p :=
  s.setCore_opFrame p _ (Core.ctx_setCtx_not ..)
theorem State.payFloor_opFrame (s : State) (no ch : Nat) (p : Site) : (s.payFloor no ch).opFrame s p :=
  State.opFrame_of_cores (State.payFloor_cores ..) rfl rfl
theorem State.pay_opFrame (s : State) (p : Site) (pl : Plan) : (s.pay p pl).opFrame s p := by
  unfold State.pay
  dsimp only
  split
  · exact State.payFloor_opFrame ..
  · exact State.opFrame_trans (State.setGov_opFrame ..) (State.setCtx_opFrame ..)
theorem State.issued_opFrame (s : State) (p : Site) (h : OpHead) (pl : Plan) : (s.issued p h pl).opFrame s p := by
  have h1 : ((((s.setCtx p (launch (issueTokens (s.ctx p) h pl) h pl)).pay p pl).bankReads (Site.no p) pl.reads).count
      (ckCtx Ctr.opsIssued p)).opFrame s p :=
    State.opFrame_trans (State.count_opFrame ..) (State.opFrame_trans (State.bankReads_opFrame ..)
      (State.opFrame_trans (State.pay_opFrame ..) (State.setCtx_opFrame ..)))
  unfold State.issued
  dsimp only
  split
  · exact State.opFrame_trans (State.count_opFrame ..) h1
  · exact h1

/-- A core with a context replaced is the same core beside its contexts. -/
@[simp] theorem Core.setCtx_rest (c : Core) (g : Bool) (t : Ctx) : (c.setCtx g t).rest = c.rest := by cases g <;> rfl
@[simp] theorem State.setCtx_rest (s : State) (p : Site) (t : Ctx) :
    ((s.setCtx p t).core (Site.no p)).rest = (s.core (Site.no p)).rest := by simp [State.setCtx]
@[simp] theorem State.pay_rest (s : State) (p : Site) (pl : Plan) : ((s.pay p pl).core (Site.no p)).rest = (s.core (Site.no p)).rest := by
  unfold State.pay
  dsimp only
  split
  · rw [core_of_cores (State.payFloor_cores ..)]
  · rw [core_of_cores (State.setGov_cores ..), State.setCtx_rest]
@[simp] theorem State.bankSeen_rest (s : State) (no a n : Nat) : ((s.bankSeen no a n).core no).rest = (s.core no).rest := by
  unfold State.bankSeen
  dsimp only
  split
  · rfl
  split
  · rfl
  · rw [core_of_cores (foldl_cores _ _ _ fun _ _ => State.count_cores ..), core_of_cores (State.modSlot_cores ..), State.core_setCore]
    rfl
@[simp] theorem State.bankReads_rest (s : State) (no : Nat) (l : List Rng) : ((s.bankReads no l).core no).rest = (s.core no).rest := by
  unfold State.bankReads
  induction l generalizing s with
  | nil => rfl
  | cons r t ih =>
    rw [List.foldl_cons, ih]
    split
    · rw [State.bankSeen_rest]
    · rfl
@[simp] theorem State.issued_rest (s : State) (p : Site) (h : OpHead) (pl : Plan) :
    ((s.issued p h pl).core (Site.no p)).rest = (s.core (Site.no p)).rest := by
  unfold State.issued
  dsimp only
  split
  · rw [core_of_cores (State.count_cores ..), core_of_cores (State.count_cores ..), State.bankReads_rest, State.pay_rest, State.setCtx_rest]
  · rw [core_of_cores (State.count_cores ..), State.bankReads_rest, State.pay_rest, State.setCtx_rest]

/-- The context that an issue leaves: the op's tokens taken, the op in flight, and the purse charged unless the floor account pays. -/
theorem State.issued_ctx (s : State) (p : Site) (h : OpHead) (pl : Plan) :
    (s.issued p h pl).ctx p = if (pl.comm && !p.guest) = true then launch (issueTokens (s.ctx p) h pl) h pl
      else { launch (issueTokens (s.ctx p) h pl) h pl with
        purse := (launch (issueTokens (s.ctx p) h pl) h pl).purse - (s.setCtx p (launch (issueTokens (s.ctx p) h pl) h pl)).charge p pl
        needCharge := 0 } := by
  unfold State.issued
  dsimp only
  have h2 : ∀ x : State, (x.pay p pl).ctx p = if (pl.comm && !p.guest) = true then x.ctx p
      else { x.ctx p with purse := (x.ctx p).purse - x.charge p pl, needCharge := 0 } := by
    intro x
    unfold State.pay
    dsimp only
    split
    · exact State.ctx_of_cores (State.payFloor_cores ..) p
    · rw [State.ctx_of_cores (State.setGov_cores ..), State.ctx_setCtx]
  split <;> simp only [State.ctx_of_cores (State.count_cores ..), State.bankReads_ctx, h2, State.ctx_setCtx]

@[simp] theorem Ctx.setSreg_loops (c : Ctx) (d : BitVec 4) (v : Word) : (c.setSreg d v).loops = c.loops := by unfold Ctx.setSreg; split <;> rfl
@[simp] theorem Ctx.setSreg_hdr (c : Ctx) (d : BitVec 4) (v : Word) : (c.setSreg d v).hdr = c.hdr := by unfold Ctx.setSreg; split <;> rfl

/-- Where a context lands when it moves on depends on its loops alone. -/
theorem loopEnds_pos (l : List LoopFrame) (a b : Ctx) (h : a.pos = b.pos) : (loopEnds a l).pos = (loopEnds b l).pos := by
  induction l generalizing a b with
  | nil => exact h
  | cons f l ih =>
    have hs : ∀ (c : Ctx) (v : Word), (c.setSreg f.reg v).pos = c.pos := by intro c v; unfold Ctx.setSreg; split <;> rfl
    unfold loopEnds
    rw [h]
    split
    · split
      · rfl
      · exact ih _ _ (by rw [hs, hs, h])
    · rfl
theorem loopEnds_hdr (l : List LoopFrame) (c : Ctx) : (loopEnds c l).hdr = c.hdr := by
  induction l generalizing c with
  | nil => rfl
  | cons f l ih =>
    have hs : ∀ (c : Ctx) (v : Word), (c.setSreg f.reg v).hdr = c.hdr := by intro c v; unfold Ctx.setSreg; split <;> rfl
    unfold loopEnds
    dsimp only
    split
    · split
      · exact hs ..
      · rw [ih, hs]
    · rfl
theorem Ctx.goto_pos_of_loops {a b : Ctx} (h : a.loops = b.loops) (n : Nat) : (a.goto n).pos = (b.goto n).pos := by
  unfold Ctx.goto
  rw [h]
  exact loopEnds_pos _ _ _ rfl
theorem Ctx.goto_hdr (c : Ctx) (n : Nat) : (c.goto n).hdr = c.hdr := loopEnds_hdr ..

/-- A context that stays inside its routine moves on with nothing else changed. -/
theorem State.goto_of_lt {s : State} {p : Site} {n : Nat} (h : ((s.ctx p).goto n).pos < (s.ctx p).hdr.nOps) :
    s.goto p n = s.setCtx p ((s.ctx p).goto n) := by
  unfold State.goto
  simp only [Ctx.goto_hdr]
  rw [if_neg (Nat.not_le.2 h)]

theorem State.issued_loops (s : State) (p : Site) (h : OpHead) (pl : Plan) : ((s.issued p h pl).ctx p).loops = (s.ctx p).loops :=
  congrArg (fun r => r.2.2.2.1) (s.issued_reads p h pl)
theorem State.issued_hdr (s : State) (p : Site) (h : OpHead) (pl : Plan) : ((s.issued p h pl).ctx p).hdr = (s.ctx p).hdr :=
  congrArg (fun r => r.2.1) (s.issued_reads p h pl)
theorem State.issued_sregs (s : State) (p : Site) (h : OpHead) (pl : Plan) : ((s.issued p h pl).ctx p).sregs = (s.ctx p).sregs :=
  congrArg (fun r => r.1) (s.issued_reads p h pl)
theorem State.issued_pos (s : State) (p : Site) (h : OpHead) (pl : Plan) : ((s.issued p h pl).ctx p).pos = (s.ctx p).pos :=
  congrArg (fun r => r.2.2.1) (s.issued_reads p h pl)
theorem State.issued_slot (s : State) (p : Site) (h : OpHead) (pl : Plan) : ((s.issued p h pl).ctx p).slot = (s.ctx p).slot :=
  congrArg (fun r => r.2.2.2.2) (s.issued_reads p h pl)
theorem State.issued_sreg (s : State) (p : Site) (h : OpHead) (pl : Plan) (i : BitVec 4) :
    ((s.issued p h pl).ctx p).sreg i = (s.ctx p).sreg i := by simp only [Ctx.sreg, State.issued_sregs]

/-- An op whose effect is a change `f` of its context that leaves loops and header alone completes and moves on. -/
theorem issue_stepsCtx {s : State} {p : Site} {h : OpHead} {pl : Plan} {f : Ctx → Ctx} (hi : s.issues p h pl = true)
    (hs : (s.ctx p).staysIn = true) (hc : pl.ctl = false) (hl : ∀ c, (f c).loops = c.loops) (hh : ∀ c, (f c).hdr = c.hdr)
    (eff : State → State) (he : eff (s.issued p h pl) = (s.issued p h pl).setCtx p (f ((s.issued p h pl).ctx p))) :
    (s.issue p h pl eff).stepsCtx s p h pl f := by
  have h1 : s.issue p h pl eff = ((s.issued p h pl).setCtx p (f ((s.issued p h pl).ctx p))).goto p ((s.ctx p).pos + 1) := by
    rw [issue_of_issues eff hi, if_neg (by simp [hc]), he]
  have hlt : ((f ((s.issued p h pl).ctx p)).goto ((s.ctx p).pos + 1)).pos < (f ((s.issued p h pl).ctx p)).hdr.nOps := by
    rw [Ctx.goto_pos_of_loops ((hl _).trans (s.issued_loops p h pl)), hh, State.issued_hdr]
    exact of_decide_eq_true hs
  rw [h1, State.goto_of_lt (by rw [State.ctx_setCtx]; exact hlt), State.ctx_setCtx]
  refine ⟨State.ctx_setCtx .., ?_, ?_⟩
  · rw [State.setCtx_rest, State.setCtx_rest, State.issued_rest]
  · exact State.opFrame_trans (State.setCtx_opFrame ..) (State.opFrame_trans (State.setCtx_opFrame ..) (State.issued_opFrame ..))

end Sys2Proof.Machine
end

