-- ==== Sys2Proof/Laws/StartUp.lean ====
section
/-! SUPPORT. `State.bootInv` through the operations that write the start-up registers or the row maps, and through the register writes of
the host port. -/

namespace Sys2Proof.Machine

/-- `Boot.legal` speaks of the key registers only. -/
theorem Boot.legal_of_key {a b : Boot} (h : a.legalKey = b.legalKey) (hb : b.legal) : a.legal := by
  simp only [Boot.legalKey, Prod.mk.injEq] at h
  obtain ⟨h1, h2, h3, h4, h5, h6, h7, h8⟩ := h
  simp only [Boot.legal, h1, h2, h3, h4, h5, h6, h7, h8]
  exact hb

theorem bootInv_of_startUp {s t : State} (h : t.startUp = s.startUp) (hi : s.bootInv) : t.bootInv := by
  have h1 : t.boot.legalKey = s.boot.legalKey := congrArg Prod.fst h
  have h2 : t.rows = s.rows := congrArg (fun r => r.2.1) h
  exact ⟨Boot.legal_of_key h1 hi.1, h2 ▸ hi.2⟩

theorem modBoot_bootInv {s : State} {f : Boot → Boot} (hr : ∀ e ∈ s.rows, e.2.legal) (h : (f s.boot).legal) :
    (s.modBoot f).bootInv := ⟨h, hr⟩

theorem foldl_bootInv {β : Type} (f : State → β → State) (l : List β) (s : State) (h : ∀ x b, x.bootInv → (f x b).bootInv)
    (hi : s.bootInv) : (l.foldl f s).bootInv := by
  induction l generalizing s with
  | nil => exact hi
  | cons b t ih => exact ih (f s b) (h s b hi)

/-- A failed start-up with a cause of R421 stays legal. -/
theorem failAt_bootInv {s : State} {c : Nat} (hc : c < 256) (hi : s.bootInv) : (s.failAt c).bootInv := by
  unfold State.failAt
  refine bootInv_of_startUp ((State.diesAt_startUp ..).trans (State.logEnd_startUp ..)) ?_
  obtain ⟨⟨h1, h2, h3, h4, h5, h6, h7, h8, h9⟩, hr⟩ := hi
  exact modBoot_bootInv hr ⟨h1, Nat.le_refl 2, hc, h4, h5, fun h => absurd rfl h, fun h => by simp at h, h8, h9⟩

theorem failStart_bootInv {s : State} {c : Nat} (hc : c < 256) (hi : s.bootInv) : (s.failStart c).bootInv :=
  failAt_bootInv hc (bootInv_of_startUp (State.bootCount_startUp ..) hi)

/-- What clearing the dies leaves is legal once LAST_RST is: stage OFF, no result, no image, the host link down, every row plain. -/
theorem clearDies_startUp (s : State) :
    s.clearDies.startUp = ((0, 0, 0, 0, 0, false, false, s.boot.perst), [], s.pending) := (rfl)

theorem regulatorsStop_bootInv (s : State) {n : Nat} (hn : n ≤ 3) : (s.regulatorsStop n).bootInv := by
  have h : (s.regulatorsStop n).startUp = ((0, 0, 0, 0, n, false, false, s.boot.perst), [], s.pending) := (rfl)
  have h1 : (s.regulatorsStop n).boot.legalKey = (0, 0, 0, 0, n, false, false, s.boot.perst) := congrArg Prod.fst h
  have h2 : (s.regulatorsStop n).rows = [] := congrArg (fun r => r.2.1) h
  refine ⟨Boot.legal_of_key (b := { lastRst := n, perst := s.boot.perst }) h1 ?_, by simp [h2]⟩
  simp [Boot.legal, hn]

/-- Entering stage ROM needs the host link, the rows and LAST_RST to be legal, nothing else. -/
theorem enterRom_bootInv {s : State} (hr : ∀ e ∈ s.rows, e.2.legal) (h4 : s.boot.image ≤ 2) (h5 : s.boot.lastRst ≤ 3)
    (h9 : s.boot.pcieUp = true → s.boot.perst = false) : s.enterRom.bootInv := by
  have hk : s.enterRom.startUp = ((1, 0, 0, s.boot.image, s.boot.lastRst, s.boot.linkEnded, s.boot.pcieUp, s.boot.perst), s.rows, s.pending) := by
    unfold State.enterRom
    split <;> rfl
  have h1 : s.enterRom.boot.legalKey = _ := congrArg Prod.fst hk
  have h2 : s.enterRom.rows = s.rows := congrArg (fun r => r.2.1) hk
  refine ⟨Boot.legal_of_key (b := { s.boot with stage := 1, result := 0, cause := 0 }) h1 ?_, by rw [h2]; exact hr⟩
  exact ⟨(by decide : 1 ≤ 7), Nat.zero_le 2, (by decide : 0 < 256), h4, h5, fun _ => rfl, fun h => by simp at h, fun h => by simp at h, h9⟩

theorem moduleReset_bootInv {s : State} (hi : s.bootInv) : s.moduleReset.bootInv := by
  unfold State.moduleReset
  split
  · refine enterRom_bootInv ?_ ?_ ?_ ?_
    · intro e he; exact absurd he (by simp [State.modBoot, State.clearDies, State.reset])
    · exact Nat.zero_le 2
    · exact (by decide : 1 ≤ 3)
    · exact hi.1.2.2.2.2.2.2.2.2
  · exact hi

/-- Row maps stay legal when a legal one is written. -/
theorem rows_set_legal {m : SMap RowMap} {k : Nat} {v : RowMap} (hm : ∀ e ∈ m, e.2.legal) (hv : v.legal) :
    ∀ e ∈ SMap.set .plain m k v, e.2.legal := by
  intro e he
  rcases SMap.mem_set he with ⟨h, _⟩ | ⟨h, _⟩
  · rw [h]; exact hv
  · exact hm e h

/-- BIST maps a row to a legal map (R417): the repaired column is a physical column other than the spare's. -/
theorem rowOutcome_legal {bad : List Nat} (hb : ∀ c ∈ bad, c < 13) : ((rowOutcome bad).getD .unusable).legal := by
  unfold rowOutcome
  split
  · trivial
  · trivial
  · rename_i f hf _
    have h : f ∈ bad.filter (fun c => decide (c ≠ 6)) := by rw [hf]; exact List.mem_singleton.mpr rfl
    have h2 := List.mem_filter.mp h
    exact ⟨Nat.le_of_lt_succ (hb f h2.1), by simpa using h2.2⟩
  · trivial

theorem mapRow_bootInv {s : State} {faulty : List (Fin 192 × Fin 13)} {j : Nat} (hi : s.bootInv) : (s.mapRow faulty j).bootInv := by
  unfold State.mapRow
  extract_lets +lift bad r s1 s2
  have hr : r.legal := by
    refine rowOutcome_legal (fun c hc => ?_)
    simp only [bad, List.mem_eraseDups, List.mem_map] at hc
    obtain ⟨e, _, rfl⟩ := hc
    exact e.2.isLt
  have h1 : s1.bootInv := ⟨hi.1, rows_set_legal hi.2 hr⟩
  have h2 : s2.bootInv := by
    refine bootInv_of_startUp ?_ h1
    rw [State.modBoot_startUp, Boot.legalKey_mk, Boot.legalKey_eta, State.startUp_eta]
  clear_value s2 s1 r
  split
  · exact bootInv_of_startUp (State.bootCount_startUp ..) h2
  · exact bootInv_of_startUp ((State.absorbed_startUp ..).trans (State.count_startUp ..)) h2
  · exact h2

/-- A swap writes NO_SPARE or the column of a core, which is not the spare's (R16, R391). -/
theorem swapCore_bootInv {s : State} {bad : List (Fin 12)} {no : Nat} (hi : s.bootInv) : (s.swapCore bad no).bootInv := by
  unfold State.swapCore
  extract_lets j src s1 s2 s3
  split
  · refine bootInv_of_startUp ((State.coreBeyond_startUp ..).trans (State.count_startUp ..)) ?_
    exact ⟨hi.1, rows_set_legal (v := .noSpare) hi.2 trivial⟩
  · have h2 : s2.bootInv := by
      refine ⟨hi.1, rows_set_legal (v := .repaired (plainColumn no)) hi.2 ?_⟩
      simp only [RowMap.legal, plainColumn]
      split <;> omega
    have h3 : s3.startUp = s2.startUp := by
      refine foldl_startUp _ _ s2 (fun x n => ?_)
      rw [State.restartGuests_startUp]
      split
      · rw [State.reloadCore_startUp, State.swappedCore_startUp]
      · rw [State.swappedCore_startUp]
    exact bootInv_of_startUp ((State.absorbed_startUp ..).trans ((State.count_startUp ..).trans h3)) h2

theorem ite_bootInv {c : Prop} [Decidable c] {a b : State} (ha : a.bootInv) (hb : b.bootInv) : (if c then a else b).bootInv := by
  split
  · exact ha
  · exact hb

/-- A write of a BAR0 register keeps `State.bootInv`: only MODULE_RESET touches what it speaks of. -/
theorem bar0Write_bootInv {s : State} {fn off : Nat} {v : Word} (hi : s.bootInv) : (s.bar0Write fn off v).bootInv := by
  have h1 : s.settleBar2.bootInv := bootInv_of_startUp (State.settleBar2_startUp s) hi
  unfold State.bar0Write
  refine ite_bootInv hi (ite_bootInv (bootInv_of_startUp (State.bootStatusWrite_startUp ..) h1) (ite_bootInv hi ?_))
  refine ite_bootInv (ite_bootInv (bootInv_of_startUp (State.ringWrite_startUp ..) h1) h1) ?_
  refine ite_bootInv (bootInv_of_startUp (State.msixWrite_startUp ..) h1) (ite_bootInv h1 ?_)
  refine ite_bootInv (ite_bootInv (moduleReset_bootInv h1) h1) ?_
  refine ite_bootInv (bootInv_of_startUp (State.winWrite_startUp ..) h1) ?_
  refine ite_bootInv (bootInv_of_startUp (State.winWrite_startUp ..) h1) ?_
  refine ite_bootInv (bootInv_of_startUp (State.ddmaWrite_startUp ..) h1) ?_
  refine ite_bootInv (bootInv_of_startUp (State.modHost_startUp ..) h1) ?_
  refine ite_bootInv (bootInv_of_startUp (State.modHost_startUp ..) h1) ?_
  refine ite_bootInv (bootInv_of_startUp (State.modHost_startUp ..) h1) ?_
  refine ite_bootInv (bootInv_of_startUp (State.fwuCtrl_startUp ..) h1) ?_
  refine ite_bootInv (bootInv_of_startUp (State.modHost_startUp ..) h1) ?_
  refine ite_bootInv (bootInv_of_startUp (State.modHost_startUp ..) h1) ?_
  refine ite_bootInv (bootInv_of_startUp (State.debugCtrl_startUp ..) h1) ?_
  refine ite_bootInv (bootInv_of_startUp (State.sidebandGo_startUp ..) h1) ?_
  exact ite_bootInv (bootInv_of_startUp (State.modHost_startUp ..) h1) h1

end Sys2Proof.Machine
end

