-- ==== Sys2Proof/Laws/Queue.lean ====
section
/-! SUPPORT. The queue of waiting commands through the operations and the commands that write the start-up registers or the row maps; every
other operation leaves it with `State.startUp`. -/

namespace Sys2Proof.Machine

theorem pending_of_startUp {s t : State} (h : t.startUp = s.startUp) : t.pending = s.pending := congrArg (fun r => r.2.2) h
@[simp] theorem State.pending_ite (c : Prop) [Decidable c] (a b : State) : (if c then a else b).pending = if c then a.pending else b.pending :=
  apply_ite ..
theorem foldl_pending {β : Type} (f : State → β → State) (l : List β) (s : State) (h : ∀ x b, (f x b).pending = x.pending) :
    (l.foldl f s).pending = s.pending := by
  induction l generalizing s with
  | nil => rfl
  | cons b t ih => rw [List.foldl_cons, ih, h]
@[simp] theorem State.bootCount_pending (s : State) (id n : Nat) : (s.bootCount id n).pending = s.pending := pending_of_startUp (by simp)
@[simp] theorem State.logEnd_pending (s : State) : s.logEnd.pending = s.pending := pending_of_startUp (State.logEnd_startUp s)
@[simp] theorem State.diesAt_pending (s : State) (r : Nat) : (s.diesAt r).pending = s.pending := pending_of_startUp (State.diesAt_startUp ..)
@[simp] theorem State.failAt_pending (s : State) (c : Nat) : (s.failAt c).pending = s.pending := by unfold State.failAt; simp
@[simp] theorem State.failStart_pending (s : State) (c : Nat) : (s.failStart c).pending = s.pending := by unfold State.failStart; simp
@[simp] theorem State.clearDies_pending (s : State) : s.clearDies.pending = s.pending := rfl
@[simp] theorem State.regulatorsStop_pending (s : State) (n : Nat) : (s.regulatorsStop n).pending = s.pending := rfl
@[simp] theorem State.enterRom_pending (s : State) : s.enterRom.pending = s.pending := by unfold State.enterRom; split <;> rfl
@[simp] theorem State.moduleReset_pending (s : State) : s.moduleReset.pending = s.pending := by
  unfold State.moduleReset; split <;> simp
@[simp] theorem State.mapRow_pending (s : State) (faulty : List (Fin 192 × Fin 13)) (j : Nat) : (s.mapRow faulty j).pending = s.pending := by
  unfold State.mapRow
  extract_lets bad r s1 s2
  have h : s2.pending = s.pending := rfl
  clear_value s2 r
  cases r
  · exact h
  · exact (State.bootCount_pending ..).trans h
  · exact (pending_of_startUp ((State.absorbed_startUp ..).trans (State.count_startUp ..))).trans h
  · exact h
theorem swapCore_pending (s : State) (bad : List (Fin 12)) (no : Nat) : (s.swapCore bad no).pending = s.pending := by
  unfold State.swapCore
  extract_lets j src s1 s2 s3
  split
  · exact (pending_of_startUp ((State.coreBeyond_startUp ..).trans (State.count_startUp ..))).trans (rfl : s1.pending = s.pending)
  · have h3 : s3.startUp = s2.startUp := by
      refine foldl_startUp _ _ s2 (fun x n => ?_)
      rw [State.restartGuests_startUp]
      split
      · rw [State.reloadCore_startUp, State.swappedCore_startUp]
      · rw [State.swappedCore_startUp]
    exact (pending_of_startUp ((State.absorbed_startUp ..).trans ((State.count_startUp ..).trans h3))).trans (rfl : s2.pending = s.pending)

theorem bar0Write_pending (s : State) (fn off : Nat) (v : Word) : (s.bar0Write fn off v).pending = s.pending := by
  have h1 : s.settleBar2.pending = s.pending := pending_of_startUp (State.settleBar2_startUp s)
  have hs : ∀ t : State, t.startUp = s.settleBar2.startUp → t.pending = s.pending := fun t h => (pending_of_startUp h).trans h1
  unfold State.bar0Write
  simp only [State.pending_ite, State.moduleReset_pending, h1, hs _ (State.bootStatusWrite_startUp _ _), hs _ (State.ringWrite_startUp _ _ _ _),
    hs _ (State.msixWrite_startUp _ _ _ _), hs _ (State.winWrite_startUp _ _ _), hs _ (State.ddmaWrite_startUp _ _ _ _),
    hs _ (State.modHost_startUp _ _), hs _ (State.fwuCtrl_startUp _ _), hs _ (State.debugCtrl_startUp _ _),
    hs _ (State.sidebandGo_startUp _ _), ite_self]

end Sys2Proof.Machine
end

