-- ==== Sys2Proof/Laws/StartUpCmds.lean ====
section
/-! SUPPORT. `State.bootInv` through each command that writes the start-up registers or the row maps. -/

namespace Sys2Proof.Machine

theorem next_bootInv {a t : State} (h : (Host.Outcome.next a : Host.Outcome State Fault Refusal) = .next t) (ha : a.bootInv) : t.bootInv := by cases h; exact ha
theorem ite_next_bootInv {c : Prop} [Decidable c] {a b : Host.Outcome State Fault Refusal} {t : State} (h : (if c then a else b) = .next t)
    (ha : c → a = .next t → t.bootInv) (hb : ¬ c → b = .next t → t.bootInv) : t.bootInv := by
  split at h
  · exact ha ‹_› h
  · exact hb ‹_› h
theorem modBoot_key_bootInv {s : State} {f : Boot → Boot} (hi : s.bootInv) (h : (f s.boot).legalKey = s.boot.legalKey) : (s.modBoot f).bootInv :=
  ⟨Boot.legal_of_key h hi.1, hi.2⟩
theorem execPowerOn_bootInv (a b) (s t) (hi : s.bootInv) (h : execPowerOn a b s = .next t) : t.bootInv := by
  refine ite_next_bootInv h (fun _ h => next_bootInv h hi) (fun _ h => next_bootInv h (bootInv_of_startUp (State.bootCount_startUp ..) ?_))
  refine ⟨Boot.legal_of_key (b := { perst := s.boot.perst }) rfl (by simp [Boot.legal]), fun e he => absurd he (by simp [State.modBoot, State.clearDies, State.reset])⟩
theorem execPowerLoss_bootInv (s t) (_hi : s.bootInv) (h : execPowerLoss s = .next t) : t.bootInv := by
  refine next_bootInv h ?_
  refine ⟨Boot.legal_of_key (b := { perst := s.boot.perst }) rfl (by simp [Boot.legal]), fun e he => absurd he (by simp [State.modBoot, State.clearDies, State.reset])⟩
theorem execStageRom_bootInv (a) (s t) (hi : s.bootInv) (h : execStageRom a s = .next t) : t.bootInv := by
  refine ite_next_bootInv h (fun _ h => next_bootInv h hi) (fun _ h => next_bootInv h ?_)
  exact enterRom_bootInv hi.2 hi.1.2.2.2.1 hi.1.2.2.2.2.1 hi.1.2.2.2.2.2.2.2.2
theorem execRefclkTimeout_bootInv (s t) (hi : s.bootInv) (h : execRefclkTimeout s = .next t) : t.bootInv :=
  ite_next_bootInv h (fun _ h => next_bootInv h (failAt_bootInv (by decide) hi)) (fun _ h => next_bootInv h hi)
theorem execRefclkArrival_bootInv (s t) (hi : s.bootInv) (h : execRefclkArrival s = .next t) : t.bootInv := by
  refine ite_next_bootInv h (fun c h => next_bootInv h hi) (fun _ h => ite_next_bootInv h (fun c h => next_bootInv h ?_) (fun _ h => next_bootInv h (modBoot_key_bootInv hi rfl)))
  obtain ⟨⟨h1, h2, h3, h4, h5, h6, h7, h8, h9⟩, hr⟩ := hi
  refine ⟨⟨h1, Nat.zero_le 2, (by decide : 0 < 256), h4, h5, fun _ => rfl, fun h => (by cases h), h8, ?_⟩, hr⟩
  intro h; simpa [State.modBoot] using h
theorem execPerstDeassert_bootInv (s t) (hi : s.bootInv) (h : execPerstDeassert s = .next t) : t.bootInv := by
  refine next_bootInv h ?_
  obtain ⟨⟨h1, h2, h3, h4, h5, h6, h7, h8, h9⟩, hr⟩ := hi
  exact ⟨⟨h1, h2, h3, h4, h5, h6, h7, h8, fun _ => rfl⟩, hr⟩
theorem execStageAuth_bootInv (a) (s t) (hi : s.bootInv) (h : execStageAuth a s = .next t) : t.bootInv := by
  refine ite_next_bootInv h (fun c h => next_bootInv h hi) (fun hc h => ?_)
  have hc' : s.boot.result = 0 := by
    simp [State.atStage] at hc; exact hc.1.2
  extract_lets s1 rd cause run s2 at h
  have himg : ∀ b rd c, imageCause b rd = some c → c < 256 := by
    intro b rd c h
    unfold imageCause at h
    simp only [] at h
    split at h
    · cases h; decide
    split at h
    · cases h; decide
    split at h
    · cases h; decide
    · cases h
  have hcause : ∀ k c, cause k = some c → c < 256 := by
    intro k c h
    simp only [cause] at h
    split at h
    · exact himg _ _ _ h
    · cases h; decide
  have h1 : s1.bootInv := by
    obtain ⟨⟨h1, h2, h3, h4, h5, h6, h7, h8, h9⟩, hr⟩ := hi
    refine ⟨⟨(by decide : 2 ≤ 7), h2, h3, h4, h5, h6, fun h => ?_, fun h => (by simp [State.modBoot, s1] at h), h9⟩, hr⟩
    exact absurd (hc'.symm.trans h) (by decide)
  have hs1 : s1.boot.result = 0 := hc'
  have hst : s1.boot.stage = 2 := rfl
  have hrun : ∀ x : State, x.startUp = s1.startUp → ∀ k, k ≤ 1 → (run x k).bootInv := by
    intro x hx k hk
    obtain ⟨⟨h1, h2, h3, h4, h5, h6, h7, h8, h9⟩, hr⟩ := bootInv_of_startUp hx h1
    have hs2 : x.boot.stage = 2 := by
      have := congrArg (fun p => p.1.1) hx
      exact this
    have hr2 : x.boot.result = 0 := by
      have := congrArg (fun p => p.1.2.1) hx
      exact this.trans hs1
    refine ⟨⟨h1, h2, h3, by simp only [run, State.modBoot]; omega, h5, h6, fun h => absurd (hr2.symm.trans h) (by decide), fun h => ?_, h9⟩, hr⟩
    simp [run, State.modBoot]
  split at h
  · exact next_bootInv h (hrun s1 rfl 0 (by decide))
  · split at h
    · exact next_bootInv h (hrun s2 (State.bootCount_startUp ..) 1 (by decide))
    · rename_i c hc2
      exact next_bootInv h (failStart_bootInv (hcause _ _ hc2) (bootInv_of_startUp (State.bootCount_startUp ..) h1))
theorem ivrRun_lt (reg test : BitVec 25) (l) : ∀ c, (ivrRun reg test l).2 = some c → c < 256 := by
  induction l with
  | nil => intro c h; cases h
  | cons g t ih =>
    intro c h
    simp only [ivrRun] at h
    split at h
    · cases h; decide
    split at h
    · cases h; decide
    · exact ih c h
theorem stage_bootInv {s : State} {f : Boot → Boot} {n : Nat} (hi : s.bootInv) (hn : n ≤ 7) (hr : s.boot.result = 0) (him : s.boot.image ≠ 0)
    (hk : (f s.boot).legalKey = { s.boot with stage := n }.legalKey) : (s.modBoot f).bootInv := by
  obtain ⟨⟨h1, h2, h3, h4, h5, h6, h7, h8, h9⟩, hr'⟩ := hi
  exact ⟨Boot.legal_of_key hk ⟨hn, h2, h3, h4, h5, h6, fun h => absurd (hr.symm.trans h) (by decide), fun _ => him, h9⟩, hr'⟩
theorem atStage_of_not {s : State} {n : Nat} (h : ¬ (!s.atStage n) = true) : s.boot.stage = n ∧ s.boot.result = 0 := by
  simp [State.atStage] at h; exact h.1
theorem execStageIvr_bootInv (a b) (s t) (hi : s.bootInv) (h : execStageIvr a b s = .next t) : t.bootInv := by
  refine ite_next_bootInv h (fun c h => next_bootInv h hi) (fun hc h => ?_)
  have hc2 : s.atStage 2 = true ∧ s.boot.image ≠ 0 := by simpa using hc
  have hc3 := atStage_of_not (s := s) (n := 2) (by simp [hc2.1])
  extract_lets r s1 at h
  have h1 : s1.bootInv := stage_bootInv hi (by decide : 3 ≤ 7) hc3.2 hc2.2 (Boot.legalKey_mk)
  split at h
  · rename_i c hh; exact next_bootInv h (failStart_bootInv (ivrRun_lt _ _ _ _ hh) h1)
  · exact next_bootInv h (bootInv_of_startUp ((foldl_startUp _ _ _ (fun x d => State.setGov_startUp ..)).trans (State.diesAt_startUp ..)) h1)
theorem execStageMem_bootInv (a) (s t) (hi : s.bootInv) (h : execStageMem a s = .next t) : t.bootInv := by
  refine ite_next_bootInv h (fun c h => next_bootInv h hi) (fun hc h => ?_)
  have hc3 := atStage_of_not hc
  have him : s.boot.image ≠ 0 := hi.1.2.2.2.2.2.2.2.1 (Nat.le_of_eq hc3.1.symm)
  extract_lets s1 all s2 dens odd s3 lost s4 at h
  have h1 : s1.bootInv := stage_bootInv hi (by decide : 4 ≤ 7) hc3.2 him (Boot.legalKey_mk)
  have h2 : s2.bootInv := bootInv_of_startUp (foldl_startUp _ _ _ (fun x d => State.trainPort_startUp ..)) h1
  have h3 : s3.bootInv := modBoot_key_bootInv h2 Boot.legalKey_mk
  have h4 : s4.bootInv := bootInv_of_startUp (foldl_startUp _ _ _ (fun x d => (State.post_startUp ..).trans (State.count_startUp ..))) h3
  refine ite_next_bootInv h (fun _ h => next_bootInv h (failStart_bootInv (by decide) (bootInv_of_startUp (foldl_startUp _ _ _ (fun x d => State.post_startUp ..)) h3))) (fun _ h => ?_)
  exact ite_next_bootInv h (fun _ h => next_bootInv h (failStart_bootInv (by decide) h4)) (fun _ h => next_bootInv h h4)
theorem execStageLink_bootInv (a) (s t) (hi : s.bootInv) (h : execStageLink a s = .next t) : t.bootInv := by
  refine ite_next_bootInv h (fun c h => next_bootInv h ?_) (fun hc h => next_bootInv h hi)
  obtain ⟨⟨h1, h2, h3, h4, h5, h6, h7, h8, h9⟩, hr'⟩ := hi
  exact ⟨⟨h1, h2, h3, h4, h5, h6, fun h => ⟨(h7 h).1, rfl⟩, h8, h9⟩, hr'⟩
theorem execStageBist_bootInv (a) (s t) (hi : s.bootInv) (h : execStageBist a s = .next t) : t.bootInv := by
  refine ite_next_bootInv h (fun c h => next_bootInv h hi) (fun hc h => ?_)
  have hc3 := atStage_of_not hc
  have him : s.boot.image ≠ 0 := hi.1.2.2.2.2.2.2.2.1 (by rw [hc3.1]; exact (by decide : 3 ≤ 4))
  have h1 : (s.modBoot (fun b => { b with stage := 5, logBistFail := a.eraseDups.length })).bootInv := stage_bootInv hi (by decide : 5 ≤ 7) hc3.2 him (Boot.legalKey_mk)
  have h2 := foldl_bootInv (fun s j => State.mapRow s a j) (List.range 192) _ (fun x j hx => mapRow_bootInv hx) h1
  exact ite_next_bootInv h (fun _ h => next_bootInv h (failStart_bootInv (by decide) h2)) (fun _ h => next_bootInv h h2)
theorem execStageParity_bootInv (a) (s t) (hi : s.bootInv) (h : execStageParity a s = .next t) : t.bootInv := by
  refine ite_next_bootInv h (fun c h => next_bootInv h hi) (fun hc h => ?_)
  have hc3 := atStage_of_not hc
  have him : s.boot.image ≠ 0 := hi.1.2.2.2.2.2.2.2.1 (by rw [hc3.1]; exact (by decide : 3 ≤ 5))
  extract_lets s1 s2 s3 away at h
  have h1 : s1.bootInv := stage_bootInv hi (by decide : 6 ≤ 7) hc3.2 him (Boot.legalKey_mk)
  have h2 : s2.bootInv := bootInv_of_startUp (State.modMem_startUp ..) h1
  have h3 : s3.bootInv := by
    refine bootInv_of_startUp (foldl_startUp _ _ _ (fun x d => ?_)) h2
    split
    · rfl
    · exact State.portOffline_startUp ..
  exact ite_next_bootInv h (fun _ h => next_bootInv h (failStart_bootInv (by decide) h3)) (fun _ h => next_bootInv h (bootInv_of_startUp (State.modMem_startUp ..) h3))
theorem execStageReady_bootInv (s t) (hi : s.bootInv) (h : execStageReady s = .next t) : t.bootInv := by
  refine ite_next_bootInv h (fun c h => next_bootInv h hi) (fun hc h => next_bootInv h (bootInv_of_startUp (State.logEnd_startUp ..) ?_))
  have hc2 : s.atStage 6 = true ∧ s.boot.linkEnded = true := by simpa using hc
  have hc3 := atStage_of_not (s := s) (n := 6) (by simp [hc2.1])
  have hx : ∀ l : List Nat, (l.foldl (fun (s : State) d => s.arbAll d false) s).startUp = s.startUp := fun l => foldl_startUp _ _ _ (fun x d => State.arbAll_startUp ..)
  generalize hg : ((List.range 20 ++ [24]).foldl (fun (s : State) d => s.arbAll d false) s) = g
  have hgs := hg ▸ hx (List.range 20 ++ [24])
  obtain ⟨⟨h1, h2, h3, h4, h5, h6, h7, h8, h9⟩, hr'⟩ := bootInv_of_startUp hgs hi
  have e1 : g.boot.stage = 6 := (congrArg (fun p => p.1.1) hgs).trans hc3.1
  have e2 : g.boot.result = 0 := (congrArg (fun p => p.1.2.1) hgs).trans hc3.2
  have e3 : g.boot.linkEnded = true := (congrArg (fun p => p.1.2.2.2.2.2.1) hgs).trans hc2.2
  exact ⟨⟨Nat.le_refl 7, (by decide : 1 ≤ 2), h3, h4, h5, fun _ => h6 (by omega), fun _ => ⟨rfl, e3⟩, fun _ => h8 (by omega), h9⟩, hr'⟩
theorem execMemPwrGoodFall_bootInv (s t) (hi : s.bootInv) (h : execMemPwrGoodFall s = .next t) : t.bootInv := by
  refine ite_next_bootInv h (fun c h => next_bootInv h ?_) (fun hc h => next_bootInv h (modBoot_key_bootInv hi Boot.legalKey_mk))
  refine modBoot_key_bootInv (modBoot_key_bootInv (bootInv_of_startUp (State.bootCount_startUp ..) (regulatorsStop_bootInv s (by decide : 2 ≤ 3))) Boot.legalKey_mk) Boot.legalKey_mk
theorem execThermalTrip_bootInv (s t) (hi : s.bootInv) (h : execThermalTrip s = .next t) : t.bootInv := by
  refine next_bootInv h (ite_bootInv (modBoot_key_bootInv (bootInv_of_startUp (State.bootCount_startUp ..) (regulatorsStop_bootInv s (by decide : 3 ≤ 3))) Boot.legalKey_mk) hi)
theorem execBrownOut_bootInv (s t) (hi : s.bootInv) (h : execBrownOut s = .next t) : t.bootInv := by
  refine next_bootInv h (ite_bootInv (bootInv_of_startUp (State.bootCount_startUp ..) (regulatorsStop_bootInv s (by decide : 2 ≤ 3))) hi)
theorem execHostPortReset_bootInv (k) (s t) (hi : s.bootInv) (h : execHostPortReset k s = .next t) : t.bootInv := by
  have h0 : (if s.ready then s.portReset else s).bootInv := ite_bootInv (bootInv_of_startUp (State.portReset_startUp ..) hi) hi
  unfold execHostPortReset at h
  extract_lets s1 s2 at h
  have h1 : s2.bootInv := ite_bootInv (bootInv_of_startUp (State.count_startUp ..) h0) h0
  refine next_bootInv h (ite_bootInv ?_ h1)
  obtain ⟨⟨a1, a2, a3, a4, a5, a6, a7, a8, a9⟩, hr'⟩ := h1
  exact ⟨⟨a1, a2, a3, a4, a5, a6, a7, a8, fun h => (by cases h)⟩, hr'⟩
theorem execTinSoldierSwap_bootInv (a b) (s t) (hi : s.bootInv) (h : execTinSoldierSwap a b s = .next t) : t.bootInv := by
  refine ite_next_bootInv h (fun c h => next_bootInv h hi) (fun hc h => ?_)
  have h1 := foldl_bootInv (fun s n => State.swapCore s b n) (s.toSwap.filter (fun n => decide (dieOf n = a.val))) _
    (fun x n hx => swapCore_bootInv hx) (bootInv_of_startUp (State.arbAll_startUp s a.val true) hi)
  have h2 := bootInv_of_startUp (State.arbAll_startUp _ a.val false) h1
  split at h
  · exact next_bootInv h (ite_bootInv (bootInv_of_startUp (State.adopt_startUp ..) h2) h2)
  · exact next_bootInv h h2

end Sys2Proof.Machine
end

