-- ==== Sys2Proof/WellFormed.lean ====
section
/-! DEFINITION. Which commands are well formed: operands that name something that exists and have the shape the spec gives them. A value
that the spec makes a fault or a refusal of its own is not ill formed. -/

namespace Sys2Proof

/-- Whether a power domain of a kind exists (R366). -/
def unitNamed (kind i : Nat) : Bool :=
  match kind with
  | 0 => decide (i % 64 < 48) && decide (i / 256 < 48) && decide (i / 64 % 4 = 0)
  | 1 => decide (i < 16)
  | 2 => decide (16 ≤ i) && decide (i < 20)
  | 3 => decide (20 ≤ i) && decide (i < 24)
  | 4 => decide (i = 24)
  | 5 => decide (i < 48)
  | 6 => decide (i < 16)
  | _ => decide (i = 0)

/-- The shape of shadow work (R102): 64 lines of 64 words for each operand, and a tile of 4,096 words. -/
def shadowShaped (a : ShadowArgs) : Bool :=
  a.a.all (fun l => decide (l.length = 64)) && a.b.all (fun l => decide (l.length = 64)) && decide (a.result.length = 4096)

/-- The shape of a flit (R260): 208 payload bytes at most, FILL of them valid, six credit fields. -/
def flitShaped (f : Flit) : Bool :=
  decide (f.payload.length ≤ 208) && decide (f.fill.toNat ≤ 208) && decide (f.credits.length ≤ 6)

/-- The widths of a port (R274). -/
def portWidth (n : Nat) : Bool := decide (n = 24) || decide (n = 16) || decide (n = 8)

/-- Whether a message has the length that its header can state (R184). -/
def msgShaped (m : Msg) : Bool := decide (m.payload.length < 2 ^ 13)

/-- Whether a command is well formed. -/
def wellFormed (i : Instr) : Bool :=
  match i with
  | .stageMem ports => decide (ports.length = 48)
  | .ringMessage m => msgShaped m
  | .tokenMessage m => msgShaped m
  | .creditMessage m => msgShaped m
  | .joinSegment m => msgShaped m
  | .jigsawResend m => msgShaped m
  | .jigsawResendTimeout _ _ tile => decide (tile < 2 ^ 32)
  | .wideRequest m => msgShaped m
  | .domainEnable kind index _ _ => unitNamed kind.val index.toNat
  | .drainComplete kind index => unitNamed kind.val index.toNat
  | .retireStepComplete kind index => unitNamed kind.val index.toNat
  | .exitComplete kind u => unitNamed kind.val u.index.toNat
  | .thermalSensorRead _ t => decide (-128 ≤ t) && decide (t ≤ 127)
  | .shadowTile _ a => shadowShaped a
  | .contributionReceive m => msgShaped m
  | .landCredit _ m => msgShaped m
  | .contribResend m => msgShaped m
  | .seal m => msgShaped m
  | .epochPart m => msgShaped m
  | .gatherReq m => msgShaped m
  | .gatherReceive m => msgShaped m
  | .bwdRelease m => msgShaped m
  | .permuteEntryReceive m => msgShaped m
  | .permuteDone m => msgShaped m
  | .memberLost m => msgShaped m
  | .mirrorUnitReceive m => msgShaped m
  | .shardCommit _ _ w => decide (w.rowDesc.length = 64) && decide (w.rowRec.length = 32) && decide (w.colDesc.length = 64) && decide (w.colRec.length = 32)
  | .linkState m => msgShaped m
  | .flitReceive _ f => flitShaped f
  | .rungReq _ rung => decide (rung.toNat < 7)
  | .rungAck _ rung => decide (rung.toNat < 7)
  | .widthReq _ width => portWidth width.toNat
  | .portTrainingComplete _ far => (far.map (fun i => decide (i.k.length = 4))).getD true
  | .memRead q ecc => decide (0 < q.len) && ecc.all (fun e => decide (e.1 < q.len / 256 + 2))
  | .memWrite q data => decide (0 < data.length) && decide (data.length = q.len)
  | .stripeBufferTimeout _ row => decide (row < 2 ^ 25)
  | .patrolScrub _ _ row _ => decide (row < 2 ^ 25)
  | .copy die chan _ => decide (die.val < 4) || decide (chan.toNat < 16)
  | .addF32 die chan _ => decide (die.val < 4) || decide (chan.toNat < 16)
  | .dmaSend die chan _ => decide (die.val < 4) || decide (chan.toNat < 16)
  | .dmaComplete die chan => decide (die.val < 4) || decide (chan.toNat < 16)
  | .dmaNotice m => msgShaped m
  | .cqHeadPoll die chan => decide (die.val < 4) || decide (chan.toNat < 16)
  | .dmaChannelAbort die chan => decide (die.val < 4) || decide (chan.toNat < 16)
  | .arbRound r => r.arrive.all (fun x => decide (x.1 < 4096)) && (r.ends ++ r.ready).all (fun n => decide (n < 4096))
  | .bar0UnsupportedRequest _ off len => !(decide (len.toNat = 4) && decide (off.toNat % 4 = 0))
  | .registerWrite _ off _ => decide (off.toNat % 4 = 0)
  | .sidebandRead die off => decide (die.toNat ≤ 24) && decide (off.toNat % 4 = 0)
  | .sidebandWrite die off => decide (die.toNat ≤ 24) && decide (off.toNat % 4 = 0)
  | .getTemps side => decide (side.length = 9)
  | .getPower _ _ _ dies => decide (dies.length = 16)
  | .bar2Resize log2 => decide (30 ≤ log2.toNat) && decide (log2.toNat ≤ 36)
  | .powerOn .. | .stageRom .. | .refclkTimeout | .refclkArrival | .perstDeassert | .stageAuth .. | .stageIvr .. | .stageLink ..
  | .stageBist .. | .stageParity .. | .stageReady | .brownOut | .overvoltage | .memPwrGoodFall | .moduleReset
  | .moduleResetWrite .. | .hostPortReset .. | .guestFunctionReset .. | .testReset | .thermalTrip | .nop .. | .lsmov ..
  | .lsmovFill .. | .dload .. | .dstore .. | .send .. | .recv .. | .rfree .. | .fwd .. | .sync .. | .wait .. | .waitStep ..
  | .waitTimeout .. | .quant .. | .pinwheel .. | .matmul .. | .wmatmul .. | .tap .. | .max .. | .min .. | .maxabs .. | .sum ..
  | .ssq .. | .norm .. | .countNf .. | .tload .. | .tstore .. | .tred .. | .tbin .. | .iadd .. | .isub .. | .imul .. | .imin ..
  | .imax .. | .iabs .. | .ineg .. | .icmpeq .. | .icmplt .. | .shl .. | .shr .. | .sra .. | .andOp .. | .orOp .. | .xorOp ..
  | .andn .. | .sel .. | .mov .. | .fadd .. | .fsub .. | .fmul .. | .ffma .. | .fmin .. | .fmax .. | .fabs .. | .fneg ..
  | .fcmpeq .. | .fcmplt .. | .fcmple .. | .cvtF32I32 .. | .cvtI32F32 .. | .cvtToBf16 .. | .cvtToFp16 .. | .cvtToE5m2 ..
  | .cvtToE4m3 .. | .cvtFromBf16 .. | .cvtFromFp16 .. | .cvtFromE5m2 .. | .cvtFromE4m3 .. | .loop .. | .branch .. | .sets ..
  | .adds .. | .sload .. | .sloadSpecial .. | .sleep .. | .trap .. | .opComplete .. | .guestEntry .. | .guestPreempt ..
  | .coreGate .. | .coreWake .. | .coreDozeEntry .. | .coreNapEntry .. | .dieGate .. | .budgetRefill .. | .budgetCorrection ..
  | .purseRefillRequest .. | .governorRound .. | .governorWindow .. | .bankClear .. | .chestGrant | .chestRecall | .stepRelease
  | .tinSoldierSwap .. | .contributionEnd .. | .sealSend | .firmwareEpochClose .. | .coreFault ..
  | .moduleFault | .seamReplay .. | .nextEpochIssue | .jobLoadEpochTimeout | .gatherServe | .lostMemberTimeout .. | .takeover ..
  | .stepRepair .. | .mirrorSend | .flitFlushTimeout .. | .laneMap .. | .laneRetire .. | .laneSpared .. | .pairDown ..
  | .portGate .. | .portOffline .. | .portRebuildComplete .. | .portThermalReturn .. | .mr4Poll .. | .lcQuotaWindow ..
  | .memPortGate .. | .arbFreeze .. | .arbUnfreeze .. | .arbModeChange .. | .ringEnable .. | .ringDisable .. | .ringBaseWrite ..
  | .doorbell .. | .ringErrClear .. | .commandFetch .. | .irqCoalesce .. | .eventFlush .. | .reconcileSweep | .nopCommand ..
  | .identify | .linkConfig | .partitionCreate | .partitionDestroy | .scrubPartition | .memPortSetOffline | .memPortSetReturn ..
  | .powerSet .. | .governorSet | .telemetryRead .. | .telemetryReadClear .. | .jobLoad .. | .jobUnload .. | .jobMap ..
  | .stateCopyIn .. | .stateCopyOut .. | .runStep | .cancelSteps | .layerMode .. | .fallbackPolicy .. | .epochIssue | .epochClose
  | .spareSet | .reshard | .journalRead | .replayStep | .rollbackRelease | .bar2WinWrite .. | .bar2Read .. | .bar2Write ..
  | .ddmaEnable .. | .ddmaDisable .. | .ddmaAbort .. | .ddmaSubmit .. | .fwuImageWrite .. | .fwuRaise .. | .debugRequest ..
  | .debugRelease .. | .jtagInstructionLoad .. | .getHealth | .setPowerLimit .. | .readBootStatus | .readStartLog ..
  | .mctpModuleReset | .getIdentity | .powerLoss | .crystalStart | .refclkStop | .tokenBucketFill .. | .scrubDone ..
  | .fwuDone .. | .vfEnable .. => true

end Sys2Proof
end

