-- ==== Sys2Proof/Tests/Slice0.lean ====
section
/-! SUPPORT. The author's own tests: well-formedness refuses each ill-formed term, worked examples of the spec, and for each obligation a
state and operands that meet its hypotheses (`wit_…`). -/

set_option Elab.async false
namespace Sys2Proof.Tests
open Sys2Proof Sys2Proof.Machine

/-- The next state of an outcome. -/
def run (o : Host.Outcome State Fault Refusal) : State := match o with | .next t => t | _ => State.reset
/-- The main context of core (0, 0), an op with no fields set. -/
def wp : Site := { x := 0, y := 0, guest := false }
/-- An op head with no fields set. -/
def wh : OpHead := { st := false, tok := 0#4, wmask := 0#16 }
/-- A main context that runs at op 0 of an 8-op routine, with constants at line 100 and descriptors at line 110. -/
def wctx : Ctx :=
  { status := .running, slot := 0, purse := 10000000, sregs := [(1, 7#32), (2, 50#32)], tokens := [(3, 2)]
    hdr := { nOps := 8, ocBase := 4, ocLines := 64, const := { line := 100, count := 4 }, desc := { line := 110, count := 2 }
             grant := { line := 105, count := 2 } } }
/-- A core with that context and a few bytes set. -/
def wcore : Core :=
  { main := wctx, lmem := { cells := [(2000, 5#8), (25600, 0x80#8), (25603, 0x3F#8)] }, oc := { cells := [(1024, 9#8), (1028, 3#8)] }, step := 6#32 }
/-- A state in which core (0, 0) runs slot 0's routine. -/
def wst : State :=
  { State.reset with cores := [(0, wcore)], slots := [(0, { st := .running })], govs := [(0, { clock := 1000 })], modId := 5#14 }
/-- A module whose start-up has reached stage `n`. -/
def bst (n : Nat) : State :=
  { State.reset with boot := { aon := true, rails := true, stage := n, pll := true, image := 1, memPwrGood := true, pcieUp := true, perst := false, begun := true } }
/-- A module in service: ports up, one partition of OWNER 6, BAR0 answering. -/
def up : State :=
  { wst with
    boot := { (bst 7).boot with result := 1, linkEnded := true }
    mem := { parts := [(0, { valid := true, owner := 6, groups := 3, rows := 64 })], ports := (List.range 48).map (fun i => (i, { st := 0 })) } }

/-! The queue, power and start-up. -/

theorem wit_StepRunsTheFrontCommand : State.reset.pending = [] := by decide
theorem wit_PowerAndReferenceComplete : State.reset.boot.aon = false ∧ State.reset.boot.refReq = false ∧ (bst 1).boot.aon = true := by decide
theorem wit_ReferenceWaitResumes : (bst 0).boot.aon = true ∧ (bst 0).boot.stage = 0 ∧ (bst 0).boot.memFell = false ∧
    (let s := { bst 1 with boot := { (bst 1).boot with pll := false, refReq := true } }
     s.boot.stage = 1 ∧ s.boot.result = 0 ∧ s.boot.pll = false ∧ s.boot.refReq = true ∧ s.boot.result ≠ 1) ∧
    ¬ ((1 : Nat) = 0 ∧ ((8 : Nat) = 8 ∨ False)) := by decide
theorem wit_StagesAdvance : (bst 1).atStage 1 = true ∧ (bst 2).atStage 2 = true ∧ (bst 2).boot.image ≠ 0 ∧ (bst 3).atStage 3 = true ∧
    (bst 3).boot.memPwrGood = true ∧ (0#8).toNat ≤ 1 ∧
    (∀ p, p < 48 → (memPort (List.replicate 48 { rate := some 0#3, density := 0#8 }) p).rate.isSome = true ∧
      (memPort (List.replicate 48 { rate := some 0#3, density := 0#8 }) p).density = 0#8) ∧
    (bst 4).boot.result = 0 ∧ (bst 4).boot.linkEnded = false ∧ (bst 4).atStage 4 = true ∧
    (let s := { bst 5 with mem := { (bst 5).mem with ports := (List.range 48).map (fun i => (i, { st := 0 })) } }
     s.atStage 5 = true ∧ ∀ p, p < 48 → (s.mem.port p).away = false) ∧
    (let s := { bst 6 with boot := { (bst 6).boot with linkEnded := true } }
     s.atStage 6 = true ∧ s.boot.linkEnded = true) := by decide
theorem wit_FailedStartUpStays :
    imageCause { (bst 1).boot with stage := 2 } (fun i => (bst 1).boot.flash.read (flashBase 0 + i)) = some 0x12 ∧
    imageCause { (bst 1).boot with stage := 2 } (fun i => (bst 1).boot.flash.read (flashBase 1 + i)) = some 0x12 ∧
    (bst 2).atStage 2 = true ∧ (bst 4).atStage 4 = true ∧ (3 : Fin 13) ≠ 4 ∧ (3 : Fin 13) ≠ 6 ∧
    (let s := { bst 2 with boot := { (bst 2).boot with result := 2 } }
     s.boot.result = 2 ∧ s.boot.stage ≠ 0) := by decide
theorem wit_ResetsClearAndKeep : (bst 7).boot.rails = true ∧ 4 ≤ (bst 7).boot.stage ∧ (bst 3).boot.stage < 4 ∧ up.boot.result = 1 ∧
    up.boot.pcieUp = true ∧ (0x1B007#32).toNat % 65536 = 0xB007 ∧ up.boot.aon = true ∧ (up.slot 0).st.loaded = true ∧
    (let s := { up with mail := { vfs := [1] } }
     s.hostUp = true ∧ s.mail.vfs.contains 1 = true) := by decide
theorem wit_EveryStepKeepsBootInv : up.bootInv ∧ ∃ t, step up = .next t :=
  ⟨⟨by unfold Boot.legal; decide, fun e he => by cases he⟩, _, rfl⟩
theorem test_stageIvr : (run (exec (.stageIvr (BitVec.allOnes 25) (BitVec.allOnes 25)) (bst 2))).boot.stage = 3 ∧
    ((run (exec (.stageIvr (BitVec.allOnes 25) (BitVec.allOnes 25)) (bst 2))).gov 15).clock = 1000 := by decide
theorem test_thermalTrip : (run (exec .thermalTrip up)).boot.lastRst = 3 ∧ (run (exec .thermalTrip up)).slots = [] := by decide

/-! The issue of ops, the control ops and the vector unit. -/

/-- A LOOP of `n` iterations over two ops. -/
def loop (n : BitVec 16) : LoopArgs := { s := 5#4, count := n, c := 0#4, body := 2#12, step := 4#16 }
/-- A BRANCH to the op after next. -/
def br (c : BitVec 4) : BranchArgs := { cond := c, target := 2#16, s := 1#4, imm := 7#32, bit := 3#8 }
/-- The state at `wst` with the main context as `f` makes it. -/
def ctxAs (f : Ctx → Ctx) : State := { wst with cores := [(0, { wcore with main := f wctx })] }

theorem wit_IssueTakesTokensAndEnergy : wst.issues wp wh (nopPlan wh) = true ∧ (wst.ctx wp).staysIn = true ∧
    (let s := ctxAs (fun c => { c with status := .trapped 3 })
     (s.ctx wp).status = .trapped 3) ∧
    (wst.ctx wp).status = .running ∧ wst.mayIssue wp { wh with wmask := 4#16 } (nopPlan wh) = false ∧ wp.guest = false ∧ (wst.ctx wp).inflight = [] ∧
    (let h := { wh with rsv := 1#128 }
     wst.mayIssue wp h (nopPlan h) = true ∧ h.rsv ≠ 0#128) ∧
    (let s := ctxAs (fun c => { c with purse := 0 })
     let pl := lsmovPlan s wp wh { src := { s := 0#4, off := 500#14 }, dst := { s := 0#4, off := 502#14 }, nlinesM1 := 1#7, const := 0#6 }
     (s.ctx wp).status = .running ∧ s.mayIssue wp wh pl = true ∧ issueFault (s.ctx wp) wh pl = none ∧ pl.wait = none ∧ s.energyOk wp pl = false) := by decide +kernel
theorem wit_ScalarOpsWriteOneRegister : wst.issues wp wh (setsPlan wh 3#4 9#32) = true ∧
    wst.issues wp wh (addsPlan wh { d := 3#4, a := 1#4, b := 2#4, imm := 0xFFFF#16, reg := false }) = true ∧
    wst.issues wp wh (sloadPlan wst wp wh 3#4 { s := 0#4, off := 100#14 } 0#6) = true ∧
    wst.issues wp wh (sloadSpecialPlan wh 3#4 { s := 0#4, off := 0x3FFF#14 } 3#6) = true ∧ wst.issues wp wh (sleepPlan wh 2#3) = true ∧
    (wst.ctx wp).staysIn = true ∧ (15#4 : BitVec 4) ≠ 0#4 := by decide
theorem test_adds_wraps : ((run (exec (.adds wp wh { d := 3#4, a := 1#4, b := 2#4, imm := 0xFFF8#16, reg := false }) wst)).ctx wp).sreg 3#4 =
    0xFFFFFFFF#32 := by decide
theorem wit_LoopsAndBranches : wst.issues wp wh (loopPlan (wst.ctx wp) wh (loop 3#16)) = true ∧ loopCount (wst.ctx wp) (loop 3#16) ≠ 0 ∧
    wst.issues wp wh (loopPlan (wst.ctx wp) wh (loop 0#16)) = true ∧ loopCount (wst.ctx wp) (loop 0#16) = 0 ∧
    ((wst.ctx wp).goto 3).pos < (wst.ctx wp).hdr.nOps ∧ wst.issues wp wh (branchPlan (wst.ctx wp) wh (br 6#4)) = true ∧
    (wst.ctx wp).staysIn = true ∧ (br 6#4).cond.toNat ≤ 6 ∧ 8 < (br 9#4).cond.toNat ∧
    (let f := LoopFrame.mk 1 2 2 5#4 4#16
     ({ wctx with loops := [f] } : Ctx).loops = f :: [] ∧ 2 = f.last ∧ 1 < f.left ∧ (3 : Nat) ≠ f.last ∧ { f with left := 1 }.left ≤ 1) := by decide
theorem test_branch_taken : ((run (exec (.branch wp wh (br 1#4)) wst)).ctx wp).pos = 2 ∧ ((run (exec (.branch wp wh (br 2#4)) wst)).ctx wp).pos = 1 := by
  decide
theorem wit_WaitsAndTraps :
    (let h := { wh with wmask := 1#16 }
     wst.issues wp { h with st := false } (waitPlan h 5#32 4#4) = true ∧ (wst.ctx wp).tokensReady h.wmask = false) ∧
    (let h := { wh with wmask := 8#16, st := true, tok := 3#4 }
     wst.issues wp { h with st := false } (waitPlan h 5#32 4#4) = true ∧ (wst.ctx wp).tokensReady h.wmask = true ∧
       ((wst.ctx wp).takeTokens h.wmask).token h.tok.toNat < 15 ∧ (wst.ctx wp).staysIn = true) ∧
    wst.issues wp { wh with st := false } (waitStepPlan wp wh 0#32 4#4) = true ∧ (wst.ctx wp).held = false ∧
    wst.issues wp wh (trapPlan wst wp wh 0#16 0xFFFF#16) = true ∧ wst.issues wp wh (trapPlan wst wp wh 6#16 0#16) = true ∧ (6#16 : BitVec 16) ≠ 0#16 ∧
    (let s := { wst with cores := [(0, { wcore with lmem := { cells := [(4, 3#8), (7, 0x80#8)] } })] }
     s.issues wp wh (trapPlan s wp wh 0#16 1#16) = true ∧ (1#16 : BitVec 16) ≠ 0xFFFF#16) := by decide +kernel
theorem wit_WaitsAndTraps_timeout :
    (let s := ctxAs (fun c => { c with status := .waitTok 1#16 5#32 4#4 none })
     (s.ctx wp).status = .waitTok 1#16 5#32 4#4 none ∧ (5#32 : Word) ≠ 0#32 ∧ (s.ctx wp).tokensReady 1#16 = false ∧ (s.ctx wp).staysIn = true) ∧
    (let s := ctxAs (fun c => { c with status := .waitTok 1#16 5#32 4#4 (some 3), tokens := [(3, 15)] })
     (s.ctx wp).status = .waitTok 1#16 5#32 4#4 (some 3) ∧ (s.ctx wp).tokensReady 1#16 = false ∧ 15 ≤ (s.ctx wp).token 3) := by decide
theorem test_trap : ((run (exec (.trap wp wh 6#16 0#16) wst)).ctx wp).status = .trapped 6 := by decide

/-- Operands of a vector op over three rows. -/
def va : VecArgs :=
  { nM1 := 2#6, d := .oc 10#10 1#5, a := .oc 0#10 0#5, b := .sreg 1#4 0#11, c := .none 0#15, lsStride := 0#5, ext := 0#5, sat := false, pop := false }
/-- A state in which two tile-queue entries are full. -/
def wq : State :=
  { wst with cores := [(0, { wcore with tq := [{ id := 3, guest := false, full := true, acc := [(5, 77#32)], tag := 0x1234#64 }, { id := 4, guest := false, full := true, acc := [], tag := 1#64 }] })] }
/-- Operands that read the tile queue. -/
def vq : VecArgs := { va with a := .tq 0#6 0#9, pop := true }
/-- Operands of a tile-register op. -/
def tv : VecArgs := { va with nM1 := 0#6, d := .ta 2#4 0#11, b := .none 0#15 }
/-- Operands of a reduction over four rows. -/
def ra : RedArgs := { scope := 1#2, nM1 := 3#6, d := .oc 20#10 0#5, src := .oc 0#10 0#5, lsStride := 0#5, skipNf := false, pop := false }
/-- A state in which a TAP of a SUM waits for its vector op. -/
def wtap : State := ctxAs (fun c => { c with inflight := [{ unit := .vector, off := 0, tok := none, reads := [], writes := [], finish := .tapWait .sum { ra with src := .none 0#15 } [] wctx.hdr }] })

theorem wit_VectorOpsComplete : wst.issues wp wh (vecPlan wst wp wh .iadd va) = true ∧ (wst.ctx wp).staysIn = true ∧
    openTaps (wst.ctx wp).inflight = [] ∧ (vecPlaces (wst.core 0) false .iadd va).isSome = true ∧ vecReadsTq .iadd va = false ∧
    wq.issues wp wh (vecPlan wq wp wh .iadd vq) = true ∧ (vecPlaces (wq.core 0) false .iadd vq).isSome = true ∧ vecReadsTq .iadd vq = true ∧
    wst.issues wp wh (vecPlan wst wp wh .iadd vq) = true ∧ (wst.core 0).tqFull false = none := by decide
theorem wit_RowsReadBack : (List.replicate 64 5#32).length = 64 ∧ (63 : Nat) < 64 ∧ (1 : Nat) < 2 ∧ (1279 : Nat) < 1280 := by decide +kernel
theorem test_iadd : (rowRead ((run (exec (.iadd wp wh va) wst)).core 0) (.oc (14 * 256) 256) 4 0).take 2 = [16#32, 10#32] := by decide +kernel
theorem wit_IntegerLanesClampOrWrap : (VecFn.iabs, ((0x80000000#32).toInt.natAbs : Int)) ∈ [(VecFn.iadd, (0x80000000#32).toInt + 0),
      (.isub, (0x80000000#32).toInt - 0), (.imul, (0x80000000#32).toInt * 0), (.iabs, ((0x80000000#32).toInt.natAbs : Int)), (.ineg, -(0x80000000#32).toInt)] ∧
    32 ≤ (32#32).toNat % 64 ∧ 32 ≤ (63#32).toNat % 64 ∧ (31#32).toNat % 64 < 32 ∧ (64#32).toNat % 64 < 32 := by decide
theorem test_lanes : (Vec.lane .iabs true 0x80000000#32 0#32 0#32).v = 0x7FFFFFFF#32 ∧ (Vec.lane .shl false 1#32 32#32 0#32).v = 0#32 ∧
    (Vec.lane .sra false 0x80000000#32 63#32 0#32).v = 0xFFFFFFFF#32 := by decide
theorem wit_FloatLanesFollowTheRules : nanWord 0x7F800001#32 ∧ ¬ nanWord 0x7F800000#32 ∧ infWord 0xFF800000#32 ∧ (0x80000000#32).toNat % 2 ^ 31 = 0 ∧
    (0x3F800000#32).toNat % 2 ^ 31 ≠ 0 ∧ infWord 0x7F800000#32 ∧ (0x7F800000#32).msb ≠ ((0xFF800000#32).msb ^^ (0x3F800000#32).msb) := by decide
theorem wit_ReductionOpsComplete : wst.issues wp wh (redPlan wst wp wh .sum false ra) = true ∧ (wst.ctx wp).staysIn = true ∧
    (placeOf (wst.core 0) false 0 ra.d).isSome = true ∧ (placeOf (wst.core 0) false 0 ra.src).isSome = true ∧ isTq ra.src = false ∧
    wst.issues wp wh (redPlan wst wp wh .sum true { ra with src := .none 0#15 }) = true ∧
    wq.issues wp wh (redPlan wq wp wh .sum false { ra with src := .tq 0#6 0#9 }) = true ∧ isTq (.tq 0#6 0#9) = true ∧
    (placeOf (wq.core 0) false 0 (.tq 0#6 0#9)).isSome = true ∧ wst.issues wp wh (redPlan wst wp wh .sum false { ra with src := .tq 0#6 0#9 }) = true ∧
    (wst.core 0).tqFull false = none := by decide
theorem wit_ReductionOpsComplete_tap : wtap.issues wp wh (vecPlan wtap wp wh .iadd va) = true ∧ (wtap.ctx wp).staysIn = true ∧
    (vecPlaces (wtap.core 0) false .iadd va).isSome = true ∧ openTaps (wtap.ctx wp).inflight ≠ [] ∧ ra.d = .oc (BitVec.ofNat 10 20) (BitVec.ofNat 5 0) ∧
    (20 : Nat) < 1024 := by decide
theorem wit_ReductionOrderAndCorners : (∀ x ∈ [0x3F800000#32, 0x80000000#32], Fp.isNonFinite x = false) ∧
    (List.replicate 64 0xFFC00001#32).length = 64 ∧ 0xFFC00001#32 ∈ List.replicate 64 0xFFC00001#32 ∧ nanWord 0xFFC00001#32 = true ∧
    (∀ x ∈ List.replicate 64 0x7F800000#32, Fp.isNonFinite x = true) ∧ RedFn.sum ≠ .countNf :=
  ⟨by simp [Fp.isNonFinite], List.length_replicate, List.mem_replicate.2 ⟨by decide, rfl⟩, by decide, fun x h => by rw [List.eq_of_mem_replicate h]; decide, by decide⟩
theorem wit_TileRegisterOpsComplete : wst.issues wp wh (tloadPlan wst wp wh { tv with ext := 3#5 }) = true ∧ (wst.ctx wp).staysIn = true ∧
    (placeOf (wst.core 0) false 0 tv.a).isSome = true ∧ isTq tv.a = false ∧
    (let v := { tv with a := .tq 0#6 0#9, ext := 3#5 }
     wst.issues wp wh (tloadPlan wst wp wh v) = true ∧ isTq v.a = true ∧ (wst.core 0).tqFull false = none) ∧
    (let v := { tv with d := .oc 0#10 1#5, a := .ta 2#4 0#11, ext := 1#5 }
     wst.issues wp wh (tstorePlan wst wp wh v) = true ∧ placeOf (wst.core 0) false 0 v.d = some (.oc 1024 256) ∧ (256 : Nat) ≤ 256) ∧
    (let v := { tv with d := .oc 3#10 1#5, a := .ta 2#4 0#11, ext := 0x1B#5 }
     wst.issues wp wh (tredPlan wst wp wh v) = true ∧ (tredFn v.ext.toNat).isSome = true) ∧
    (let v := { tv with a := .imm 0#6 0#9, b := .none 0#15, ext := 2#5 }
     wst.issues wp wh (tbinPlan wst wp wh v) = true ∧ (placeOf (wst.core 0) false 0 v.a).isSome = true ∧ (tbinOp v.ext.toNat).isSome = true) := by decide

/-! Local moves, the quantiser and the arrays. -/

/-- A run of cells that holds `bs` from `a` on, without its zero bytes. -/
def cellsAt (a : Nat) (bs : List Byte) : List Host.Cell := (bs.zipIdx.filter (fun e => e.1 ≠ 0#8)).map (fun e => (a + e.2, e.1))
/-- A 64 x 64 tensor in B4 at local-store lines 400, 410, 420 and 430: G 1.0, its layer 2. -/
def descBytes (rot cols : Nat) (g : Nat) : List Byte :=
  (leBytes 8 (0xC0000000 * 2 ^ 32 + 102400) ++ leBytes 8 (0xC0000000 * 2 ^ 32 + 104960)) ++
  (leBytes 8 (0xC0000000 * 2 ^ 32 + 107520) ++ leBytes 8 (0xC0000000 * 2 ^ 32 + 110080)) ++
  (leBytes 4 g ++ leBytes 4 0 ++ leBytes 4 64 ++ leBytes 4 cols) ++
  ([BitVec.ofNat 8 Coding.fmtB4, BitVec.ofNat 8 (rot * 4), 0#8, 0#8] ++ leBytes 4 0 ++ leBytes 4 0 ++ leBytes 4 2)
/-- A record with TAU 2^-6, THETA 2^-6, RHO 8 and KITE_R 16, of layer 2. -/
def recBytes : List Byte :=
  (leBytes 4 0x3C800000 ++ leBytes 4 0x3C800000 ++ leBytes 4 0x41000000 ++ leBytes 4 0x41800000) ++ [0#8, 0#8, 2#8, 0#8] ++ leBytes 12 0
/-- Local store with those tensors' descriptors, the record, G0 1.0 and grant 0 of channel 3 of partition 0. -/
def xmem : Memory :=
  { cells := cellsAt 25600 (leBytes 4 0x3F800000) ++ cellsAt 26880 (leBytes 4 24) ++
      cellsAt 28160 (descBytes 0 64 0x3F800000 ++ descBytes 1 64 0x3F800000) ++ cellsAt 30720 recBytes }
/-- A module whose core (0, 0) has it. -/
def xs : State :=
  { wst with cores := [(0, { wcore with main := { wctx with hdr := { wctx.hdr with qrec := { line := 120, count := 1 } } }, lmem := xmem })] }
/-- A move of two lines from line 500 to line `d`. -/
def ls (d : BitVec 14) : LsmovArgs := { src := { s := 0#4, off := 500#14 }, dst := { s := 0#4, off := d }, nlinesM1 := 1#7, const := 0#6 }
/-- A transfer whose descriptor is the third quarter of line 600. -/
def da : DmaOpArgs := { line := { s := 0#4, off := 600#14 }, quarter := 2#2, mreg := 2#4, lreg := 1#4, chan := 0#6 }
/-- A QUANT of the tile at line 700. -/
def qa : QuantArgs :=
  { src := { s := 0#4, off := 700#14 }, tile := { s := 0#4, off := 0#12 }, desc := 0#6, recIdx := 0#6, g0 := 0#6, summ := { s := 0#4, off := 800#14 }
    learn := { s := 0#4, off := 0#14 }, sfmt := 4#3, kreg := 3#4, transpose := false }
/-- A PINWHEEL of the tile at line 700. -/
def pa : PinwheelArgs :=
  { src := { s := 0#4, off := 700#14 }, dst := { s := 0#4, off := 900#14 }, tile := { s := 0#4, off := 0#12 }, desc := 1#6, sfmt := 0#3, transpose := false }

theorem wit_LocalMovesComplete : xs.issues wp wh (lsmovPlan xs wp wh (ls 502#14)) = true ∧ xs.issues wp wh (lsmovPlan xs wp wh (ls 501#14)) = true ∧
    (xs.ctx wp).staysIn = true ∧ 500 * 256 + 512 ≤ 502 * 256 ∧ xs.issues wp wh (lsmovFillPlan xs wp wh (ls 502#14)) = true ∧
    constAt (xs.core 0) (xs.ctx wp).hdr 0 = some 0x3F800000#32 ∧ xs.issues wp wh (dmaPlan xs wp wh 0x10 da) = true ∧
    xs.issues wp wh (dmaPlan xs wp wh 0x11 da) = true := by decide +kernel
theorem wit_QuantAndPinwheelComplete : xs.issues wp wh (quantPlan xs wp wh qa) = true ∧ (quantIn (xs.core 0) (xs.ctx wp) qa).isSome = true := by
  decide +kernel
theorem wit_QuantAndPinwheelComplete_rotated : xs.issues wp wh (pinwheelPlan xs wp wh pa) = true ∧
    (descAt (xs.core 0) (xs.ctx wp).hdr 1).isSome = true ∧ (63 : Nat) < 64 ∧ (0 : Nat) < groupTiles 1 := by decide +kernel
/-- A MATMUL of tile 0 of the tensor with itself, to the tile queue or held. -/
def ma (dest : BitVec 3) : MatmulArgs :=
  { a := 0#8, aTix := { s := 0#4, off := 0#12 }, b := 0#8, bTix := { s := 0#4, off := 0#12 }, nchunkM1 := 0#12, dest := dest, slot := 0#6
    out := { s := 0#4, off := 3#12 }, mb := 2#4, aJ := false, bJ := false, cont := false }
/-- A WMATMUL of the tiles at lines 700 and 800. -/
def wa (dest : BitVec 2) : WmatmulArgs :=
  { a := { s := 0#4, off := 700#14 }, b := { s := 0#4, off := 800#14 }, aSfmt := 0#3, bSfmt := 4#3, kchM1 := 0#12, dest := dest
    dst := { s := 0#4, off := 900#14 }, out := { s := 0#4, off := 3#12 }, mb := 2#4, transposeA := false, transposeB := true, rnd := false }
/-- An op in flight on unit `u`. -/
def flight (u : OpUnit) (tok : Option Nat) (f : Finish) : InFlight := { unit := u, off := 0, tok := tok, reads := [], writes := [], finish := f }
/-- A state with that op in flight. -/
def flying (u : OpUnit) (tok : Option Nat) (f : Finish) : State := ctxAs (fun c => { c with inflight := [flight u tok f] })
/-- A MATMUL of one chunk with `done` chunks formed, whose tile-queue entry is `e`. -/
def mrun (dest : BitVec 3) (done : Nat) (e owe : Option Nat) : MatRun :=
  { args := ma dest, hdr := wctx.hdr, aDesc := 0, bDesc := 0, aTile := 0, bTile := 0, out := 3#32, mb := 50#16, done := done, acc := [(0, 5#32)]
    wide := false, entry := e, owe := owe }
/-- A state with that op in flight and `n` tile-queue entries taken. -/
def mfly (m : MatRun) (n : Nat) : State :=
  { xs with cores := [(0, { xs.core 0 with
      main := { wctx with inflight := [flight .nibble none (.matmul m)] }
      tq := (List.range n).map (fun i => { id := i, guest := false, full := true, acc := [], tag := 0#64 }) })] }
/-- A WMATMUL whose last chunk is to be formed. -/
def wrun (dest : BitVec 2) (e : Option Nat) : WideRun :=
  { args := wa dest, aLine := 700, bLine := 800, dLine := 900, out := 3#32, mb := 50#16, lm := (2, 0), rnd := false, done := 0, acc := [], entry := e }
/-- A state with that op in flight and `n` tile-queue entries taken. -/
def wfly (w : WideRun) (n : Nat) : State :=
  { xs with cores := [(0, { xs.core 0 with
      main := { wctx with inflight := [flight .wide none (.wide w)] }
      tq := (List.range n).map (fun i => { id := i, guest := false, full := true, acc := [], tag := 0#64 }) })] }

theorem wit_ProductsAndCompletions : xs.issues wp wh (matPlan xs wp wh (ma 1#3)) = true ∧ (xs.ctx wp).staysIn = true ∧
    xs.issues wp wh (wmatPlan xs wp wh (wa 1#2)) = true ∧ xs.issues wp wh (wmatPlan xs wp wh (wa 0#2)) = true ∧
    (xs.ctx wp).oldest .vector = none := by decide +kernel
theorem wit_ProductsAndCompletions_complete :
    (let s := flying .vector (some 3) .plain
     (s.ctx wp).oldest .vector = some (flight .vector (some 3) .plain) ∧ s.coreActive 0 = true ∧ (flight .vector (some 3) .plain).needsCore = false ∧
       (s.ctx wp).status = .running ∧ ∀ k, (some 3 : Option Nat) = some k → (s.ctx wp).token k < 15) :=
  ⟨by decide, by decide, by decide, by decide, fun k h => by cases h; decide⟩
theorem wit_ProductsAndCompletions_matmul :
    (∀ m ∈ [mrun 0#3 1 none none, mrun 1#3 1 (some 0) none, mrun 1#3 0 none (some 0), mrun 1#3 0 none none],
      ((mfly m 0).ctx wp).oldest .nibble = some (flight .nibble none (.matmul m)) ∧ (mfly m 0).coreActive 0 = true ∧
        ((mfly m 0).core 0).guestIssuing = wp.guest ∧ (m.descA ((mfly m 0).core 0)).isSome = true) ∧
    ((mfly (mrun 1#3 0 none (some 0)) 0).core 0).tqRoom false = true ∧
    (let m := mrun 1#3 0 none none
     let s := mfly m 64
     (m.descB (s.core 0)).isSome = true ∧ (s.matIn wp (m.descA (s.core 0)) false 0 0).isSome = true ∧ (s.core 0).tqRoom false = false) := by decide +kernel
theorem wit_ProductsAndCompletions_wide :
    (∀ w ∈ [wrun 0#2 (some 0), wrun 0#2 none, wrun 1#2 none], ((wfly w 64).ctx wp).oldest .wide = some (flight .wide none (.wide w)) ∧
      (wfly w 64).coreActive 0 = true ∧ ((wfly w 64).core 0).guestIssuing = wp.guest ∧ (wfly w 64).wideFree wp = true ∧ w.done = w.args.kchM1.toNat ∧ w.owe = 0) ∧
    ((wfly (wrun 0#2 none) 64).core 0).tqRoom false = false ∧
    (let s := { wfly (wrun 0#2 none) 0 with cores := [(0, { (wfly (wrun 0#2 none) 0).core 0 with guestIssuing := true })] }
     ((s.ctx wp).oldest .wide).any InFlight.needsCore = true ∧ (s.core 0).guestIssuing ≠ wp.guest) := by decide +kernel
theorem wit_ProductOrder : (List.replicate 16 0#19).length = 16 * 1 ∧ (BlkKind.nonfinite = .nonfinite ∨ BlkKind.zero = .nonfinite) ∧
    (BlkKind.zero ≠ .nonfinite ∧ BlkKind.const ≠ .nonfinite) ∧ (1 : Nat) < 2 ∧ (2 : Nat) ≤ 3 ∧ (List.replicate 64 ([] : List (BitVec 19))).length = 64 ∧
    (List.replicate 4096 0#32).length = 4096 ∧ (List.replicate 64 (List.replicate 64 0#32)).length = 64 ∧
    ∀ l ∈ List.replicate 64 (List.replicate 64 0#19), l.length = 64 :=
  ⟨by simp, by decide, by decide, by decide, by decide, by simp, List.length_replicate, List.length_replicate,
    fun l h => by rw [List.eq_of_mem_replicate h]; simp⟩
/-! Endpoints, channels and messages. -/

/-- Channel 7: a ring of two slots of 64 words at line 300, with a message that waits and one that is held. -/
def ring : Chan :=
  { bound := true, line := 300, slots := 4, words := 64, arrived := 2
    waiting := [{ slot := 1, srcDev := 9#14, srcX := 1#6, srcY := 2#6, seq := 4#16, len := 3, endf := true, nf := false }]
    held := [{ slot := 0, srcDev := 9#14, srcX := 1#6, srcY := 2#6, seq := 3#16, len := 2, endf := false, nf := true }] }
/-- A module whose core (0, 0) has that ring, endpoint 0 at core (1, 2) of module 9 and endpoint 1 at itself; channel 8 is a JOIN channel. -/
def ns : State :=
  { xs with
    cores := [(0, { xs.core 0 with
      guest := { status := .running, slot := 1 }
      main := { xs.ctx wp with
        chans := [(7, ring), (8, { bound := true, join := true, slots := 2 })]
        eps := [(0, { valid := true, dev := 9, x := 1, y := 2, ch := 7, credits := 1 }), (1, { valid := true, dev := 5 })] } })]
    slots := [(0, { st := .running, bound := [(0, false)] }), (1, { st := .running, guest := true, bound := [(0, true)] })] }
/-- A SEND of three words. -/
def sa : SendArgs :=
  { ep := 0#6, src := { s := 0#4, off := 500#20 }, len := 3#13, lreg := 0#4, seqReg := 1#4, seqOff := 9#12, stream := 0#2, planeM1 := 0#2
    wfmt := 0#3, endf := true, nf := true, tend := false }
/-- A message from core (1, 2) of module 9 to core (0, 0) of this one. -/
def msg (ch : BitVec 8) (kind : BitVec 4) (arg : BitVec 12) (payload : List Word) : Msg :=
  let m : Msg := { destDev := 5#14, destX := 0#6, destY := 0#6, channel := ch, tc := 0#2, slot := 0#2, seq := 0#16, srcDev := 9#14, srcX := 1#6
                   srcY := 2#6, kind := kind, rsd := false, endf := false, nf := false, arg := arg, hcheck := 0#16, payload := payload }
  { m with hcheck := headerCheck m }
/-- The ring's state with an RFREE in flight. -/
def nfree : State :=
  { ns with cores := [(0, { ns.core 0 with main := { ns.ctx wp with inflight := [flight .router none (.freeSlot 7)] } })] }
/-- The header check does not cover itself. -/
theorem headerCheck_set (m : Msg) (x : BitVec 16) : headerCheck { m with hcheck := x } = headerCheck m := rfl
/-- A message that reaches the context. -/
theorem msg_reaches (s : State) (ch : BitVec 8) (kind : BitVec 4) (arg : BitVec 12) (l : List Word) (h : s.modId = 5#14) (w : s.wire = [])
    (a : s.coreActive 0 = true) (d : s.pathAwake (s.entryCore (msg ch kind arg l)) (msgGoal (msg ch kind arg l)) = true)
    (q : (s.slot 0).quiesced = false) (b : s.boundCtx 0 0 = some false) : s.takes (msg ch kind arg l) wp :=
  ⟨h.symm, rfl, rfl, a, by unfold State.inOrder; rw [w]; rfl, d, fun e => Bool.noConfusion (q.symm.trans e.2), (headerCheck_set _ _).symm, b⟩
theorem wit_CommOpsComplete : ns.issues wp wh (sendPlan ns wp wh sa) = true ∧ (ns.ctx wp).staysIn = true ∧ ((ns.ctx wp).endp 0).join = false ∧
    ns.issues wp wh (recvPlan (ns.ctx wp) wh 7#8 3#4 4#4) = true ∧ (ns.ctx wp).loops = [] ∧
    ns.issues wp wh (rfreePlan (ns.ctx wp) wh 7#8) = true ∧ ns.issues wp wh (fwdPlan (ns.ctx wp) wh 7#8 0#6) = true ∧
    ns.issues wp wh (syncPlan ns wp wh 1#6 3#4 13#4) = true ∧ toSelf ns wp ((ns.ctx wp).endp 1) = true ∧
    ns.issues wp wh (syncPlan ns wp wh 0#6 3#4 15#4) = true ∧ toSelf ns wp ((ns.ctx wp).endp 0) = false := by decide +kernel
theorem wit_CommOpsComplete_free : (nfree.ctx wp).oldest .router = some (flight .router none (.freeSlot 7)) ∧ nfree.coreActive 0 = true ∧
    ((nfree.ctx wp).chan 7).held = ring.held ∧ (1#6 : BitVec 6) ≠ 0x3F#6 := by decide +kernel
theorem wit_MessagesReachTheirContext_data : ns.takes (msg 7#8 0#4 0#12 [5#32]) wp ∧ ((ns.ctx wp).chan 7).ring = true ∧ [5#32].length ≤ 64 ∧ 1 + 1 < 4 ∧
    ns.takes (msg 8#8 0#4 0#12 [5#32]) wp ∧ ((ns.ctx wp).chan 8).bound = true ∧ ((ns.ctx wp).chan 8).join = true ∧
    (0 : Nat) = firstSeq (ns.joinDesc wp ((ns.ctx wp).chan 8)) 0 % 65536 ∧ (ns.core 0).joiner = [] ∧ (0 : Nat) < 2 :=
  ⟨msg_reaches _ _ _ _ _ (by decide) rfl (by decide +kernel) (by decide +kernel) (by decide) (by decide), by decide, by decide, by decide,
    msg_reaches _ _ _ _ _ (by decide) rfl (by decide +kernel) (by decide +kernel) (by decide) (by decide), by decide, by decide, by decide +kernel, by decide, by decide⟩
theorem wit_MessagesReachTheirContext : ns.takes (msg 0#8 1#4 0x013#12 []) wp ∧ (ns.ctx wp).status = .running ∧ (ns.ctx wp).token 3 + 0x013 / 16 % 16 ≤ 15 ∧
    15 < (ns.ctx wp).token 3 + 0x0F3 / 16 % 16 ∧ ns.takes (msg 7#8 2#4 1#12 []) wp ∧ (ns.ctx wp).endpFor (msg 7#8 2#4 1#12 []) = some 0 ∧
    ((ns.ctx wp).endp 0).join = false :=
  ⟨msg_reaches _ _ _ _ _ (by decide) rfl (by decide +kernel) (by decide +kernel) (by decide) (by decide), by decide, by decide, by decide,
    msg_reaches _ _ _ _ _ (by decide) rfl (by decide +kernel) (by decide +kernel) (by decide) (by decide), by decide, by decide⟩
/-- A message of slot 1 to the guest context, on a channel that it has not bound. -/
def gmsg : Msg := let m := { msg 9#8 0#4 0#12 [5#32] with slot := 1#2 }; { m with hcheck := headerCheck m }
theorem wit_MessagesReachTheirContext_stops : (msg 7#8 0#4 0#12 []).destDev ≠ State.reset.modId ∧
    (let s := { ns with domains := [(domKey 0 0, ({ rung := 3, target := 3 } : Domain))] }
     (msg 7#8 0#4 0#12 []).destDev = s.modId ∧ s.inOrder (msg 7#8 0#4 0#12 []) = true ∧ 2 ≤ (s.domain (domKey 0 (msgCore (msg 7#8 0#4 0#12 [])))).rung) ∧
    { ns with wire := [msg 7#8 0#4 0#12 [], msg 7#8 0#4 0#12 [1#32]] }.inOrder (msg 7#8 0#4 0#12 [1#32]) = false ∧
    (let m := { gmsg with hcheck := gmsg.hcheck + 1#16 }
     m.destDev = ns.modId ∧ ns.coreActive (msgCore m) = true ∧ ns.inOrder m = true ∧ ns.pathAwake (ns.entryCore m) (msgGoal m) = true ∧ m.slot ≠ 0#2 ∧
       m.hcheck ≠ headerCheck m) := by decide +kernel
theorem wit_MessagesReachTheirContext_unbound : ns.takes gmsg { wp with guest := true } ∧ gmsg.slot ≠ 0#2 ∧
    ((ns.ctx { wp with guest := true }).chan gmsg.channel.toNat).bound = false :=
  ⟨⟨by decide, rfl, rfl, by decide +kernel, by decide +kernel, by decide +kernel, fun e => absurd e.1 (by decide), (headerCheck_set _ _).symm, by decide⟩, by decide, by decide⟩

/-- A send log's tile of one segment, whose source is the tile at line 700. -/
def tlog : TileLog := { first := 0, segs := [{ word := 1000, len := 2, seq := 0#16, stream := 0, plane := 0 }], closed := true, src := some (700, 0, 0) }
/-- A joined tile of channel 8 with mark `k`. -/
def jt (k : TileMark) : JTile := { ch := 8, guest := false, tile := 0, senders := [{ dev := 9#14, x := 1#6, y := 2#6 }], mark := k }
/-- The ring's state with that log at JOIN endpoint 0 and that tile in the joiner. -/
def js (k : TileMark) : State :=
  { ns with cores := [(0, { ns.core 0 with
      main := { ns.ctx wp with eps := [(0, { valid := true, join := true, dev := 9, x := 1, y := 2, ch := 7, log := [tlog] })] }
      joiner := [jt k] })] }
theorem wit_JigsawRecovery : (js .resend).takes (msg 7#8 7#4 0#12 []) wp ∧ ((js .resend).ctx wp).endpFor (msg 7#8 7#4 0#12 []) = some 0 ∧
    (((js .resend).ctx wp).endp 0).logged 0#16 = some tlog ∧ tlog.src = some (700, 0, 0) ∧ ((js .resend).ctx wp).endpFor (msg 9#8 7#4 0#12 []) = none ∧
    ((js .resend).core 0).joiner.find? (fun x => decide (x.ch = (8#8).toNat) && x.guest == false && decide (x.tile = 0)) = some (jt .resend) ∧
    ((js .ready).core 0).joiner.find? (fun x => decide (x.ch = (8#8).toNat) && x.guest == false && decide (x.tile = 0)) = some (jt .ready) ∧
    (jt .ready).mark ≠ .resend :=
  ⟨msg_reaches _ _ _ _ _ (by decide) rfl (by decide +kernel) (by decide +kernel) (by decide) (by decide), by decide, by decide, by decide, by decide,
    by decide, by decide, by decide⟩
theorem wit_MessagesReachTheirContext_tile : (js .ready).takes (msg 7#8 2#4 1#12 []) wp ∧ ((js .ready).ctx wp).endpFor (msg 7#8 2#4 1#12 []) = some 0 ∧
    (((js .ready).ctx wp).endp 0).join = true ∧ (((js .ready).ctx wp).endp 0).log.find? (fun x => x.closed) = some tlog ∧ (1#12).toNat % 256 = 1 :=
  ⟨msg_reaches _ _ _ _ _ (by decide) rfl (by decide +kernel) (by decide +kernel) (by decide) (by decide), by decide, by decide, by decide, by decide⟩
theorem test_token : ((run (exec (.tokenMessage (msg 0#8 1#4 0x013#12 [])) ns)).ctx wp).token 3 = 3 := by decide +kernel
/-! Power domains and the governor. -/

/-- A state whose domain `k` stands as `d`. -/
def dst (k : Nat) (d : Domain) : State := { wst with domains := [(k, d)] }
theorem wit_AutomaticRungs : (ctxAs (fun c => { c with status := .idle })).mayGate 0 = true ∧ wst.mayGate 0 = false ∧ wst.portIdle 15 = true ∧
    coreIdle (wst.core 0) = true ∧ (wst.domain (domKey 0 0)).rung = 0 ∧ (wst.domain (domKey 0 0)).phase = 0 ∧
    (wst.domain (domKey 6 15)).rung = 0 ∧ (wst.domain (domKey 5 47)).phase = 0 ∧ ((dst 0 { rung := 1, target := 1 }).domain (domKey 0 0)).rung ≠ 0 ∧
    (let d := (dst 0 { rung := 1, target := 1, hint := 2 }).domain (domKey 0 0)
     d.phase = 0 ∧ 1 ≤ d.rung ∧ d.rung < 3 ∧ 3 ≤ d.hint + 1 ∧ ¬ 3 ≤ d.rung) ∧
    ((dst 0 { phase := 2 }).domain (domKey 0 0)).phase ≠ 0 ∧
    (let s := { wst with domains := (onDie 3).map (fun k => (k, ({ rung := 1, target := 1 } : Domain))) }
     (s.domain (dieKey 3)).rung = 0 ∧ (s.domain (dieKey 3)).phase = 0 ∧ (∀ k ∈ onDie 3, 1 ≤ (s.domain k).rung) ∧
       (s.domain moduleKey).phase = 0 ∧ (s.domain moduleKey).commanded = false) ∧
    ¬ (∀ k ∈ onDie 0, 1 ≤ (wst.domain k).rung) := by decide +kernel
theorem wit_ShutdownsAndExits : unitExists 0 0 = true ∧ unitExists 5 47 = true ∧ unitExists 6 15 = true ∧ unitExists 1 15 = true ∧ unitExists 4 24 = true ∧ coreOfUnit 0 = 0 ∧
    domOf 0 0 = domKey 0 0 ∧ coreIdle ((dst 0 { rung := 0, target := 4, phase := 1 }).core 0) = true ∧
    ((dst 0 { rung := 0, target := 4, phase := 1 }).domain (domOf 0 0)).phase = 1 ∧ ((wst.lport 15).up = true → 1 ≤ (wst.lport 15).rung) ∧
    ((dst (domOf 5 0) { target := 4, phase := 1 }).domain (domOf 5 0)).phase = 1 ∧
    (∀ c, c < 4 → (dst (domOf 5 0) { target := 4, phase := 1 }).mem.buf (0 / 12 * 4 + c) = []) ∧
    (dst 0 { rung := 3, phase := 3 }).dieUp 0 = true ∧
    ({ dst 0 { rung := 3, phase := 3 } with domains := [(0, { rung := 3, phase := 3 }), (dieKey 0, { rung := 2, target := 2 })] } : State).dieUp 0 = false ∧
    (let d : Domain := { rung := 1, target := 4, phase := 2 }
     ((dst (domOf 5 0) d).domain (domOf 5 0)).phase = 2 ∧ d.qd = false ∧ d.rung + 1 < d.target) ∧
    (let d : Domain := { rung := 3, target := 4, phase := 2 }
     ((dst 0 d).domain (domOf 0 0)).phase = 2 ∧ d.target ≤ d.rung + 1 ∧ ((dst 0 d).domain (domKey 0 0)).rung = 3) ∧
    ((dst 0 { rung := 1, target := 4, phase := 2, qd := true }).domain (domOf 0 0)).qd = true ∧
    ((dst 0 { rung := 3, phase := 3 }).domain (domOf 0 0)).phase = 3 ∧ ((dst 0 { rung := 3, phase := 3, deeper := some 5 }).domain 0).deeper = some 5 := by
  decide +kernel
theorem wit_ShutdownsAndExits_enable : (let d := (dst 0 { rung := 1, target := 4, phase := 1, commanded := true }).domain (domOf 0 0)
     d.commanded = true ∧ d.phase = 1 ∧ (false && d.commanded) = false) ∧
    wst.heldOff (domOf 0 0) = false ∧ ({ wst with links := { wst.links with configured := true } } : State).heldOff (domOf 6 0) = true ∧
    (dst (domOf 0 0) { rung := 1, target := 4, phase := 2, qd := true }).domain 0 = { rung := 1, target := 4, phase := 2, qd := true } ∧
    (let s := { wst with domains := [(0, ({ rung := 4, target := 4 } : Domain)), (dieKey 0, ({ rung := 2, target := 2 } : Domain))] }
     dieOfDomain (domOf 0 0) = some 0 ∧ (s.domain (dieKey 0)).phase = 0 ∧ 2 ≤ (s.domain (dieKey 0)).rung) ∧
    ((dst 0 { rung := 1, phase := 2 }).domain (domOf 0 0)).qd = false ∧ ((dst 0 { rung := 4, target := 4 }).domain (domOf 0 0)).rung ≠ 0 ∧
    (let s := { wst with domains := [(0, ({ rung := 1, target := 1 } : Domain)), (dieKey 0, ({ rung := 1, target := 1 } : Domain))] }
     (s.domain (domKey 0 0)).rung = 1 ∧ (s.domain (domKey 0 0)).phase = 0 ∧ (s.domain (domKey 0 0)).deeper = none ∧
       (s.domain (dieKey (dieOf 0))).rung ≤ 1 ∧ (s.domain (dieKey (dieOf 0))).phase = 0 ∧ (s.domain (dieKey (dieOf 0))).deeper = none) := by
  decide +kernel
theorem test_gate : (run (exec (.coreGate 0 0) (ctxAs (fun c => { c with status := .idle })))).domains = [(0, { rung := 1, target := 1 })] := by decide +kernel
theorem test_exit_latency :
    ((run (exec (.retireStepComplete 0 0) (dst 0 { rung := 1, target := 4, phase := 2, qd := true, remain := 5 }))).domain 0).lat = 105 := by decide +kernel

/-- Die 0's governor with bucket `b` and the requests `rs`. -/
def gs (b : Int) (rs : List RefillReq) : State := { wst with govs := [(0, { clock := 1000, chosen := 1000, b := b, tHot := 50, reqs := rs })] }
/-- A core with a running guest of slot 1, whose main context is `m`, under a governor with bucket `b`. -/
def gx (b : Int) (on : Bool) (m : Ctx) : State :=
  { gs b [] with
    cores := [(0, { wcore with main := m, guest := { status := .running, slot := 1 }, guestIssuing := on })]
    slots := [(0, { st := .running }), (1, { st := .running, guest := true, bound := [(0, true)] })] }
/-- Shadow work on one tile of layer 2. -/
def sh : ShadowArgs := { layer := 2, product := 0, mb := 0, tile := 0, a := [List.replicate 64 0#32], b := [], result := [] }
/-- The core's slot with layer 2 in mode `mode` and a bucket `b`. -/
def shs (b : Int) (mode : Word) : State :=
  { gs b [] with cores := [(0, { wcore with main := { wctx with modeLayers := [2], modes := [(0, mode)] } })] }
/-- A core whose bank awaits its clear, with `fs` in flight. -/
def bks (fs : List InFlight) : State := { wst with cores := [(0, { wcore with bankClearing := true, main := { wctx with inflight := fs } })] }
/-- An op in flight that reads the bank. -/
def bread : InFlight := { flight .vector none .plain with reads := [{ sp := .ls, lo := 0x4000, n := 1 }] }

theorem wit_GuestsShadowsAndBank :
    (let s := gx 300000000 false {}
     (!(s.core 0).guestIssuing && s.nextReady (siteOf 0 true) && !s.nextReady (siteOf 0 false) && s.coreActive 0) = true ∧
       (s.gov (dieOf 0)).surplus = true) ∧
    (let s := gx 300000000 false { win := some { acc := [(0, 5#32)], wide := false } }
     (s.core 0).main.partialOf (s.core 0) false = some ([(0, 5#32)], (0xFFFF, 3)) ∧ s.nextReady (siteOf 0 true) = true) ∧
    (let s := gx 0 false {}
     (!(s.core 0).guestIssuing && s.nextReady (siteOf 0 true) && !s.nextReady (siteOf 0 false) && s.coreActive 0) = true ∧
       (s.gov (dieOf 0)).surplus = false) ∧
    (let s := gx 300000000 true wctx
     ((s.core 0).guestIssuing && (s.nextReady (siteOf 0 false) || !s.nextReady (siteOf 0 true) || !(s.gov (dieOf 0)).surplus)) = true) ∧
    (let s := gx 300000000 true {}
     ((s.core 0).guestIssuing && (s.nextReady (siteOf 0 false) || !s.nextReady (siteOf 0 true) || !(s.gov (dieOf 0)).surplus)) = false) ∧
    (let s := gx 0 true {}
     s.nextReady (siteOf 0 false) = false ∧ s.nextReady (siteOf 0 true) = true ∧ (s.gov (dieOf 0)).surplus = false) := by decide +kernel
theorem wit_GuestsShadowsAndBank_shadow : (wst.slot (wst.ctx wp).slot).run = none ∧ shadowSelected ((shs 0 0x200#32).shadowMode wp 2) 0 6 sh = false ∧
    shadowSelected ((shs 0 0x801#32).shadowMode wp 2) 0 6 sh = true ∧ ((shs 0 0x801#32).shadowMode wp 2).getLsbD 0 = true ∧
    (let s := { shs 0 0x801#32 with slots := [(0, { st := .replaying, run := some { step := 6, m := 4, replay := true } })] }
     (∀ r, (s.slot (s.ctx wp).slot).run = some r → r.replay = true) ∧ (s.slot (s.ctx wp).slot).run ≠ none ∧
       shadowSelected (s.shadowMode wp 2) (s.slot (s.ctx wp).slot).seed 6 sh = true) ∧
    shadowSelected ((shs 0 0x800#32).shadowMode wp 2) 0 6 sh = true ∧ ((shs 0 0x800#32).shadowMode wp 2).getLsbD 0 = false ∧
    (shs 0 0x800#32).shadowMayStart 0 = false ∧ (shs 300000000 0x800#32).shadowMayStart 0 = true ∧ (shs 300000000 0x800#32).shadowFree 0 = true ∧
    ({ shs 300000000 0x800#32 with cores := [(0, { (shs 0 0x800#32).core 0 with main := { ((shs 0 0x800#32).core 0).main with
        inflight := [flight .wide none (.wide (wrun 0#2 none))] } })] } : State).shadowFree 0 = false ∧
    ((shs 300000000 0x800#32).core 0).shadowLeft sh = 1 ∧
    chargeAt 17000 ((shs 300000000 0x800#32).gov (dieOf 0)).clock ≤ ((shs 300000000 0x800#32).ctx wp).purse ∧
    0 < chargeAt 17000 ((shs 300000000 0x800#32).gov (dieOf 0)).clock := by decide +kernel
theorem wit_GuestsShadowsAndBank_bank : ((wst.core 0).bankClearing || (wst.slot 0).decision.isSome || decide ((wst.slot 0).st = .replaying)) = false ∧
    ((bks []).core 0).bankClearing = true ∧ (bks []).bankRead 0 = false ∧ ((bks []).core 0).lmem.erased = false ∧ (bks [bread]).bankRead 0 = true := by
  decide +kernel
theorem wit_RefillFollowsR351 : (let g := (gs 0 [⟨0, false, 4000, 0⟩]).gov 0
     (∃ r ∈ g.reqs, r.guest = false) ∧ g.derated - g.cfg.floorW * 1000 - g.base / 100 + g.corr / 100 ≥ 2000 ∧ g.tHot ≤ g.cfg.tSoft) ∧
    (let g := (gs 300000000 []).gov 0
     g.mark g.cfg.surplusPct ≤ min (g.b + 2000 * 100) g.cap) ∧
    (let g : Gov := { (gs 0 []).gov 0 with tHot := 103, b := -500000 }
     103 ≤ g.tHot ∧ (g.cfg.tSoft : Int) < g.tHot ∧ min (g.b + 2000 * 100) g.cap < g.mark g.cfg.surplusPct) := by decide +kernel
theorem wit_GovernorCommands : ((ctxAs (fun c => { c with needCharge := 9 })).ctx wp).needCharge ≠ 0 ∧ ((gs 0 []).gov 0).reqs = [] ∧
    (wst.ctx wp).needCharge = 0 ∧
    (let g := (gs 300000000 [⟨0, false, 4000, 0⟩]).gov 0
     g.reqs = [⟨0, false, 4000, 0⟩] ∧ ((4000 : Nat) : Int) ≤ min 51200 g.b ∧ g.mark g.cfg.surplusPct + 51200 ≤ g.b) ∧
    (let g := (gs 3999 [⟨0, false, 4000, 0⟩]).gov 0
     min 51200 g.b < ((4000 : Nat) : Int)) ∧
    (let s := gs 300000000 [⟨0, true, 4000, 0⟩]
     (s.gov 0).surplus = true ∧ ((4000 : Nat) : Int) ≤ min 25600 ((s.gov 0).b - (s.gov 0).mark (s.gov 0).cfg.surplusPct) ∧ (s.core 0).guest.purse ≤ 25600) ∧
    (let g : Gov := { (gs 0 []).gov 0 with bWindow := 1 }
     g.b < g.bWindow ∧ g.b < g.mark g.cfg.surplusPct) ∧
    (let g := (gs 300000000 []).gov 0
     ¬ g.b < g.bWindow ∧ g.bWindow ≤ g.b ∧ g.mark g.cfg.surplusPct ≤ g.b) := by decide +kernel
theorem test_governor_round : ((run (exec (.governorRound 0) (gs 3999 [⟨0, false, 4000, 0⟩]))).gov 0).reqs.length = 1 := by decide +kernel
/-! Steps of the training slot, faults and the collective. -/

/-- A stage of one unit whose gate is core 65. -/
def sg : StageRec := { ({} : StageRec) with v := 1, blocks := [3], entry := [2], gateCore := [65], gateCh := [9], chestLines := 128, offTiles := 10, prefetch := 2, p := 1 }
/-- A step of that stage. -/
def cst : State := { wst with slots := [(0, { st := .running, stage := sg, run := some { step := 6, m := 4 } })] }
/-- An off-load tile. -/
def ct (key : Nat) : CTile := { mb := 0, u := 0, b := 1, t := 0, key := key, sram := false, place := 2 }
/-- That step with an off-load tile. -/
def rct : State :=
  { cst with
    chest := { tiles := [ct 5] }
    mem := { parts := [(0, { valid := true, owner := 0, groups := 3, rows := 64 })], ports := up.mem.ports } }
/-- A slot that waits for the release of step 9. -/
def rel : State :=
  { wst with
    cores := [(0, { wcore with main := { wctx with status := .waitStep 0 none } })]
    slots := [(0, { st := .ready, hasEpoch := true, bound := [(0, false)], after := some { step := 9, m := 4 } })] }
theorem wit_ChestAndStepRelease : wst.grantNext = none ∧ cst.grantNext = some 0 ∧ cst.grantKind 0 = some false ∧
    rct.chest.low = some (ct 5) ∧ rct.chest.freeTile true rct.stage.sramTiles = some 0 ∧
    (match rct.memRead (chestReq (rct.stage.dramPlace 2) 16384 0) with | (_, .ok bs) => bs.length == 16384 | _ => false) = true ∧
    (match wst.memRead (chestReq 0 16384 0) with | (_, .ok _) => false | _ => true) = true ∧ rel.startReshard = rel ∧
    (rct.chest.tiles.filter (fun t => t.recalled)).length < rct.stage.prefetch ∧ wst.chest.low = none ∧ wst.nextRun = none ∧
    rel.nextRun = some { step := 9, m := 4 } ∧ rel.releasable = true ∧ rel.commandsBefore { step := 9, m := 4 } = [] ∧
    (∀ no ∈ rel.mainCores, no < 2304 ∧ (rel.core no).main.status = .waitStep 0 none ∧ (rel.core no).main.loops = [] ∧
      (rel.core no).main.pos + 1 < (rel.core no).main.hdr.nOps) := by decide +kernel
theorem test_step_release : ((run (exec .stepRelease rel)).core 0).step = 9#32 ∧ ((run (exec .stepRelease rel)).core 0).main.pos = 1 := by decide +kernel

/-- Slot 0 in step 9 with core 0 bound. -/
def sf : State := { wst with slots := [(0, { st := .running, hasEpoch := true, bound := [(0, false)], run := some { step := 9, m := 4 } })] }
/-- Core 0 marked for a swap, no slot loaded. -/
def sw : State := { wst with slots := [], cores := [(0, { wcore with swapMark := true })] }
/-- The spare of core 0's row used up. -/
def sp : State := { sf with rows := [(rowOf 0, .repaired 3)] }
theorem wit_FaultsAndSwaps : SMap.get .plain wst.rows (rowOf 0) = .plain ∧ (∀ n ∈ wst.toSwap, n ≠ 0 → rowOf n ≠ rowOf 0) ∧
    (∀ k, k < 4 → ∀ e ∈ (State.reset.slot k).bound, e.1 ≠ 0) ∧ (0, false) ∈ (sf.slot 0).bound ∧ (sf.slot 0).inStep = true ∧
    (sf.slot 0).quiesced = false ∧ SMap.get .plain sp.rows (rowOf 0) ≠ .plain ∧ (sp.slot 0).st.loaded = true ∧ (0, false) ∉ (sp.slot 1).bound ∧
    wst.toSwap.filter (fun n => decide (dieOf n = 0)) = [] ∧ cst.atBoundary = false ∧
    sw.toSwap.filter (fun n => decide (dieOf n = 0)) = [0] ∧ sw.atBoundary = true ∧ (sw.slot 0).nextEpoch = none ∧
    (∀ k, k < 4 → (sw.slot k).bound = []) ∧ (∃ n ∈ sw.toSwap, n ≠ 1 ∧ rowOf n = rowOf 1) ∧ rowOf 1 = rowOf 0 ∧ (∀ b ∈ ([] : List (Fin 12)), b.val ≠ rowOf 0 % 12) ∧ (∃ b ∈ ([0] : List (Fin 12)), b.val = rowOf 0 % 12) ∧
    (7 : Nat) < 8 ∧ (8 : Nat) ≤ 8 := by decide +kernel
theorem test_seamReplay : (run (exec (.seamReplay 0 7 false) wst)).links = wst.links ∧ (run (exec (.seamReplay 0 8 false) wst)).links.driving = false := by
  decide +kernel

/-- Two members, this module first. -/
def ep56 : EpochRec := { ({} : EpochRec) with epoch := 3, members := [5, 6], roles := [(5, (0, 0)), (6, (0, 1))], master := 5 }
/-- A landing area of 64 KiB slots. -/
def coll1 : CollRec := { credits := 2, slotBytes := 65536, base := [0x100000, 0x200000, 0x300000, 0x400000] }
/-- Bucket 0 of layer 0, with no tile. -/
def bd0 : BucketDef := { layer := 0, shard := 0, firstTile := 0, tiles := 0, mode := 0, kLog2 := 0, agent := 1, emLine := 0, acc := 0x800000 }
/-- Slot 0 in step 9 of that epoch. -/
def sl0 : Slot := { st := .running, hasEpoch := true, epoch := ep56, coll := coll1, buckets := [bd0], step := 9#32, run := some { step := 9, m := 4 }, bkts := [(0, { openStep := 9 })] }
/-- A state with slot 0 as `x`. -/
def sls (x : Slot) : State := { wst with slots := [(0, x)] }
/-- The header of a contribution of member 1 to bucket 0 of step 9, with no body. -/
def hdrBytes : List Byte := leBytes 4 (tagOf 0 9 0) ++ leBytes 4 (3 + 65536) ++ leBytes 4 0 ++ leBytes 4 0 ++ leBytes 4 0 ++ List.replicate 12 0#8
/-- A message of module 6 to the agents of this one. -/
def toAgent (ch : BitVec 8) (kind : BitVec 4) (arg : BitVec 12) (endf : Bool) (payload : List Word) : Msg :=
  let m : Msg := { destDev := 5#14, destX := 0x3F#6, destY := 0x3F#6, channel := ch, tc := 0#2, slot := 0#2, seq := 0#16, srcDev := 6#14, srcX := 0x3F#6
                   srcY := 0x3F#6, kind := kind, rsd := false, endf := endf, nf := false, arg := arg, hcheck := 0#16, payload := payload }
  { m with hcheck := headerCheck m }
/-- A message that the agents take. -/
theorem agent_takes (s : State) (ch : BitVec 8) (kind : BitVec 4) (arg : BitVec 12) (e : Bool) (l : List Word) (h : s.modId = 5#14)
    (w : s.wire = [] := by decide +kernel) : s.agentTakes (toAgent ch kind arg e l) :=
  ⟨by rw [h]; split <;> simp [toAgent], rfl, rfl, by unfold State.inOrder; rw [w]; rfl, (headerCheck_set _ _).symm⟩
/-- That contribution in one message. -/
def cmsg : Msg := toAgent 0xF1#8 6#4 1#12 true (wordsOf (hdrBytes ++ leBytes 4 (crc32c hdrBytes).toNat ++ leBytes 4 0))
/-- The landing of it. -/
def land : Landing := { tag := tagOf 0 9 0, dev := 6, member := 1, agent := 1, slot := 0, bytes := 40, ended := true }
/-- The landing slot's address. -/
def landAt : Nat := coll1.landAddr 1 1 0
theorem wit_ContributionsAreSummed : (sls sl0).agentTakes cmsg ∧ cmsg.channel = 0xF1#8 ∧ cmsg.seq = 0#16 ∧
    (sls sl0).contribCheck cmsg (parseContrib (payloadBytes cmsg)) = none ∧ cmsg.endf = true ∧ sl0.landingOf 6 1 false = none ∧
    (∃ k, (sls sl0).contribCheck (toAgent 0xF1#8 6#4 1#12 false []) (parseContrib (payloadBytes (toAgent 0xF1#8 6#4 1#12 false []))) = some k) ∧
    sl0.landingOf 6 1 true = none :=
  ⟨agent_takes _ _ _ _ _ _ (by decide), by decide, by decide, by decide +kernel, by decide, by decide, ⟨2, by decide +kernel⟩, by decide⟩
/-- Bucket 0 with one tile, of which one element is sent (R229), and a contribution to it. -/
def bd1 : BucketDef := { bd0 with tiles := 1, mode := 1, kLog2 := 12 }
def hdr1 : List Byte := leBytes 4 (tagOf 0 9 0) ++ leBytes 4 (3 + 65536) ++ leBytes 4 (1 + 12 * 4 + 256) ++ leBytes 4 36 ++ List.replicate 16 0#8
def body1 : List Byte := leBytes 4 1 ++ List.replicate 28 0#8 ++ leBytes 4 (0x3F80 * 65536)
def land1 : Landing := { land with bytes := 76 }
/-- That contribution landed, the CRC plus `k`, with the buckets `l`. -/
def landedAs (k : Nat) (l : SMap Bucket) : State :=
  (sls { sl0 with landing := [land1], buckets := [bd1, bd1, bd1], bkts := l }).devWrite landAt
    (hdr1 ++ body1 ++ leBytes 4 ((crc32c (hdr1 ++ body1)).toNat + k) ++ leBytes 4 0)
theorem wit_ContributionsAreSummed_end : (let s := landedAs 0 [(0, { openStep := 9 })]
     (s.slot 0).landingOf 6 1 true = some land1 ∧ 40 ≤ land1.bytes ∧ (s.slot 0).bucketDef 0 = some bd1 ∧
       s.devLE (landAt + 68) 4 = (crc32c (s.devRead landAt 68)).toNat ∧ (∀ e ∈ (s.slot 0).landing, e.passed = false) ∧
       malformed (rdList (s.devRead (landAt + 32) 36)) (parseContrib (s.devRead landAt 32)) bd1 false 76 = false ∧
       (parseContrib (s.devRead landAt 32)).nf = false ∧ (0 : Nat) ≠ tailBucket ∧ ((s.slot 0).buffers 1).length < 2 ∧
       (∃ i ∈ s.groupMembers, i ≠ land1.member ∧ i ∉ ((s.slot 0).bkt 0).arrived)) ∧
    (let s := landedAs 0 [(0, { openStep := 9, arrived := [0], buf := true })]
     ((s.slot 0).bkt 0).buf = true ∧ (∀ i ∈ s.groupMembers, i = land1.member ∨ i ∈ ((s.slot 0).bkt 0).arrived) ∧
       (((s.slot 0).bkt 0).ab || (parseContrib (s.devRead landAt 32)).ab) = false ∧ 0 < bd1.tiles ∧
       (∀ e ∈ (s.slot 0).landing, e ≠ land1 → tagBucket e.tag ≠ 0) ∧ (s.slot 0).landing.Nodup) ∧
    (let s := landedAs 0 [(0, { openStep := 9 }), (1, { openStep := 9, buf := true }), (2, { openStep := 9, buf := true })]
     ((s.slot 0).bkt 0).buf = false ∧ 2 ≤ ((s.slot 0).buffers 1).length) ∧
    (let s := landedAs 1 [(0, { openStep := 9 })]
     s.devLE (landAt + 68) 4 ≠ (crc32c (s.devRead landAt 68)).toNat ∧ ((s.slot 0).bkt 0).notes = []) ∧
    (landedAs 0 []).slot 0 = (landedAs 0 []).slot 0 ∧ ((landedAs 0 []).slot 0).landingOf 7 1 true = none := by decide +kernel
/-- The second message of a contribution that is not its last. -/
def cmsg2 : Msg := let m := { toAgent 0xF1#8 6#4 1#12 false [7#32] with seq := 1#16 }; { m with hcheck := headerCheck m }
theorem wit_ContributionsAreSummed_more : (sls { sl0 with landing := [{ land with bytes := 16384, ended := false }] }).agentTakes cmsg2 ∧
    cmsg2.seq ≠ 0#16 ∧ ({ sl0 with landing := [{ land with bytes := 16384, ended := false }] } : Slot).landingOf 6 1 false =
      some { land with bytes := 16384, ended := false } ∧ (16384 : Nat) = cmsg2.seq.toNat * 16384 :=
  ⟨⟨by decide, by decide, by decide, by decide +kernel, by decide +kernel⟩, by decide, by decide, by decide⟩
/-- A resend request for that contribution. -/
def resend : Msg := toAgent 0xF0#8 5#4 4#12 false [BitVec.ofNat 32 (tagOf 0 9 0)]
/-- Slot 0 with a contribution buffer at 0x900000 that holds the tag, and `k` credits spent at its owner. -/
def buf (k : Nat) : State :=
  (sls { sl0 with layout := [(12, 0, 0, 0x900000)], spent := [(creditKey 6 1, k)] }).devWrite 0x900000 (leBytes 4 (tagOf 0 9 0))
theorem wit_ContributionsAreSummed_control : wst.agentTakes (toAgent 0xF0#8 5#4 16#12 false []) ∧ collOp (toAgent 0xF0#8 5#4 16#12 false []) = 0 ∧
    (buf 1).agentTakes resend ∧ collOp resend = 4 ∧
    ((((buf 1).slot 0).layout.filter (fun e => decide (e.1 = 12))).map (fun e => e.2.2.2)).find? (fun a => decide ((buf 1).devLE a 4 = tagOf 0 9 0)) =
      some 0x900000 ∧
    ((buf 1).slot 0).bucketDef (tagBucket (tagOf 0 9 0)) = some bd0 ∧ SMap.get 0 ((buf 1).slot 0).spent (creditKey 6 1) < 2 ∧
    2 ≤ SMap.get 0 ((buf 2).slot 0).spent (creditKey 6 1) ∧ (wst.slot 0).resends = [] ∧
    (let s := { buf 2 with slots := [(0, { (buf 2).slot 0 with resends := [(6, tagOf 0 9 0)] })] }
     (s.slot 0).resends = [((toAgent 0xF0#8 5#4 16#12 false []).srcDev.toNat, tagOf 0 9 0)] ∧ (1 : Nat) = bd0.agent ∧
       SMap.get 0 (s.slot 0).spent (creditKey 6 1) - 16 / 16 < (s.slot 0).coll.credits ∧ s.wire = []) :=
  ⟨agent_takes _ _ _ _ _ _ (by decide), by decide, agent_takes _ _ _ _ _ _ (by decide +kernel), by decide, by decide +kernel, by decide +kernel, by decide +kernel,
    by decide +kernel, by decide, by decide +kernel⟩

/-- A SEAL of step 9 and epoch 3 with the bits `w`. -/
def sealMsg (w : Nat) : Msg := toAgent 0xF0#8 5#4 1#12 false [9#32, BitVec.ofNat 32 (3 + w)]
/-- Step 9 with the step before recorded and the SEALs `l`. -/
def sld (l : List (Nat × Bool × Bool)) : Slot :=
  { sl0 with seals := l, prev := some { step := 8, decision := 0, abandons := 0, telemBytes := 0, tCommit := 0, repair := false } }
/-- Step 9 with every owned bucket closed and the tail sent. -/
def shut : Slot := { sl0 with tailSent := true, quiesced := false, bkts := [(0, { openStep := 8 }), (tailBucket, { openStep := 8 })] }
/-- Slot 0 with its shard of layer 0 at 0xA00000 and decision `d`. -/
def sdc (d : Option Nat) (done : List ShardDone) : Slot :=
  { sld [] with decision := d, layout := [(2, 0, 0, 0xA00000)], updDone := done, run := some { step := 9, m := 4, owner := true } }
theorem wit_SealsDecideTheStep : (sls sl0).sealDue = false ∧ (sls shut).sealDue = true ∧ (6 ∈ shut.epoch.members ∧ 6 ≠ 5 ∧ 6 ∉ shut.lostSeen ∧ ∀ e ∈ shut.seals, e.1 ≠ 6) ∧
    (sls sl0).agentTakes (sealMsg 0) ∧ collOp (sealMsg 0) = 1 ∧ ((sealMsg 0).payload.getD 0 0#32).toNat = 9 ∧ ((sealMsg 0).payload.getD 1 0#32).toNat % 65536 = 3 ∧
    bitOf ((sealMsg 0).payload.getD 1 0#32).toNat 17 = false ∧ bitOf ((sealMsg 65536).payload.getD 1 0#32).toNat 16 = true ∧ (9 : Nat) ≠ ({ sl0 with step := 8#32 } : Slot).step.toNat :=
  ⟨by decide +kernel, by decide +kernel, by decide, agent_takes _ _ _ _ _ _ (by decide), by decide, by decide, by decide, by decide, by decide, by decide⟩
theorem wit_SealsDecideTheStep_last : (let x := sld [(5, false, false)]
     (∀ d ∈ x.epoch.members, d ∈ x.lostSeen ∨ d = 6 ∨ ∃ e ∈ x.seals, e.1 = d) ∧ (∀ e ∈ x.seals, e.2.2 = false) ∧ x.decision = none ∧
       x.run = some { step := 9, m := 4 } ∧ x.prev.isSome = true ∧ (∀ e ∈ x.seals, e.1 ≠ 6) ∧ ∀ e ∈ x.seals, e.2.1 = false) ∧
    (∃ e ∈ (sld [(5, true, false)]).seals, e.2.1 = true) ∧ ({ step := 9, m := 4 } : Run).owner = true ∧
    (sdc none []).decision ≠ some 0 ∧ (∃ d ∈ (sdc (some 0) [{ layer := 0, shard := 0, k := 0, kNext := 0, frozen := 0 }]).updDone, d.layer = 0 ∧ d.shard = 0) ∧
    (sls (sdc (some 0) [])).owned.find? (fun o => decide (o.1 = 0) && decide (o.2.1 = 0)) = some (0, 0, 0xA00000) ∧ (sdc (some 0) []).prev.isSome = true ∧
    wst.slots.length = 1 ∧ (wst.slot 0).inStep = false ∧ sl0.inStep = true ∧ sl0.quiesced = false ∧ sl0.sealSent = false := by decide +kernel
theorem test_seal : ((run (exec (.seal (sealMsg 65536)) (sls (sld [(5, false, false)])))).slot 0).decision = some 1 := by decide +kernel
/-- A plan with nothing in it but its shape. -/
def noPlan : UpdPlan :=
  { x := 0, y := 0, lib := 0#8, rowDesc := List.replicate 64 0#8, rowRec := List.replicate 32 0#8, colDesc := List.replicate 64 0#8
    colRec := List.replicate 32 0#8, wide := 0 }
/-- A plan whose tables a consumer takes. -/
def okPlan : UpdPlan := { noPlan with rowDesc := descBytes 0 64 0x3F800000, rowRec := recBytes, colDesc := descBytes 0 64 0x3F800000, colRec := recBytes }
/-- Step 9 decided COMMIT, its shard's current version 8, and the non-current version gathered by a member. -/
def heldArea : State := (sls { sdc (some 0) [] with used := [(8, 1)], srcCrc := [(0, 0, 0, 0, 0)] }).devWrite 0xA00004 (leBytes 4 8)
theorem wit_SealsDecideTheStep_area : (sls (sdc (some 0) [])).areaWaits { step := 9, m := 4, owner := true } 0xA00000 = false ∧
    heldArea.areaWaits { step := 9, m := 4, owner := true } 0xA00000 = true ∧ (sls (sdc (some 0) [])).firstPoison 0 0 = none ∧
    Upd.planOk okPlan = true ∧ Upd.planOk noPlan = false ∧
    (∀ p ∈ (sls (sdc (some 0) [])).owned, p.1 = 0 ∧ p.2.1 = 0) ∧ ({ sdc (some 0) [] with prev := none } : Slot).prev = none ∧
    (let x : Slot := { sl0 with decision := some 0, run := some { step := 9, m := 4, repair := true, owner := true } }
     x.decision = some 0 ∧ x.run.isSome = true) ∧
    heldArea.areaVersion 0xA00000 (heldArea.curArea 0xA00000) = 8 ∧ ({ step := 8, m := 4, repair := true } : Run).repair = true := by decide +kernel
theorem test_shard_commit : (let t := run (exec (.shardCommit 0#16 0#16 okPlan) (sls (sdc (some 0) [])))
    t.devLE 0xA00000 4 = 1 ∧ t.devLE 0xA00008 4 = 9 ∧ (t.slot 0).updDone.length = 1) := by decide +kernel
theorem test_ill_plan : wellFormed (.shardCommit 0#16 0#16 noPlan) = true ∧ wellFormed (.shardCommit 0#16 0#16 { noPlan with rowRec := [] }) = false ∧
    wellFormed (.shardCommit 0#16 0#16 { noPlan with colDesc := [] }) = false := by decide
/-- What an UPDATE with nothing but a plan reads, and a block of one element with an infinite gradient. -/
def noUpd : UpdIn :=
  { rec' := Upd.parse [], plan := noPlan, lib := [], seed := 0#64, step := 9, layer := 0, kOld := 0, k := 0, elems := 0, firstTrow := 0, excCap := 0
    exc := [], grads := [] }
def infBlk : UpdBlk := { ord := 0, bw := 0, blk := { kind := .zero }, p := [0#32], j := 8, a := [0#32], res := [0], m := [1#16], v := [2#16] }
theorem wit_UpdateKeepsItsBounds : (Upd.moveBlock noUpd infBlk [0x7F800000#32]).d[0]? = some none ∧
    (Upd.moveBlock noUpd infBlk [0x7F800000#32]).m = [1#16] ∧ Fp.isNan 0x7FC00000#32 = true ∧ Fp.isZero 0x80000000#32 = true ∧
    Fp.isZero 0xBF800000#32 = false ∧ (0xBF800000#32).getLsbD 31 = true ∧
    (Upd.residual 0x42C80000#32 0#32 (Upd.scaleOf 0x3D8) 0).2 = true ∧ Upd.nextK 1 4096 0 2 { Upd.parse [] with ksat := 12 } = 0 ∧
    ({ Upd.parse [] with scaleFreeze := true, kFreeze := true } : UpdRec).kFreeze = true ∧ (0x3F800000#32 : Word).toNat % 65536 = 0 := by decide +kernel
/-- R162's worked example: the masters of elements 0 and 1 in step n, the residuals that step n and step n + 1 write, and K_L. -/
theorem test_update_master : Upd.master 0x3E400000#32 (Upd.scaleOf 0x3D8) 20 0 = 0x3E540000#32 ∧ Upd.master 0xBD800000#32 (Upd.scaleOf 0x3D8) (-30) 0 = 0xBDBC0000#32 := by decide +kernel
theorem test_update_residual : Upd.residual 0x3E5C0000#32 0x3E400000#32 (Upd.scaleOf 0x3D8) 0 = (28, false) ∧ Upd.residual 0x3F090000#32 0x3F200000#32 (Upd.scaleOf 0x3D8) 0 = (-92, false) ∧
    Upd.residual 0xBDBD0000#32 0xBD800000#32 (Upd.scaleOf 0x3D8) 0 = (-30, false) ∧ Upd.residual 0x3F088000#32 0x3F200000#32 (Upd.scaleOf 0x3D8) 1 = (-128, true) := by decide +kernel
/-! Mirrors, epochs, lost members, repairs, gathers and permutations. -/

/-- A mirror unit of one header: kind 0, key 0, version 9. -/
def munit : List Byte := leBytes 4 0 ++ leBytes 4 0 ++ leBytes 4 9 ++ leBytes 4 (crc32c []).toNat ++ List.replicate 16 0#8
/-- That unit in one message, its trailer's CRC plus `k`. -/
def mmsg (k : Nat) (endf : Bool) : Msg := toAgent 0xF4#8 6#4 0#12 endf (wordsOf (munit ++ leBytes 4 ((crc32c munit).toNat + k) ++ leBytes 4 0))
/-- Slot 0 with a staging slot, a mirror place and a unit to send. -/
def mir : Slot :=
  { sld [] with layout := [(9, 0, 0, 0xB00000), (8, 0, 0, 0xC00000), (7, 0, 0, 0xD00000)], mirror := [{ kind := 0, key := 0 }] }
theorem wit_MirrorUnits : mir.prev.isSome = true ∧ mir.mirror.find? (fun u => !u.sent) = some { kind := 0, key := 0 } ∧
    ({ sl0 with mirror := [] } : Slot).prev = none ∧ (sls mir).agentTakes (mmsg 0 true) ∧ mir.staging = some 0xB00000 ∧ (wst.slot 0).staging = none ∧
    (mmsg 0 false).endf = false ∧ (mmsg 0 true).endf = true :=
  ⟨by decide, by decide, by decide, agent_takes _ _ _ _ _ _ (by decide), by decide, by decide, by decide, by decide⟩
theorem wit_MirrorUnits_last : (let s1 := (sls mir).devWrite 0xB00000 (payloadBytes (mmsg 0 true))
     (payloadBytes (mmsg 0 true)).length - 8 = 32 ∧ s1.devRead 0xB00000 32 = munit ∧ mir.mirrorPlace 0 0 = some 0xC00000 ∧
       s1.devLE (0xB00000 + 32) 4 = (crc32c munit).toNat ∧ leAt munit 0xC 4 = (crc32c (munit.drop 32)).toNat) ∧
    (let s1 := (sls mir).devWrite 0xB00000 (payloadBytes (mmsg 1 true))
     s1.devLE (0xB00000 + 32) 4 ≠ (crc32c munit).toNat) ∧
    ({ mir with layout := [(9, 0, 0, 0xB00000)] } : Slot).mirrorPlace (leAt munit 0 4 % 4) (leAt munit 4 4) = none ∧
    (sls mir).awake (dieKey (16 + mirrorChan / 32)) = true := by decide +kernel

/-- Slot 0 of module `m`'s view of an abandoned step 9 of epoch `e`, with `lost` known lost, at 1,000 us. -/
def held (e : Nat) (lost : List Nat) : State :=
  { sls { sl0 with decision := some 2, epoch := { ep56 with epoch := e }, lostSeen := lost, seals := [(5, false, true), (6, false, true)] } with timeQ := 1000 * 65536 }
/-- A part of an epoch record. -/
def part (endf : Bool) : Msg := toAgent 0xF8#8 8#4 4#12 endf [1#32]
theorem wit_EpochsFollowTheMaster : (held 3 []).isMaster = true ∧ ((held 3 []).slot 0).decision = some 2 ∧ ((held 3 []).slot 0).heldTime + 250 ≤ (held 3 []).timeUs ∧
    (∀ d ∈ ((held 3 []).slot 0).lostSeen, d ∉ ((held 3 []).slot 0).epoch.members) ∧ ((held 0xFFFF []).slot 0).epoch.epoch = 0xFFFF ∧
    (held 3 []).toSwap = [] ∧ ({ held 3 [] with cores := [(0, { wcore with swapMark := true })] } : State).toSwap ≠ [] ∧
    (∃ d ∈ ((held 3 [6]).slot 0).lostSeen, d ∈ ((held 3 [6]).slot 0).epoch.members) ∧
    (part false).arg.toNat / 4 % 16 = 1 ∧ (held 3 []).agentTakes (part false) ∧ ((held 3 []).slot 0).st.loaded = true ∧ (part true).endf = true :=
  ⟨by decide, by decide, by decide, by decide, by decide, by decide, by decide, by decide, by decide, agent_takes _ _ _ _ _ _ (by decide), by decide +kernel⟩
theorem wit_EpochsFollowTheMaster_unloaded : State.reset.modId = 0#14 ∧ (sls {}).agentTakes (part false) ∧ (part false).channel = 0xF8#8 ∧
    ((sls {}).slot (part false).slot.toNat).st.loaded = false ∧ ((sls {}).slot (part false).slot.toNat).st ≠ .loading ∧ (part false).slot = 0#2 ∧
    ((sls {}).slot 0).st ≠ .loading ∧ ((held 3 []).slot 0).st ≠ .loading :=
  ⟨by decide, agent_takes _ _ _ _ _ _ (by decide), by decide, by decide, by decide, by decide, by decide, by decide⟩

/-- MEMBER_LOST about module 6. -/
def lostMsg : Msg := toAgent 0xF8#8 8#4 8#12 false [6#32]
/-- Step 9 with this module's SEAL sent at time 0, at 60 s. -/
def late : State := { sls { sl0 with sealTime := some 0, seals := [(5, false, false)] } with timeQ := 60000000 * 65536 }
/-- A slot with no step, spare 7 and a free permutation. -/
def idle (lost : List Nat) (sp : List Nat) : State :=
  { sls { sl0 with st := .ready, run := none, spares := sp, lostSeen := lost, epoch := { ep56 with members := [5, 6, 8], roles := [(5, (0, 0)), (6, (0, 1)), (8, (0, 2))] } } with timeQ := 1000 * 65536 }
theorem wit_LossTakeoverRepair : lostMsg.arg.toNat / 4 % 16 = 2 ∧ (sls sl0).agentTakes lostMsg ∧ (sl0.isMember 6 = true ∧ 6 ∉ sl0.lostSeen ∧ sl0.inStep = true) ∧
    ({ sl0 with lostSeen := [6] } : Slot).lostSeen = [6] ∧ (late.slot 0).sealTime = some 0 ∧ late.isMaster = true ∧
    0 + (late.slot 0).lostTimeout * 1000000 ≤ late.timeUs ∧ (∀ e ∈ (late.slot 0).seals, e.1 ≠ 6) ∧ (∃ e ∈ (late.slot 0).seals, e.1 = 5) ∧
    sl0.sealTime = none ∧ ((idle [] [7]).slot 0).hasEpoch = true ∧ 6 ∈ ((idle [] [7]).slot 0).epoch.members ∧ ((idle [] [7]).slot 0).perm.active = false ∧
    ((idle [] [7]).slot 0).heldTime + 250 ≤ (idle [] [7]).timeUs ∧ ((idle [] [7]).slot 0).run = none ∧
    (∀ m ∈ ((idle [] []).slot 0).spares, BitVec.ofNat 14 m ∈ [7#14] → m ∈ ((idle [] []).slot 0).epoch.members) ∧
    ((idle [] [7]).slot 0).spares.find? (fun m => [7#14].contains (BitVec.ofNat 14 m) && !((idle [] [7]).slot 0).epoch.members.contains m) = some 7 ∧
    (idle [] [7]).buddyOf 6 ∉ ((idle [] [7]).slot 0).lostSeen ∧ (idle [] [7]).predOf 6 ∉ ((idle [] [7]).slot 0).lostSeen ∧
    (idle [(idle [] [7]).buddyOf 6] [7]).buddyOf 6 ∈ ((idle [(idle [] [7]).buddyOf 6] [7]).slot 0).lostSeen :=
  ⟨by decide, agent_takes _ _ _ _ _ _ (by decide), by decide +kernel⟩
theorem wit_LossTakeoverRepair_repair : (let x : Slot := { sl0 with st := .ready, run := none, epoch := ep56, stand := [(6, 5)] }
     x.stand.getLast? = some (6, 5) ∧ x.st = .ready ∧ x.after = none) ∧ sl0.stand = [] ∧ ((idle [] [7]).slot 0).perm.active = false ∧
    (sls {}).slot 0 = {} ∧
    (let s := idle [] [7]
     let u := { s with slots := [(0, { s.slot 0 with perm := { active := true, number := 7, takeover := some (6, 7), entries := [] } })] }
     (u.slot 0).perm.takeover = some (6, 7) ∧ u.takeoverNeeds 6 7 (u.buddyOf 6) = true) ∧
    (let s := idle [] [5]
     let u := { s with slots := [(0, { s.slot 0 with epoch := { ep56 with members := [6, 8, 9], roles := [(6, (0, 0)), (8, (0, 1)), (9, (0, 2))] } })] }
     (u.slot 0).spares.find? (fun m => [5#14].contains (BitVec.ofNat 14 m) && !(u.slot 0).epoch.members.contains m) = some 5 ∧ 5 = u.modId.toNat ∧
       (u.slot 0).hasEpoch = true ∧ 6 ∈ (u.slot 0).epoch.members ∧ (u.slot 0).heldTime + 250 ≤ u.timeUs ∧ u.buddyOf 6 ∉ (u.slot 0).lostSeen ∧
       u.predOf 6 ∉ (u.slot 0).lostSeen ∧ (u.slot 0).epoch.epoch ≠ 0xFFFF) ∧
    (let s := sls { sl0 with st := .ready, run := none, stand := [(6, 5)] }
     s.repairDue 9 = false ∧ (s.slot 0).stand.getLast? = some (6, 5)) ∧
    (let s := { sls { sl0 with st := .ready, run := none, stand := [(6, 5)], emVer := [(0, 8)] } with modId := 5#14 }
     s.repairDue 9 = true) ∧ ((5 : Nat) ≠ 7) := by decide +kernel

/-- A request for the working copy of layer 1, shard 1, version 9. -/
def greq (tries : Nat) : GatherReq := { layer := 1, shard := 1, coding := 0, version := 9, refetch := false, dev := 6, tries := tries }
/-- The entry of that shard with its VALID bit `v`, its bytes at 0xF00000. -/
def gentry (v : Nat) : List Byte := leBytes 4 0x10001 ++ leBytes 4 (2 * v) ++ leBytes 8 0xF00000 ++ leBytes 8 64 ++ leBytes 4 9 ++ leBytes 4 0
/-- Slot 0 with `n` entries, asked and asking. -/
def gst (n v tries : Nat) : State :=
  (sls { sl0 with gathers := n, gatherBase := 0xE00000, greqs := [greq tries], gpend := [greq 0] }).devWrite 0xE00000 (gentry v)
/-- The header of an empty gather body of version 9. -/
def ghead : List Byte := leBytes 4 0x10001 ++ leBytes 4 0 ++ leBytes 4 9 ++ leBytes 4 (crc32c []).toNat ++ leBytes 8 0 ++ leBytes 8 0
/-- That transfer in one message. -/
def tmsg : Msg := toAgent 0xF2#8 6#4 0#12 true (wordsOf (ghead ++ leBytes 4 (crc32c ghead).toNat ++ leBytes 4 0))
/-- A BWD_RELEASE of version 0. -/
def bwd : Msg := toAgent 0xF0#8 5#4 3#12 false [0#32]
theorem wit_GathersAnswerRequests : wst.agentTakes (toAgent 0xF0#8 5#4 2#12 false []) ∧ collOp (toAgent 0xF0#8 5#4 2#12 false []) = 2 ∧
    (gst 1 0 0).gatherAnswer (greq 0) = .wait ∧ (gst 0 0 0).gatherAnswer (greq 0) = .none ∧ (match (gst 1 1 0).gatherAnswer (greq 0) with | .body 9 _ => true | _ => false) = true ∧
    (gst 0 0 0).agentTakes tmsg ∧ tmsg.endf = true ∧ ((gst 0 0 0).gatherLand tmsg).gatherEntry 1 1 0 = none ∧
    ((gst 0 0 0).gatherLand tmsg).gatherReqOf ghead 6 = greq 0 ∧ (greq 0).regather = false ∧ ((gst 0 0 0).gatherLand tmsg).gatherFrom 1 true = some 6 ∧
    (greq 1).tries ≠ 0 ∧ collOp bwd = 3 ∧ wst.agentTakes bwd ∧
    (let s := sls (sdc none [])
     (s.slot 0).isMember 6 = true ∧ ((s.slot 0).role 6).1 = s.role.1 ∧
       s.owned.any (fun o => decide (s.areaVersion o.2.2 0 = 0) || decide (s.areaVersion o.2.2 1 = 0)) = true ∧ (s.slot 0).releases = []) ∧
    (wst.slot 0).isMember 6 = false :=
  ⟨agent_takes _ _ _ _ _ _ (by decide), by decide, by decide +kernel, by decide +kernel, by decide +kernel, agent_takes _ _ _ _ _ _ (by decide +kernel),
    by decide, by decide +kernel, by decide +kernel, by decide, by decide +kernel, by decide, by decide, agent_takes _ _ _ _ _ _ (by decide), by decide +kernel, by decide⟩
theorem wit_GathersAnswerRequests_last : (let s1 := (gst 1 0 0).gatherLand tmsg
     SMap.get [] (s1.slot 0).ghdr (gatherSrc tmsg) = ghead ∧ s1.gatherReqOf ghead 6 = greq 0 ∧ s1.gatherEntry 1 1 0 = some 0xE00000 ∧
       leAt ghead 0x10 8 ≤ s1.devLE (0xE00000 + 0x10) 8 ∧ gatherAt tmsg + (gatherData tmsg).length = leAt ghead 0x10 8 ∧
       leNat (((payloadBytes tmsg).drop ((payloadBytes tmsg).length - 8)).take 4) = (crc32c (ghead ++ [])).toNat ∧
       (crc32c []).toNat = leAt ghead 0xC 4 ∧ leAt ghead 8 4 = (greq 0).version ∧ (greq 0).regather = false) := by decide +kernel
theorem wit_GathersAnswerRequests_regather : (∀ n ∈ [0, 1, 2], (let s1 := { gst 0 0 0 with slots := [(0, { (gst 0 0 0).slot 0 with
        greqs := [{ greq n with regather := true }] })] }.gatherLand tmsg
      s1.gatherReqOf ghead 6 = { greq n with regather := true } ∧ s1.gatherEntry 1 1 0 = none ∧ s1.gatherFrom 1 false = some 6 ∧
        s1.gatherFrom 1 true = some 6)) ∧ ((gst 0 0 0).slot 0).inStep = true ∧ sl0.releases = [] ∧ (0, 6) ∈ ({ sl0 with releases := [(0, 6)] } : Slot).releases ∧
    tmsg.endf = true ∧ ({ tmsg with endf := false } : Msg).endf = false := by decide +kernel

/-- Entry 0 or 1 of a permutation that brings shards from module 6 here. -/
def pent (i : Nat) : PermEntry := { src := 6, dst := 5, kind := 0, layer := i, shard := 0, srcAddr := 0, dstAddr := 0x1000000 + i * 0x100000, bytes := 64 }
/-- Permutation 7 in progress. -/
def perm (retried : List Nat) : Perm := { active := true, number := 7, entries := [pent 0, pent 1], retried := retried, takeover := some (6, 5) }
/-- The last message of entry 0 with no data and the CRC `k` off. -/
def pmsg (k : Nat) (endf : Bool) : Msg := toAgent 0xF3#8 6#4 0#12 endf [BitVec.ofNat 32 ((crc32c []).toNat + k), 0#32]
/-- Which entries take that message. -/
def takesEntry (p : Perm) (e : PermEntry × Nat) : Bool := decide (e.1.src = 6) && decide (e.2 % 1024 = 0) && !p.passed.contains e.2
/-- PERMUTE_DONE of permutation `n`. -/
def pdone (n : Nat) : Msg := toAgent 0xF0#8 5#4 5#12 false [BitVec.ofNat 32 n]
theorem wit_PermutesCountTheirEntries : (sls { sl0 with perm := perm [] }).agentTakes (pmsg 0 true) ∧
    (wst.incoming {}).find? (takesEntry {}) = none ∧
    ((sls { sl0 with perm := perm [] }).incoming (perm [])).find? (takesEntry (perm [])) = some (pent 0, 0) ∧ (pmsg 0 false).endf = false ∧
    (let s1 := (sls { sl0 with perm := perm [] }).devWrite 0x1000000 []
     leNat (((payloadBytes (pmsg 0 true)).drop ((payloadBytes (pmsg 0 true)).length - 8)).take 4) = (crc32c (s1.devRead 0x1000000 0)).toNat ∧
       leNat (((payloadBytes (pmsg 1 true)).drop ((payloadBytes (pmsg 1 true)).length - 8)).take 4) ≠ (crc32c (s1.devRead 0x1000000 0)).toNat) ∧
    (∃ f ∈ (sls sl0).incoming (perm []), f.2 ≠ 0 ∧ f.2 ∉ (perm []).passed) ∧ 0 ∉ (perm []).retried ∧ 0 ∈ (perm [0]).retried ∧
    collOp (pdone 7) = 5 ∧ wst.agentTakes (pdone 7) ∧ (7 : Nat) = (perm []).number ∧ (8 : Nat) ≠ (perm []).number ∧
    (5 ∈ sl0.epoch.members ∧ 5 ∉ sl0.lostSeen ∧ 5 ≠ (6#14).toNat ∧ 5 ∉ (perm []).dones) ∧ (perm []).active = true ∧
    ((pdone 7).payload.getD 1 0#32).toNat = 0 ∧ (2 : Nat) ≤ (perm []).entries.length ∧ (perm []).entries.length < 3 ∧ ({} : Perm).active = false ∧
    (perm []).takeover.isSome = true :=
  ⟨agent_takes _ _ _ _ _ _ (by decide), by decide, by decide, by decide, by decide +kernel, by decide, by decide, by decide, by decide,
    agent_takes _ _ _ _ _ _ (by decide), by decide, by decide, by decide, by decide, by decide, by decide, by decide, by decide, by decide⟩
/-! Links and device memory. -/

/-- A ring of two modules in dimension 0 with every port up. -/
def lst : State := { wst with links := { k := [2, 1, 1, 1], configured := true, ports := (List.range 16).map (fun p => (p, ({ up := true } : LPort))) } }
/-- That ring with port 0 as `x`. -/
def lsp (x : LPort) : State := { lst with links := { lst.links with ports := [(0, x)] } }
/-- A message for this module in one flit. -/
def lf : Flit := let f := dataFlit 0 0 (msgBytes (msg 7#8 0#4 0#12 [7#32])); { f with crc := flitCrc f }
theorem wit_MessagesSurviveTheirBytes : (msg 7#8 0#4 0#12 [7#32]).payload.length < 8192 := by decide
theorem wit_FlitsAreCheckedAndDelivered : (wst.lport 0).carries = false ∧ wst.links.configured = false ∧ (lst.lport 0).carries = true ∧ lst.links.configured = true ∧
    lst.links.training = false ∧ (lst.domain (domKey 6 0)).rung = 0 ∧ (lst.domain (domKey 6 0)).phase = 0 ∧ (lst.domain (dieKey 20)).rung = 0 ∧
    (lst.domain (dieKey 20)).phase = 0 ∧ fecOk lf = true ∧ fecOk { lf with fec := [(16, true)] } = false ∧ lf.nak = false ∧ lf.ftype = 1#4 ∧ lf.crc = flitCrc lf ∧
    lf.cls ≠ 3#2 ∧ lf.rseq = (lst.lport 0).rx ∧ lf.pseq = (lst.lpair 0).rx ∧ lf.bc = false ∧ lf.first = 0#8 ∧
    lf.payload.take lf.fill.toNat = msgBytes (msg 7#8 0#4 0#12 [7#32]) ∧ (lst.lpair 0).ahead = [] ∧ SMap.get {} (lst.lpair 0).inn (flitChannel lf) = {} ∧
    (1#16 : BitVec 16) ≠ (lst.lport 0).rx ∧ lst.unitFree 0 (flitChannel lf) = true ∧ (msg 7#8 0#4 0#12 [7#32]).destDev = lst.modId ∧
    (let s := { lst with links := { lst.links with pairs := [(0, { held := [(flitChannel lf, 100000)] })] } }
     s.unitFree 0 (flitChannel lf) = false ∧ (s.lpair 0).repeats lf.pseq = false) := by decide +kernel
theorem wit_FlitsAreCheckedAndDelivered_flush : (SMap.get {} ((lst.linkWork).lpair 7).out 5).bytes = [] ∧
    (SMap.get {} (({ lst with links := { lst.links with pairs := [(0, { out := [(0, { bytes := [1#8] })] })] } } : State).linkWork.lpair 0).out 0).bytes ≠ [] := by
  decide +kernel
theorem test_flit_arrives : (run (exec (.flitReceive 0 lf) lst)).wire = [msg 7#8 0#4 0#12 [7#32]] := by decide +kernel
theorem wit_LinkPortsFollowTheirLanes : (lst.lport 0).carries = true ∧ (wst.lport 0).carries = false ∧ lst.anyLoaded = true ∧
    ({ lst with slots := [] } : State).anyLoaded = false ∧ (lst.domain (domKey 6 0)).phase = 0 ∧ (lst.domain (domKey 6 0)).rung < 6 ∧
    (({ lst with domains := [(domKey 6 0, { target := 3, phase := 1 })] } : State).domain (domKey 6 0)).phase = 1 ∧
    min (widthOf (lst.lport 0).usable) 24 = (lst.lport 0).width ∧ min (widthOf (lst.lport 0).usable) 8 ≠ (lst.lport 0).width ∧
    24 < (lst.lport 0).usable ∧
    (let x := (lsp { up := true, usable := 24, width := 16, farWidth := 16 }).lport 0
     min (widthOf (x.usable - 1)) x.farWidth = x.width ∧ 0 < x.usable) ∧
    (let x := (lsp { up := true, usable := 24 }).lport 0
     min (widthOf (x.usable - 1)) x.farWidth ≠ x.width ∧ min (widthOf (x.usable - 1)) x.farWidth < x.width) ∧ ((lsp { up := true, usable := 24 }).lport 0).usable ≤ 24 ∧ ((lsp { up := true, usable := 0 }).lport 0).usable = 0 ∧
    0 < ((lsp { sparing := 1 }).lport 0).sparing ∧ (lst.lport 0).sparing = 0 ∧ (lst.lport 0).retraining = false ∧
    ((lsp { retraining := true, locked := true }).lport 0).retraining = true ∧ ((lsp { retraining := true, locked := true }).lport 0).locked = true ∧ (none : Option PortIdent) ≠ some (lst.wantedIdent 0) := by decide +kernel
/-- A LINK_STATE word of ring `d`. -/
def lks (d : Nat) : Msg := toAgent 0xF8#8 8#4 0#12 false [BitVec.ofNat 32 d]
theorem wit_PairsAndRings : (lst.lpair 0).down = false ∧ lst.extent 0 ≠ 1 ∧ lst.extent 1 = 1 ∧ (lst.lport 0).up = true ∧
    ((lsp {}).lport 0).up = false ∧ ((lsp {}).lport 1).up = false ∧ ((lsp {}).lport 0).retraining = false ∧ lst.agentTakes (lks 4) ∧
    (lst.slot 0).st.loaded = true ∧ ((lks 4).payload.headD 0#32).toNat % 256 = 4 ∧ ((lks 3).payload.headD 0#32).toNat % 256 = 3 ∧
    (let s1 := { lst with links := { lst.links with blocked := SMap.set 0 lst.links.blocked 3 0 } }
     ∀ c, c < lst.extent 3 → fld (s1.detourWord 3) (2 * c + 1) (2 * c) ≠ 3) ∧
    ({ lst with slots := [] } : State).agentTakes (lks 4) ∧ (({ lst with slots := [] } : State).slot 0).st.loaded = false ∧
    (let s := { lst with links := { lst.links with pairs := [(0, { waiting := [{ flit := lf }] })] } }
     (!(s.lpair 0).waiting.isEmpty || !(s.lport 0).replay.isEmpty || !(s.lport 1).replay.isEmpty) = true) ∧
    (!(lst.lport 0).up && !(lst.lport 1).up && !(lst.lport 0).retraining && !(lst.lport 1).retraining) = false :=
  ⟨by decide, by decide, by decide, by decide, by decide, by decide, by decide, agent_takes _ _ _ _ _ _ (by decide), by decide, by decide, by decide, by decide +kernel,
    agent_takes _ _ _ _ _ _ (by decide), by decide, by decide +kernel, by decide⟩

/-- A driver's read or write in partition 0. -/
def mq (tc : BitVec 2) : MemReq := { who := .driver 3#2, addr := 0#64, len := 4, tc := tc }
/-- The module in service with partition 0 as `p`. -/
def ups (p : PartRec) : State := { up with mem := { up.mem with parts := [(0, p)] } }
/-- The module in service with port 0 as `x`. -/
def upp (x : MPort) : State := { up with mem := { up.mem with ports := (0, x) :: ((List.range 47).map (fun i => (i + 1, ({ st := 0 } : MPort)))) } }
/-- A combining buffer that holds a stripe of row 3. -/
def bufd : State := run (exec (.memWrite { (mq 0#2) with addr := BitVec.ofNat 64 (3 * 12 * 256 * 3) } [1#8, 2#8, 3#8, 4#8]) up)
theorem wit_MemoryServesRequests : (mq 0#2).who ≠ .bar2 ∧ wst.admits (mq 0#2) = false ∧ up.admits (mq 0#2) = true ∧ (up.mem.part (devPart 0)).bulkRate = 0 ∧
    (∀ l ∈ reqLocs up.mem 0 4, up.mem.lost l.gran = false) ∧ (ups { up.mem.part 0 with bulkRate := 5 }).admits (mq 2#2) = true ∧
    (∃ d, d < 4 ∧ SMap.get 0 (ups { up.mem.part 0 with bulkRate := 5 }).mem.tokens (d * 8 + devPart 0) < reqCharge (ups { up.mem.part 0 with bulkRate := 5 }).mem 0 4 true d * 64) ∧
    up.mem.buf (locate (up.mem.part (devPart 0)) (devOff 0)).grp = [] ∧ (locate (up.mem.part (devPart 0)) (devOff 0)).byte + 4 ≤ 256 ∧
    (up.mem.buf 0).find? (fun e => decide (e.row = 3)) = none ∧ ((bufd.mem.buf 0).find? (fun e => decide (e.row = 4))).isSome = true ∧
    up.mem.waiting = [] ∧ ((ups { up.mem.part 0 with bulkRate := 5 }).mem.part 0).bulkRate ≠ 0 ∧ (up.mem.part 1).valid = false := by decide +kernel
/-- The dies and ports of a request are awake and their schedulers run. -/
def open' (s : State) (n : Nat) (wr : Bool) : Bool :=
  let s1 := (reqDomains s.mem 0 n wr).foldl State.rouse s
  (reqDomains s.mem 0 n wr).all s1.awake && (reqLocs s.mem 0 n).all (fun l => !s1.frozen (16 + l.die) (granPort l.gran % 12))
theorem wit_MemoryServesRequests_cases : open' up 4 false = true ∧ open' { up with domains := [(dieKey 16, { rung := 2, target := 2 })] } 4 false = false ∧
    (∃ l ∈ reqLocs up.mem 0 4, ({ up.mem with bad := [l.gran, (stripeGrans l.grp l.row).find? (fun j => decide (j ≠ l.gran)) |>.getD 0] } : Mem).poisoned l = true) ∧
    (up.devWrite 0 (List.replicate 2816 1#8)).mem.buffered 0 2816 = false ∧ (up.devWrite 0 [1#8, 2#8, 3#8, 4#8]).mem.buffered 0 4 = true ∧
    up.admits { mq 0#2 with len := (List.replicate 2816 1#8).length } = true ∧ open' up 2816 true = true ∧
    (let s := { bufd with mem := { bufd.mem with unanswered := [mq 0#2] } }
     ((s.mem.buf 0).find? (fun e => decide (e.row = 4))).isSome = true ∧ s.mem.unanswered ≠ [] ∧
       ∀ q ∈ s.mem.unanswered, (run (exec (.stripeBufferTimeout 0 4) s)).mem.buffered q.addr.toNat q.len = false) ∧
    (ups { up.mem.part 0 with bulkRate := 5 }).mem.waiting = [] := by decide +kernel
theorem wit_MemoryPortsHeal : (up.mem.port 0).st = 0 ∧ ((upp { st := 1 }).mem.port 0).st = 1 ∧ (∀ i, i < 12 → 0 / 12 * 12 + i ≠ 0 → (up.mem.port (0 / 12 * 12 + i)).st = 0) ∧
    ((upp { st := 1 }).mem.port (1 / 12 * 12 + 0)).st ≠ 0 ∧ (up.slot 0).st.loaded = true ∧ 0 < (up.mem.part (up.slot 0).part).onDie (0 / 12) ∧
    ((upp { st := 3 }).mem.port 0).st = 3 ∧ (let x := (upp { st := 1, cause := 1 }).mem.port 0
     x.st = 1 ∧ x.cause = 1 ∧ x.thermal = 0) ∧ ((upp { st := 2 }).mem.port 0).st = 2 ∧
    (let x : MPort := { st := 0, thermal := 2, lower := 14 }
     Mr4.code .warm < x.thermal ∧ x.lower < 15 ∧ (x.poll .warm).shut < 3 ∧ x.thermal ≤ Mr4.code .tooHot) ∧
    ((upp { st := 1, cause := 2 }).mem.port 0).cause ≠ 1 ∧ (up.mem.port 0).st ≠ 2 ∧ 15 ≤ ({ thermal := 2, lower := 15 } : MPort).lower ∧ 3 ≤ (({ st := 0, shut := 2 } : MPort).poll .tooHot).shut := by decide +kernel
theorem wit_MemoryPortsHeal_patrol : (let g := granNo 0 0 0
     g ∉ up.mem.patrol ∧ g ∉ up.mem.remaps ∧ (up.mem.remaps.filter (fun x => decide (x / 2 ^ 25 = g / 2 ^ 25))).length < sparesOf (up.mem.port (granPort g)).density ∧
       g ∈ ({ up.mem with patrol := [g] } : Mem).patrol ∧ g ∉ up.mem.bad ∧ up.mem.portLost g = false ∧
       (let l := Loc.mk (0 / 12 * 4 + 0) 0 ((0 % 12 + 23 - 0 % 12) % 12) 0
        l.gran = g ∧ ∀ j ∈ stripeGrans l.grp l.row, j ≠ g → up.mem.lost j = false) ∧
       (let l := Loc.mk (0 / 12 * 4 + 0) 0 ((0 % 12 + 23 - 0 % 12) % 12) 0
        let j := (stripeGrans l.grp l.row).find? (fun j => decide (j ≠ g)) |>.getD 0
        j ≠ g ∧ ({ up.mem with bad := [j] } : Mem).lost j = true ∧ g ∉ [j]) ∧
       (upp { st := 1 }).mem.portLost g = true) := by decide +kernel
theorem test_mr4 : ((run (exec (.mr4Poll 0 .hot) up)).mem.port 0).thermal = 2 ∧ (run (exec (.mr4Poll 0 .hot) up)).mem.ceil = [0] := by decide +kernel

/-- A COPY of 512 bytes from offset 0 to offset 4,096 of partition 0, with `paid` bytes paid for. -/
def dj (paid : Nat) : DmaJob :=
  { desc := { src := 0, dst := 4096, len := 512, op := 0, tc := 2 }, from' := .driver, slot := 0, seq := 0, started := true, paid := paid }
/-- Channel 30 of memory die 0 with the jobs `q`; the source was written. -/
def dms (q : List DmaJob) : State :=
  { run (exec (.memWrite { (mq 0#2) with who := .firmware } [1#8, 2#8]) up) with dma := [(30, { owner := 5, valid := true, queue := q })] }
/-- Channel 3 of memory die 0 with core 0's job `j`. -/
def dcs (c : DmaChan) : State := { wst with dma := [(3, c)] }
/-- Core 0's COPY, ADD_F32 or SEND of 256 bytes from its local store. -/
def dcj (op dst paid : Nat) : DmaJob :=
  { desc := { src := 3 * 2 ^ 62 + 2048, dst := dst, len := 256, op := op, tc := 2 }, from' := .core 0 false 1 0, slot := 0, seq := 0, started := true, paid := paid }
theorem wit_DmaChannelsMoveBytes : chanKey 0 30#5 = some 30 ∧ chanKey 7 31#5 = none ∧ ((dms []).chan 30).current = none ∧
    ((dms [dj 512]).chan 30).current = some (0, dj 512) ∧ (dj 512).desc.op ≤ 2 ∧ ((dj 512).desc.op ≠ 1 ∧ (dj 512).desc.op ≠ 2) ∧
    (let j : DmaJob := { dj 0 with started := false, desc := { (dj 0).desc with op := 3 } }
     ((dms [j]).refuseCause 30 ((dms [j]).chan 30) j).isSome = true ∧ ((dms [j]).chan 30).current = some (0, j)) ∧
    ((dms [dj 512]).chan 30).queue = [dj 512] ∧ (dj 512).fin = none ∧ (dj 512).sent = false ∧ (dj 512).done < 512 ∧ (dj 512).done < (dj 512).paid ∧
    rangesMeet 0 512 4096 512 = false ∧ min (256 - (4096 + 0) % 256) (512 - 0) = 256 := by decide +kernel
theorem wit_DmaChannelsMoveBytes_copy : windowOf 0 = 0 ∧ windowOf 4096 = 0 ∧
    (dms [dj 512]).admits { who := (dj 512).who, addr := BitVec.ofNat 64 0, len := 256, tc := 2#2 } = true ∧
    (dms [dj 512]).admits { who := (dj 512).who, addr := BitVec.ofNat 64 4096, len := 256, tc := 2#2 } = true ∧
    ((dms [dj 512]).mem.part (devPart 4096)).bulkRate = 0 ∧ (∀ l ∈ reqLocs (dms [dj 512]).mem 0 256, (dms [dj 512]).mem.lost l.gran = false) ∧
    windowOf (3 * 2 ^ 62 + 2048) = 3 ∧ (dcj 0 (3 * 2 ^ 62 + 4096) 256).from' = .core 0 false 1 0 ∧
    (dms [dj 0]).chan 30 = { owner := 5, valid := true, queue := [dj 0] } ∧ (dcj 1 4096 256).desc.op = 1 ∧ (dcj 2 0 256).desc.op = 2 ∧ (dcj 2 0 256).desc.chan ≠ 0xF1 ∧
    (dcj 2 0 256).desc.nf = false ∧
    (let s : State := { dcs { queue := [dcj 0 (3 * 2 ^ 62 + 4096) 0] } with cores := [] }
     (dcj 0 (3 * 2 ^ 62 + 4096) 0).paid ≤ (dcj 0 (3 * 2 ^ 62 + 4096) 0).done ∧
       ((s.core 0).ctx false).purse < chargeAt (dmaCost (dcj 0 (3 * 2 ^ 62 + 4096) 0).installment) (s.gov (dieOf 0)).clock) := by decide +kernel
theorem wit_DmaChannelsMoveBytes_add : (let j := dcj 1 4096 256
     let s := ups { up.mem.part 0 with owner := 0 }
     j.desc.len = 256 ∧ windowOf j.desc.src = 3 ∧ windowOf j.desc.dst = 0 ∧ (4096 + 0) % 2 ^ 64 = 4096 ∧
       s.admits { who := j.who, addr := BitVec.ofNat 64 4096, len := 256, tc := 2#2 } = true ∧ (s.mem.part (devPart 4096)).bulkRate = 0 ∧
       ∀ l ∈ reqLocs s.mem 4096 256, s.mem.lost l.gran = false) ∧
    (let j : DmaJob := { dj 512 with desc := { (dj 512).desc with op := 2 } }
     j.done < j.paid ∧ j.desc.chan ≠ 0xF1 ∧ j.desc.nf = false ∧ windowOf j.desc.src = 0 ∧ min 16384 512 = 512 ∧
       (dms [j]).admits { who := j.who, addr := BitVec.ofNat 64 0, len := 512, tc := 2#2 } = true ∧
       ∀ l ∈ reqLocs (dms [j]).mem 0 512, (dms [j]).mem.lost l.gran = false) := by decide +kernel
theorem wit_DmaChannelsMoveBytes_serves : (dms [dj 512]).serves (dj 512).who 0 256 false ∧ (dms [dj 512]).serves (dj 512).who 4096 256 true ∧
    (ups { up.mem.part 0 with owner := 0 }).serves (dcj 1 4096 256).who 4096 256 true ∧ (dms [dj 512]).serves (dj 512).who 0 512 false := by
  unfold State.serves; decide +kernel
theorem wit_DmaChannelsMoveBytes_room : (let s := dms [dj 512]
     s.rouse (dieKey 16) = s ∧ s.awake (dieKey 16) = true ∧ s.frozen 16 12 = false ∧ s.poolRoom 30 1 = true ∧ s.chanFlight 30 < 32 ∧
       (dj 512).core = none) ∧
    (let s : State := { dms [dj 512] with domains := [(dieKey 16, { rung := 2, target := 2 })] }
     ((s.rouse (dieKey 16)).awake (dieKey 16)) = false) ∧
    (let s := dcs { queue := [dcj 1 4096 256] }
     s.poolRoom 3 2 = true ∧ (dcj 1 4096 256).from' = .core 0 false 1 0 ∧ (s.mem.buf 0).find? (fun e => decide (e.row = 0)) = none) ∧
    ((dms []).mem.buf 0).find? (fun e => decide (e.row = 0)) ≠ none := by decide +kernel

/-- A finished job. -/
def fin (j : DmaJob) : DmaJob := { j with fin := some (0, 0) }
/-- A channel whose completion queue of 16 records is full, or with its head word 1, not any more. -/
def full : DmaChan := { owner := 5, valid := true, hasCq := true, cqLog2 := 4, cqBase := 0x2000, cqHeadAddr := 0, producer := 16, cqHead := 0, full := true }
/-- A notice to core (0, 0) about grant 1. -/
def note (v : Nat) : Msg := msg 0xFD#8 2#4 1#12 [BitVec.ofNat 32 (v + 1 * 65536)]
/-- A core that awaits a notice on grant 1. -/
def waits : State := { sls { st := .running, bound := [(0, false)] } with cores := [(0, { wcore with main := { wctx with inflight := [flight .dieDma none (.dma 1)] } })] }
theorem wit_DmaCompletesInOrder : (dms [dj 512]).chan 30 = { owner := 5, valid := true, queue := [dj 512] } ∧ (dj 512).fin = none ∧
    (fin (dj 512)).fin = some (0, 0) ∧ ((dms [fin (dj 512)]).mem.buffered 4096 0 = false) ∧ full.cqFull = true ∧ ((dms []).chan 30).cqFull = false ∧
    (fin (dj 512)).desc.release = false ∧ (fin (dj 512)).desc.cq = false ∧ (fin (dj 512)).desc.irq = false ∧
    (fin (dcj 0 (3 * 2 ^ 62 + 4096) 256)).from' = .core 0 false 1 0 ∧ windowOf (3 * 2 ^ 62 + 4096) ≠ 0 ∧
    (let c : DmaChan := { full with producer := 0, full := false }
     c.cqFull = false ∧ c.hasCq = true ∧ (dms [fin (dj 512)]).admits { who := .firmware, addr := BitVec.ofNat 64 (c.cqBase + c.producer % 2 ^ c.cqLog2 * 32), len := 32, tc := 2#2 } = true ∧
       c.cqBase + c.producer % 2 ^ c.cqLog2 * 32 < 2 ^ 64) ∧
    ({ full with cqHead := (dms []).devLE 0 4 } : DmaChan).cqHead = 0x201 ∧ ({ full with cqHead := 0 } : DmaChan).cqFull = true ∧
    ({ full with cqHead := (dms []).devLE 0 4 } : DmaChan).cqFull = false ∧ full.closing = false ∧
    (dcj 2 0 256).desc.op = 2 ∧ ({ dcj 2 0 256 with sent := true } : DmaJob).fin = none ∧
    (let s := { wst with modId := 5#14, links := { wst.links with k := [2, 1, 1, 1], configured := true } }
     s.linkAcked { dcj 2 0 256 with sent := true } = true ∧ 4 ≤ 130 / 32) ∧
    wst.chestBuffered (chestAddr (2 * 2 ^ 62)) 256 = false ∧ windowOf (2 * 2 ^ 62) = 2 ∧
    (let s := { dms [fin (dj 512)] with mem := (bufd.devWrite 4096 [1#8]).mem }
     s.mem.buffered 4096 1 = true ∧ (dj 512).desc.dst = 4096) := by decide +kernel
theorem wit_DmaCompletesInOrder_notice : waits.takes (note 0) wp ∧ (waits.ctx wp).awaits ((1 * 65536) / 65536 % 64) = some (flight .dieDma none (.dma 1)) ∧
    (flight .dieDma none (.dma 1)).unit ≠ .nibble ∧ (0x1201 : Nat) % 256 = 1 ∧ 0x1201 / 256 % 256 = 0x12 ∧
    (dms [{ dj 512 with sent := true }] |>.chan 30).queue.findIdx? (fun j => j.sent && j.fin.isNone) = some 0 ∧
    (let m := toAgent 0xFD#8 2#4 0#12 false [BitVec.ofNat 32 (30 * 65536)]
     m.destX = 0x3F#6 ∧ m.destY = 0x3F#6 ∧ m.destDev = wst.modId ∧ wst.inOrder m = true ∧ m.hcheck = headerCheck m ∧ m.arg.toNat % 4 * 32 + (m.payload.headD 0#32).toNat / 65536 % 32 = 30) ∧ (note 0).destDev ≠ State.reset.modId :=
  ⟨msg_reaches _ _ _ _ _ (by decide) rfl (by decide +kernel) (by decide +kernel) (by decide) (by decide), by decide +kernel⟩
/-! Arbiters, rings and commands. -/

/-- A round of instance 12 of memory die 16 in which requesters 3 and 5 arrive and those of `r` can move. -/
def rnd (r : List Nat) : RoundArgs := { die := 16, inst := 12#12, arrive := [(3, 0), (5, 1)], ready := r, ends := [], window := false }
/-- That instance as `a`. -/
def arbs (a : Arb) : State := { wst with arbs := [(16 * 4096 + 12, a)] }
theorem wit_ArbitersFollowPriorities : arbCount 20 ≤ 4000 ∧ (12#12).toNat < arbCount 16 ∧ ((arbs { freeze := true }).arb 16 12).freeze = true ∧
    (let a0 := (arbs { normal := true }).arb 16 12
     let a := (a0.withdraw (rnd [5]).ends).arrive ((rnd [5]).arrive.map (fun x => (x.1, x.2.val)))
     a0.freeze = false ∧ a0.normal = true ∧ a0.drainQueue = false ∧ ¬ (16 ≤ 16 ∧ 16 < 20 ∧ (12 : Nat) < 12) ∧
       a.active.filter (fun x => (rnd [5]).ready.contains x.1) = [(5, 1)] ∧ (a.active.map (fun x => x.1)).Nodup ∧
       a.active.filter (fun x => (rnd []).ready.contains x.1) = []) ∧ (rnd [5]).window = false ∧
    ((arbs {}).arb 16 12).normal = false ∧ ((arbs {}).arb 16 12).queue.length ≤ 8 ∧ ((arbs { queue := [(3, 0)] }).arb 16 12).queue = [(3, 0)] ∧
    (rnd [3]).ready.contains 3 = true ∧ (rnd []).ready.contains 3 = false ∧ ({ freeze := true, normal := true } : Arb).normal = true ∧
    ((arbs { freeze := true }).arb 16 12).normal = false ∧ ((arbs { normal := true, drainQueue := true, queue := [(3, 0)] }).arb 16 12).drainQueue = true ∧
    ((arbs { normal := true, drainQueue := true, queue := [(3, 0)] }).arb 16 12).queue = (3, 0) :: [] ∧
    (let a0 := wst.arb 16 3
     let a := ({ a0 with normal := true } : Arb).arrive [(3, 0), (5, 1)]
     a.slotClass (wst.mem.port 3).thermal (a.active.filter (fun x => [5].contains x.1)) = some 1) ∧ wst.boot.testDies = [] ∧
    (16 : Nat) ∈ ({ wst.boot with testDies := [16] } : Boot).testDies := by decide +kernel
theorem test_arb_round : ((run (exec (.arbRound (rnd [5])) (arbs { normal := true }))).arb 16 12).busy = some 5 := by decide +kernel

/-- The module in service with the rings `rs`. -/
def rgs (rs : SMap Ring) : State := { up with mail := { rings := rs } }
/-- A running ring of 16 entries. -/
def rr : Ring := { en := true, sizeLog2 := 4 }
theorem wit_RingRegistersFollowTheirWrites : (∀ w ∈ up.mem.waiting, (decide (w.q.who = .bar2) && w.data.isSome) = false) ∧ wst.ringSeen 0 4 = false ∧
    up.ringSeen 0 4 = true ∧ (up.ring 4).en = false ∧ 4 ≤ fld (9#32).toNat 4 1 ∧ fld (9#32).toNat 4 1 ≤ 12 ∧ up.mail.done = [] ∧
    fld (27#32).toNat 4 1 = 13 ∧ ((rgs [(4, rr)]).ring 4).en = true ∧ fld (9#32).toNat 4 1 = ((rgs [(4, rr)]).ring 4).sizeLog2 ∧
    fld (11#32).toNat 4 1 ≠ ((rgs [(4, rr)]).ring 4).sizeLog2 ∧ (up.ring 4).run = false ∧ ((rgs [(4, rr)]).ring 4).run = true ∧
    (16#32 - ((rgs [(4, rr)]).ring 4).index).toNat ≤ ((rgs [(4, rr)]).ring 4).size ∧
    ((rgs [(4, rr)]).ring 4).size < (17#32 - ((rgs [(4, rr)]).ring 4).index).toNat ∧
    (let x := (rgs [(5, rr)]).ring 5
     0 < (1#32 - x.index).toNat ∧ (1#32 - x.index).toNat < 2 ^ 31) ∧
    (0#32 - ((rgs [(10, rr)]).ring 10).index).toNat = 0 ∧ ((rgs [(10, rr)]).ring 10).run = true ∧ (rgs [(4, rr)]).settleBar2.ring 4 = rr ∧
    ((rgs [(4, rr)]).ring 4).err = false ∧
    (let x := (rgs [(4, { rr with err := true, cause := 2 })]).ring 4
     x.err = true ∧ x.en = true ∧ 4 ≤ x.sizeLog2 ∧ x.sizeLog2 ≤ 12 ∧ x.badCount 4 = false) ∧ ((rgs [(4, { rr with err := true, doorbell := 17#32 })]).ring 4).badCount 4 = true := by decide +kernel
/-- The module in service with management ring `x`, its completion ring `y`, and a NOP in host memory. -/
def fetch (x y : Ring) (op : Nat) : State :=
  let s := rgs [(4, x), (9, y), (10, { rr with baseLo := 0x3000 })]
  { s with mail := { s.mail with host := s.mail.host.writeList 0 (leBytes 64 (op + 0xFF * 2 ^ 64)) } }
/-- The command that it fetches. -/
def nopc (op : Nat) : Cmd :=
  { ring := 4, bytes := rdBytes (fetch rr rr op).mail.host.read (((fetch rr rr op).ring 4).base + ((fetch rr rr op).ring 4).index.toNat % ((fetch rr rr op).ring 4).size * 64) 64 }
theorem wit_RecordsGoToTheHost : (fetch { rr with doorbell := 1#32 } rr 0).hostUp = true ∧ ((fetch { rr with doorbell := 1#32 } rr 0).ring 4).run = true ∧
    ((fetch { rr with doorbell := 1#32 } rr 0).ring 4).doorbell ≠ ((fetch { rr with doorbell := 1#32 } rr 0).ring 4).index ∧
    (fetch { rr with doorbell := 1#32 } rr 0).outstanding 4 < ((fetch { rr with doorbell := 1#32 } rr 0).ring 9).free ∧ (nopc 0).refusal = none ∧
    (nopc 0x7777).refusal.isSome = true ∧ wst.hostUp = false ∧ (up.ring 4).unsig = none ∧
    (let x : Ring := { rr with ie := true, unsig := some 0 }
     x.ie = true ∧ 0 + x.coal ≤ (0 : Nat)) ∧ (SMap.get 0#32 up.mail.msix (msixKey 0 0 3)).getLsbD 0 = false ∧
    (SMap.get 0#32 ([(msixKey 0 0 3, 1#32)] : SMap Word) (msixKey 0 0 3)).getLsbD 0 = true ∧ up.events = [] ∧
    (run (exec (.trap wp wh 6#16 0#16) wst)).events ≠ [] ∧ ((run (exec (.trap wp wh 6#16 0#16) wst)).events.all (fun e => decide (e.payload.length = 32))) = true ∧
    wst.ready = false ∧ up.ready = true ∧
    (let s := rgs [(9, rr)]
     (s.ring 9).run = true ∧ 0 < (s.ring 9).free ∧ ∀ e ∈ s.mail.done, e.1 ≠ 9) ∧
    (let s := run (exec (.trap wp wh 6#16 0#16) (fetch rr rr 0))
     (s.ring 10).run = true ∧ (s.ring 10).free ≠ 0) ∧ (let x : Ring := { rr with ie := true, unsig := some 5 }; (0 : Nat) < 5 + x.coal) := by decide +kernel

/-- The module in service with the command `c` next in its ring. -/
def cmds (c : Cmd) : State := { up with mail := { cmds := [c] } }
/-- A command of `op` on ring `r` about unit `k`, `i`, with the parameter bytes `ps` from 0x18 on, EXPECT `e` and MASK `m`. -/
def cmd (r op k i : Nat) (ps : List Byte) (e m : Nat) : Cmd :=
  { ring := r, bytes := leBytes 4 op ++ leBytes 4 0 ++ leBytes 4 (i * 256 + k) ++ leBytes 4 e ++ leBytes 4 m ++ leBytes 4 0 ++ ps }
theorem wit_CommandsMeetTheirUnits : up.nextCmd 4 0 = none ∧ (cmds (cmd 4 0 0xFF 0 [] 0 0)).nextCmd 4 0 = some (cmd 4 0 0xFF 0 [] 0 0) ∧
    ((cmds (cmd 4 0x41 2 3 [] 0x1234 0xFFFF)).expect (cmd 4 0x41 2 3 [] 0x1234 0xFFFF)).2 = false ∧ (cmd 4 0x41 2 3 [] 0x1234 0xFFFF).unitKind ≠ 0xFF ∧
    ((cmds (cmd 4 0 0xFF 0 [] 0 0)).expect (cmd 4 0 0xFF 0 [] 0 0)).2 = true := by decide +kernel
/-- The module in service with no job loaded and one command next. -/
def mg (op k i : Nat) (ps : List Byte) : State := { cmds (cmd 4 op k i ps 0 0) with slots := [], boot := { up.boot with logDensity := 0 } }
/-- A partition record of OWNER 1 over 1,024 rows of group 2. -/
def prec : List Byte := leBytes 2 9 ++ leBytes 2 4 ++ leBytes 4 0 ++ leBytes 4 1024 ++ List.replicate 20 0#8
/-- A governor record. -/
def grec : List Byte :=
  leBytes 2 150 ++ leBytes 2 20 ++ leBytes 2 1800 ++ leBytes 2 400 ++ leBytes 2 5000 ++ [90#8, 8#8, 20#8, 50#8, 80#8] ++ List.replicate 17 0#8 ++ leBytes 2 4200
/-- The management ring's command of a module. -/
def mc (op k i : Nat) (ps : List Byte) : Cmd := cmd 4 op k i ps 0 0
theorem wit_ManagementCommandsAct : (mg 0 0xFF 0 []).nextCmd 4 0 = some (mc 0 0xFF 0 []) ∧ ((mg 0 0xFF 0 []).expect (mc 0 0xFF 0 [])).2 = true ∧
    (mg 1 0xFF 0 []).nextCmd 4 1 = some (mc 1 0xFF 0 []) ∧ (mg 0x10 0xFF 0 (leBytes 4 1)).nextCmd 4 0x10 = some (mc 0x10 0xFF 0 (leBytes 4 1)) ∧
    (mg 0x10 0xFF 0 (leBytes 4 1)).anyLoaded = false ∧ up.anyLoaded = true ∧ fld ((mc 0x10 0xFF 0 (leBytes 4 1)).fieldAt 0x18 4) 3 0 + 1 = 2 ∧
    ((mc 0x20 7 1 prec).bytes.drop 0x18).take 32 = prec ∧ (mg 0x20 7 1 prec).partRefusal prec (rowsOf 0) = none ∧ (mg 0x20 7 1 prec).unitWord 9 1 % 16 = 0 ∧ (mg 0x20 7 0 prec).unitWord 9 0 % 16 ≠ 0 ∧
    (let s := { mg 0x10 0xFF 0 (leBytes 4 1) with links := { up.links with ports := [(0, { locked := true })] } }
     s.anyLoaded = false ∧ (s.lport 0).locked = true ∧ 1 < [2, 1, 1, 1].getD (0 / 4) 1) ∧ (∀ q, q < 16 → (up.lport q).locked = false) ∧
    (mg 0x20 7 1 prec).partRefusal (prec.drop 1) (rowsOf 0) ≠ none ∧ (mg 0x20 7 1 prec).mem.scrubDue (parsePart prec) = false ∧ (parsePart prec).valid = true ∧
    ({ (mg 0x20 7 1 prec).mem with owners := [(2, 0, 1024, 3)] } : Mem).scrubDue (parsePart prec) = true ∧
    (mg 0x21 7 0 []).partBusy 0 = false ∧ (ups { up.mem.part 0 with owner := 0 }).partBusy 0 = true ∧ ((mg 0x22 7 0 []).mem.part 0).valid = true ∧ ((mg 0x22 7 0 []).mem.part 1).valid = false ∧
    (let c := mc 0x41 2 3 grec
     govRefusal ((c.bytes.drop 0x18).take 32) (((List.range 16).filter (fun i => decide (i ≠ 3))).map (fun i => (((mg 0x41 2 3 grec).gov i).next.getD ((mg 0x41 2 3 grec).gov i).cfg).capW)).sum
       (c.fieldAt 0x38 2) = none) ∧ (govRefusal grec 2700 4100).isSome = true := by decide +kernel
theorem wit_ManagementCommandsAct_scrub : ((ups { up.mem.part 0 with scrubbing := true }).mem.part 0).scrubbing = true ∧ up.mem.dram.erased = false ∧
    up.mem.dram.lost = [] ∧ (up.mem.part 0).scrubbing = false := by decide +kernel
theorem wit_ManagementCommandsAct_ports : bitOf ((mc 0x30 10 0 [1#8]).fieldAt 0x18 1) 0 = true ∧ bitOf ((mc 0x30 10 0 [0#8]).fieldAt 0x18 1) 0 = false ∧
    (mg 0x30 10 0 [1#8]).nextCmd 4 0x30 = some (mc 0x30 10 0 [1#8]) ∧ (mg 0x30 10 0 [0#8]).dieDegraded 0 = false ∧ (upp { st := 1 }).dieDegraded 1 = true ∧
    ((upp { st := 2 }).mem.port 0).st = 2 ∧ ((mg 0x30 10 0 [0#8]).mem.port 0).st = 0 ∧ ((upp { st := 1 }).mem.port 0).st = 1 ∧ (upp { st := 1 }).dieDegraded 0 = false ∧
    ((upp { st := 1 }).mem.port 0).thermal = 0 ∧ ((upp { st := 1, thermal := 2 }).mem.port 0).thermal ≠ 0 := by decide +kernel
theorem wit_ManagementCommandsAct_power : (mg 0x40 0 0 [1#8]).nextCmd 4 0x40 = some (mc 0x40 0 0 [1#8]) ∧ (mc 0x40 0 0 [1#8]).fieldAt 0x18 1 % 8 = 1 ∧
    (mg 0x40 0 0 [1#8]).rungForbidden 0 0 1 = false ∧ (mg 0x40 0 0 [7#8]).rungForbidden 4 24 7 = true ∧ ((mg 0x40 0 0 [1#8]).domain (domOf 0 0)).phase = 0 ∧
    ((mg 0x40 0 0 [1#8]).domain (domOf 0 0)).rung < 1 ∧ ((mg 0x40 0 0 [0#8]).domain (domOf 0 0)).rung = 0 ∧
    ((dst 0 { rung := 3, target := 3 }).domain (domOf 0 0)).rung > 1 ∧ ((dst 0 { rung := 3, phase := 3 }).domain (domOf 0 0)).phase = 3 ∧ 0 < (1 : Nat) ∧
    ((dst 0 { rung := 0, target := 4, phase := 1 }).domain (domOf 0 0)).target > 1 ∧ (mg 0x40 6 0 [1#8]).rungForbidden 6 0 1 = false ∧
    ((mg 0x40 6 0 [1#8]).lport 0).up = false ∧ (lst.lport 0).up = true := by decide +kernel
/-- The parameters of TELEMETRY_READ of scope 0 into `n` bytes at `a`. -/
def tps (f a n : Nat) : List Byte := leBytes 4 f ++ leBytes 4 0 ++ leBytes 8 a ++ leBytes 4 n
/-- A module with one counter and that command. -/
def tel (f a n : Nat) : State := { mg 0x50 0xFF 0 (tps f a n) with counters := [({ id := Ctr.commandsDone }, 5)] }
theorem wit_ManagementCommandsAct_telemetry : (tel 0 0 64).nextCmd 4 0x50 = some (mc 0x50 0xFF 0 (tps 0 0 64)) ∧
    ((tel 0 0 64).expect (mc 0x50 0xFF 0 (tps 0 0 64))).2 = true ∧ bitOf ((mc 0x50 0xFF 0 (tps 16 0 64)).fieldAt 0x18 1) 4 = true ∧
    bitOf ((mc 0x50 0xFF 0 (tps 0 0 64)).fieldAt 0x18 1) 4 = false ∧
    (telemEntries (tel 0 0 64).counters 0 (fun k => decide (scopeIndex 0 k = some 0))).flatten.length ≤ (mc 0x50 0xFF 0 (tps 0 0 64)).fieldAt 0x28 4 ∧
    (mc 0x50 0xFF 0 (tps 0 0 1)).fieldAt 0x28 4 < (telemEntries (tel 0 0 1).counters 0 (fun k => decide (scopeIndex 0 k = some 0))).flatten.length ∧
    (tel 0 0 64).inStaging 0 16 = true ∧ (tel 0 (2 ^ 61) 64).inStaging (2 ^ 61) 16 = false := by decide +kernel
theorem test_nop : (run (exec (.nopCommand 4) (mg 0 0xFF 0 []))).mail.cmds = [] := by decide +kernel
/-- The module in service with staging in partition 0, partition 1 of OWNER `k`, slot `k` as `x`, the bytes `b` in staging and the command `c`. -/
def jb (k : Nat) (x : Slot) (b : List Byte) (c : Cmd) : State :=
  let s := { ups { up.mem.part 0 with rows := 1024 } with slots := [(k, x)], mail := { cmds := [c] } }
  { s with mem := { s.mem with parts := [(0, s.mem.part 0), (1, { valid := true, owner := k, groups := 4, rows := 1024 })] } }.devWrite 0 b
/-- JOB_LOAD on ring `k` of `n` bytes at `a` into partition `p`, from step `st` on. -/
def jc (op k a n st p : Nat) : Cmd := cmd k op 8 k (leBytes 8 a ++ leBytes 8 n ++ leBytes 8 7 ++ leBytes 4 st ++ leBytes 4 p) 0 0
/-- An entry of a section table. -/
def secRow (ty rank off len crc : Nat) : List Byte :=
  leBytes 2 ty ++ leBytes 2 rank ++ leBytes 4 0 ++ leBytes 8 off ++ leBytes 8 len ++ leBytes 4 crc ++ leBytes 4 0
/-- The image header with its CRC field `crc`. -/
def imgHead (guest : Bool) (n secs crc : Nat) : List Byte :=
  leBytes 4 0x4F584A42 ++ leBytes 2 1 ++ leBytes 2 (b2n guest) ++ leBytes 8 n ++ leBytes 4 secs ++ leBytes 4 crc ++ List.replicate 40 0#8
/-- The body of a guest image: three empty sections and a binding of core (0, 0) of module 5. -/
def guestBody : List Byte :=
  (secRow 8 0xFFFF 256 0 (crc32c []).toNat ++ secRow 9 0xFFFF 256 0 (crc32c []).toNat ++ secRow 10 0xFFFF 256 0 (crc32c []).toNat ++
    secRow 15 0xFFFF 256 4 (crc32c (leBytes 4 5)).toNat) ++ List.replicate 64 0#8 ++ leBytes 4 5
/-- That image. -/
def guestImg : List Byte := imgHead true 260 4 (crc32c (imgHead true 260 4 0 ++ guestBody)).toNat ++ guestBody
/-- Rank 0's stage record (one chunk, 64 off-load tiles in partition 1) and collective record of a training image. -/
def stageBytes : List Byte :=
  (leBytes 4 65536 ++ leBytes 4 1 ++ leBytes 8 0 ++ leBytes 8 (devAddr 1 0) ++ leBytes 4 64 ++ leBytes 4 0) ++ List.replicate 32 0#8 ++
    (leBytes 4 1 ++ List.replicate 60 0#8)
def collBytes : List Byte := leBytes 4 33 ++ leBytes 4 256 ++ List.replicate 56 0#8
/-- A section and the padding to the next. -/
def padded (b : List Byte) : List Byte := b ++ List.replicate (256 - b.length) 0#8
/-- The body of a training image in which module 5 is a spare. -/
def spareBody : List Byte :=
  (secRow 1 0xFFFF 512 8 (crc32c (leBytes 8 (5 + 0xFFFF * 65536))).toNat ++ secRow 2 0 768 128 (crc32c stageBytes).toNat ++
    secRow 3 0 1024 8 (crc32c (leBytes 8 0)).toNat ++ secRow 4 0 1280 64 (crc32c collBytes).toNat) ++
    ((List.range 6).map (fun i => secRow (i + 5) 0xFFFF 512 0 (crc32c []).toNat)).flatten ++ List.replicate 128 0#8 ++
    padded (leBytes 8 (5 + 0xFFFF * 65536)) ++ padded stageBytes ++ padded (leBytes 8 0) ++ collBytes
/-- That image. -/
def spareImg : List Byte := imgHead false 1344 10 (crc32c (imgHead false 1344 10 0 ++ spareBody)).toNat ++ spareBody
set_option maxRecDepth 20000 in
theorem wit_JobsComeAndGo : (let c := jc 0x100 1 0 260 0 1
     let s := jb 1 {} guestImg c
     s.nextCmd 1 0x100 = some c ∧ c.ring = 1 ∧ (s.expect c).2 = true ∧ c.fieldAt 0x20 5 = 260 ∧ c.fieldAt 0x34 1 % 8 = 1 ∧ (s.slot 1).st = .empty ∧
       s.inStaging (c.fieldAt 0x18 8) 260 = true ∧ (s.mem.part 1).valid = true ∧ (s.mem.part 1).owner = 1 ∧
       imageRefusal (s.noted c) ((s.noted c).devRead (c.fieldAt 0x18 8) 260) 260 1 1 false = none) := by decide +kernel
set_option maxRecDepth 20000 in
theorem wit_JobsComeAndGo_training : (let c := jc 0x100 0 0 1344 9 1
     let s := jb 0 {} spareImg c
     let b := (s.noted c).devRead (c.fieldAt 0x18 8) 1344
     s.nextCmd 0 0x100 = some c ∧ s.inStaging (c.fieldAt 0x18 8) 1344 = true ∧ (s.mem.part 1).owner = 0 ∧ imageRefusal (s.noted c) b 1344 0 1 false = none ∧
       (parseColl (secFor b 4 ((rankOf b s.modId.toNat).getD 0xFFFF))).master ≠ s.modId.toNat) := by decide +kernel
theorem wit_JobsComeAndGo_refused : (let c := jc 0x100 1 0 260 0 1
     let s := jb 1 {} [] c
     (imageRefusal (s.noted c) ((s.noted c).devRead 0 260) 260 1 1 false).isSome = true ∧ (s.mem.part 0).owner ≠ 1 ∧ s.inStaging (2 ^ 61) 260 = false ∧
       ((jb 1 { st := .running } [] c).slot 1).st ≠ .empty) := by decide +kernel
set_option maxRecDepth 20000 in
theorem wit_JobsComeAndGo_map : (let c := jc 0x102 1 0 260 0 1
     let s := jb 1 { st := .running, guest := true, part := 1 } guestImg c
     s.nextCmd 1 0x102 = some c ∧ c.opcode = 0x102 ∧ (s.expect c).2 = true ∧ (s.slot 1).st.loaded = true ∧
       s.atStart 1 = true ∧ imageRefusal (s.noted c) ((s.noted c).devRead 0 260) 260 1 (s.slot 1).part true = none) ∧
    (gx 0 true {}).atStart 1 = true ∧
    ({ gx 0 true {} with cores := [(0, { wcore with guest := { status := .running, slot := 1, pos := 1 } })] } : State).atStart 1 = false ∧
    (let c := jc 0x102 0 0 260 0 1
     ((jb 0 {} [] c).slot 0).st.loaded = false ∧ ((jb 0 { st := .ready } [] c).slot 0).st.loaded = true ∧
       (imageRefusal ((jb 0 { st := .ready } [] c).noted c) [] 260 0 0 true).isSome = true) ∧
    (let c := jc 0x102 0 0 260 0 1
     ((jb 0 { st := .running, run := some { step := 9 } } [] c).slot 0).run ≠ none ∧ ((jb 0 { st := .ready } [] c).slot 0).run = none ∧
       (jb 0 { st := .ready } [] c).stepFollows c = false) := by decide +kernel
/-- STATE_COPY on ring 1: `f` 1 copies out; from `a`, to `d`, 64 bytes. -/
def scc (f a d : Nat) : Cmd := cmd 1 0x103 8 1 (leBytes 8 f ++ leBytes 8 a ++ leBytes 8 d ++ leBytes 8 64) 0 0
theorem wit_JobsComeAndGo_copy : (let c := scc 0 0 (devAddr 1 0)
     let s := jb 1 { st := .running, guest := true, part := 1 } [] c
     s.nextCmd 1 0x103 = some c ∧ bitOf (c.fieldAt 0x18 1) 0 = false ∧ (s.expect c).2 = true ∧ isDev (c.fieldAt 0x20 8) = true ∧
       (s.mem.part (devPart (c.fieldAt 0x20 8))).valid = true ∧ (s.mem.part (devPart (c.fieldAt 0x20 8))).owner = 6 ∧ isDev (c.fieldAt 0x28 8) = true ∧
       (s.mem.part (devPart (c.fieldAt 0x28 8))).valid = true ∧ (s.mem.part (devPart (c.fieldAt 0x28 8))).owner = 1 ∧
       devOff (c.fieldAt 0x20 8) + 64 ≤ (s.mem.part (devPart (c.fieldAt 0x20 8))).size ∧ devOff (c.fieldAt 0x28 8) + 64 ≤ (s.mem.part (devPart (c.fieldAt 0x28 8))).size) ∧
    bitOf ((scc 1 0 0).fieldAt 0x18 1) 0 = true ∧ devPart (devAddr 1 0) = 1 ∧
    (let s := jb 1 { st := .running, guest := true, part := 1 } [] (scc 0 0 0)
     (s.mem.part (devPart 0)).owner ≠ 1 ∧ (s.mem.part 1).owner ≠ 6 ∧ (s.mem.part 0).size < devOff (devAddr 0 (2 ^ 40 - 64)) + 64) := by decide +kernel
theorem wit_JobsComeAndGo_unload : (let c := jc 0x101 0 0 0 0 0
     let s := jb 0 { st := .ready, bound := [(0, false)] } [] c
     s.nextCmd 0 0x101 = some c ∧ (s.expect c).2 = true ∧ (s.slot 0).st = .ready ∧ SMap.wf {} s.dma = true) ∧
    (let x : Slot := { st := .running }
     x.st ≠ .ready ∧ x.st ≠ .halted ∧ x.st ≠ .haltedBeyond) ∧
    (dcs { owner := 1, valid := true }).chan 3 = { owner := 1, valid := true } ∧
    ((dcs { owner := 1, valid := true, queue := [dcj 0 0 0] }).chan 3).queue ≠ [] := by decide +kernel

/-- Slot 0 with partition 2 of OWNER 5 and one journal record of step 9, and the command `c`. -/
def sc (x : Slot) (b : List Byte) (c : Cmd) : State :=
  let s := jb 0 x b c
  { s with mem := { s.mem with parts := s.mem.parts ++ [(2, { valid := true, owner := 5, groups := 8, rows := 1024 })] }, journal := { recs := [(9, 0, 256, 64)] } }
/-- RUN_STEP of step `n` with flags `f`. -/
def rs (n f : Nat) : Cmd := cmd 0 0x110 8 0 (leBytes 4 n ++ leBytes 4 f ++ leBytes 8 0 ++ List.replicate 16 0#8) 0 0
/-- A slot that decided step 8. -/
def s8 : Slot := { st := .ready, decided := 8 }
theorem wit_SlotCommandsAct : (let c := rs 9 0
     let s := sc s8 [] c
     s.nextCmd 0 0x110 = some c ∧ (s.expect c).2 = true ∧ s8.lastReleased + 1 + (s.noted c).acceptedSteps.length = 9 ∧ s8.rollback = none ∧ c.fieldAt 0x18 4 = 9 ∧
       (s.noted c).inStaging (c.fieldAt 0x20 8) (64 * s8.nUpd) = true ∧ (s.noted c).inStaging (c.fieldAt 0x30 8) (c.fieldAt 0x38 4) = true ∧
       Upd.tableRefusal ((s.noted c).devRead (c.fieldAt 0x20 8) (64 * s8.nUpd)) = none) ∧
    (Upd.tableRefusal (List.replicate 64 0#8)).isSome = true ∧ 
    ({ s8 with image := imgHead false 160 1 0 ++ secRow 5 0xFFFF 128 32 0 ++ List.replicate 64 0#8 } : Slot).nUpd = 1 ∧
    (let c := rs 9 0
     ((sc { s8 with rollback := some 8 } [] c).slot 0).rollback ≠ none ∧ (sc { s8 with st := .halted } [] c).nextCmd 0 0x110 = some c ∧
       ((sc { s8 with st := .halted } [] c).expect c).2 = true ∧ ({ st := .haltedBeyond } : Slot).st = .haltedBeyond ∧
       (sc s8 [] c).inStaging (2 ^ 61) 64 = false ∧ ((sc {} [] c).slot 0).st.loaded = false) ∧ bitOf ((rs 9 0x2000).fieldAt 0x1C 4) 13 = true ∧
    (rs 8 0).fieldAt 0x18 4 ≠ 9 := by decide +kernel
/-- A command on ring 0 whose parameter words are `a`, `b`, `p` and `n`. -/
def c0 (op a b p n : Nat) : Cmd := cmd 0 op 8 0 (leBytes 4 a ++ leBytes 4 b ++ leBytes 8 p ++ leBytes 4 n ++ leBytes 12 0) 0 0
theorem wit_SlotCommandsAct_cancel : (sc s8 [] (c0 0x111 0 0 0 0)).nextCmd 0 0x111 = some (c0 0x111 0 0 0 0) ∧
    ((sc s8 [] (c0 0x111 0 0 0 0)).expect (c0 0x111 0 0 0 0)).2 = true ∧ (sc s8 [] (c0 0x131 0 0 0 0)).nextCmd 0 0x131 = some (c0 0x131 0 0 0 0) ∧
    ((sc s8 [] (c0 0x131 0 0 0 0)).slot 0).inStep = false ∧ sl0.inStep = true ∧ (sc { s8 with rollback := some 9 } [] (c0 0x152 9 0 0 0)).nextCmd 0 0x152 = some (c0 0x152 9 0 0 0) ∧
    ({ s8 with rollback := some 9 } : Slot).rollback = some ((c0 0x152 9 0 0 0).fieldAt 0x18 4) ∧ s8.rollback ≠ some 9 ∧ s8.run = none ∧ s8.st = .ready := by
  decide +kernel
theorem wit_SlotCommandsAct_journal : (let c := c0 0x151 9 0 0 0
     let s := sc { s8 with rollback := some 9 } [] c
     s.nextCmd 0 0x151 = some c ∧ (s.expect c).2 = true ∧ (∃ b, (s.noted c).journalRecord 0 (c.fieldAt 0x18 4) = some b ∧
       (s.noted c).inStaging (c.fieldAt 0x20 8) (64 * leAt b 0x38 4) = true ∧
       (crc32c ((s.noted c).devRead (c.fieldAt 0x20 8) (64 * leAt b 0x38 4))).toNat = leAt b 0x28 4)) ∧
    (sc s8 [] (c0 0x151 8 0 0 0)).journalRecord 0 8 = none ∧ s8.st = .ready ∧ s8.run = none ∧ s8.rollback ≠ some 9 ∧ sl0.st ≠ .ready ∧
    (let c := c0 0x150 9 9 0 64
     let s := sc s8 [] c
     s.nextCmd 0 0x150 = some c ∧ (s.expect c).2 = true ∧ c.fieldAt 0x18 4 = c.fieldAt 0x1C 4 ∧ ((s.noted c).journalRecord 0 (c.fieldAt 0x18 4)).isSome = true ∧
       (s.noted c).journalPart = some 2 ∧
       s.journal.recs.filter (fun e => decide (e.2.1 = 0) && decide (c.fieldAt 0x18 4 ≤ e.1) && decide (e.1 ≤ c.fieldAt 0x1C 4)) = [(c.fieldAt 0x18 4, 0, 256, 64)] ∧
       64 ≤ c.fieldAt 0x28 4 ∧ (s.noted c).inStaging (c.fieldAt 0x20 8) 64 = true) := by
  refine ⟨⟨by decide +kernel, by decide +kernel, List.replicate 64 0#8, by decide +kernel, by decide +kernel, by decide +kernel⟩, by decide +kernel, by decide +kernel, by decide +kernel, by decide +kernel, by decide +kernel,
    by decide +kernel⟩
theorem wit_SlotCommandsAct_boundary : (let c := c0 0x120 3 0x800 0xC00 0
     let s := sc s8 [] c
     s.nextCmd 0 0x120 = some c ∧ c.opcode = 0x120 ∧ (s.expect c).2 = true ∧ (s.slot 0).run = none ∧ s.stepFollows c = false ∧ c.fieldAt 0x18 2 ≠ 0xFFFF ∧
       fld (modeChange (SMap.get 0x200#32 s8.modes (c.fieldAt 0x18 2)) (c.fieldAt 0x1C 4) (c.fieldAt 0x20 4)).toNat 11 10 ≠ 3) ∧
    fld (modeChange 0x200#32 0xC00 0xC00).toNat 11 10 = 3 ∧
    (let c := c0 0x121 0x3C800000 (4 + 200 * 65536) 6400 0
     (sc s8 [] c).nextCmd 0 0x121 = some c ∧ policyRefusal ((c.bytes.drop 0x18).take 16) = none) ∧ (policyRefusal (List.replicate 16 0#8)).isSome = true ∧
    (let c := c0 0x130 0 0 9 0
     (sc { sl0 with st := .ready, run := none } [] c).nextCmd 0 0x130 = some c ∧ (sc { sl0 with st := .ready, run := none } [] c).isMaster = true ∧
       sl0.epoch.epoch ≠ 0xFFFF ∧ (sc sl0 [] c).inStaging (c.fieldAt 0x18 8) 0x10800 = true) ∧
    (let c := c0 0x132 0 0 2 0
     (sc s8 [] c).nextCmd 0 0x132 = some c ∧ (sc s8 [] c).inStaging (c.fieldAt 0x18 8) (2 * c.fieldAt 0x20 1) = true ∧
       ((entriesOf ((sc s8 [] c).devRead 0 4) 2).map leNat).findIdx? (fun v => decide (16384 ≤ v)) = none) ∧
    (let c := c0 0x140 0 0 1 7
     let s := sc s8 [] c
     s.nextCmd 0 0x140 = some c ∧ (s.expect c).2 = true ∧ s8.permNext = none ∧ s8.prev = none ∧ s8.perm.active = false ∧ s8.st.loaded = true ∧ s8.epoch.epoch ≠ 0xFFFF ∧
       (s.noted c).inStaging (c.fieldAt 0x18 8) (32 * c.fieldAt 0x20 4) = true ∧
       ∀ e ∈ (entriesOf ((s.noted c).devRead (c.fieldAt 0x18 8) (32 * c.fieldAt 0x20 4)) 32).map parsePerm, e ≠ none) ∧
    (∃ e ∈ (entriesOf (List.replicate 32 0xFF#8) 32).map parsePerm, e = none) ∧ (entriesOf (List.replicate 32 0xFF#8) 32).length = 1 ∧
    (let x : Slot := { s8 with permNext := some (7, []) }
     x.permNext = some (7, []) ∧ x.run = none ∧ x.prev = none ∧ x.perm.active = false ∧ ¬ ({ x with run := some { step := 9 } } : Slot).run = none) ∧
    (let c := cmd 1 0x120 8 1 (leBytes 4 3 ++ leBytes 4 0x38 ++ leBytes 8 0x38 ++ leBytes 4 0) 0 0
     let s := jb 1 { st := .running, guest := true, part := 1 } [] c
     s.nextCmd 1 0x120 = some c ∧ c.opcode = 0x120 ∧ (s.expect c).2 = true ∧ (s.slot 1).guest = true ∧
       fld (modeChange 0x200#32 0x38 0x38).toNat 11 10 ≠ 3) ∧
    (sc { sl0 with st := .ready, run := none, epoch := { ep56 with master := 6 } } [] (c0 0x130 0 0 9 0)).isMaster = false ∧
    ([16384].findIdx? (fun v => decide (16384 ≤ v))) = some 0 := by decide +kernel

/-! The host link and the management side. -/

/-- The module in service with driver channel 0's block as `x`. -/
def ddm (x : Ddma) : State := { up with host := { up.host with ddma := SMap.set {} up.host.ddma 0 x } }
/-- The module in service with the host side as `f` makes it. -/
def hst (f : HostRegs → HostRegs) : State := { up with host := f up.host }
/-- The module in service with the start-up side as `f` makes it. -/
def bts (f : Boot → Boot) : State := { up with boot := f up.boot }
theorem wit_HostRequestsAct : up.boot.pcieUp = true ∧ up.fnHere 0 = true ∧ ((8#13).toNat ≠ 4 ∨ (2#26).toNat % 4 ≠ 0) ∧ ((4#13).toNat = 4 ∧ (4#26).toNat % 4 = 0) ∧
    (2#26).toNat % 4 ≠ 0 ∧ wst.hostUp = false ∧ up.hostUp = true ∧ (up.settleBar2.ddma 0).en = false ∧ ((ddm { en := true }).settleBar2.ddma 0).en = true ∧
    ((ddm { en := true }).settleBar2.chan (ddmaChan 0)).queue.length < 64 ∧ (0#32).toNat / 2 % 2 = 0 ∧
    (ddm {}).ddmaRefuses { ({} : Ddma) with vector := 0, cqLog2 := 4 } = false ∧ (ddm {}).ddmaRefuses {} = true ∧
    up.bar2Here 0 4 = true ∧ wst.bar2Here 0 4 = false ∧ up.admits (bar2Req 0 4) = true ∧ (hst (fun h => { h with winPart := 1 })).bar2Here 0 4 = true ∧
    (hst (fun h => { h with winPart := 1 })).admits (bar2Req ((hst (fun h => { h with winPart := 1 })).bar2Addr 0) 4) = false ∧
    (∀ l ∈ reqLocs up.mem 0 4, up.mem.lost l.gran = false) ∧ 30 ≤ (36#6).toNat ∧ (36#6).toNat ≤ 36 ∧ (29#6).toNat < 30 ∧
    (8#32).toNat / 2 % 2 = 0 ∧ ((ddm { en := true }).settleBar2.chan (ddmaChan 0)).queue = [] ∧
    (let s : State := { ddm { en := true } with dma := [(ddmaChan 0, { owner := 5, valid := true, queue := List.replicate 64 (dj 0) })] }
     64 ≤ (s.settleBar2.chan (ddmaChan 0)).queue.length) ∧
    (let s := { up with domains := [(dieKey 16, ({ rung := 2, target := 2 } : Domain))] }
     s.bar2Here 0 4 = true ∧ s.admits (bar2Req (s.bar2Addr 0) 4) = true ∧
       ∃ d ∈ reqDomains s.mem (s.bar2Addr 0) 4 false, ((reqDomains s.mem (s.bar2Addr 0) 4 false).foldl State.rouse s).awake d = false) ∧
    wst.boot.pcieUp = false ∧ wst.ready = false ∧ up.ready = true := by decide +kernel
theorem wit_HostRequestsAct_bar2 : up.serves .bar2 (up.bar2Addr 0 % 2 ^ 64) 4 false ∧ up.serves .bar2 (up.bar2Addr 0 % 2 ^ 64) 4 true := by
  unfold State.serves; decide +kernel
/-- The module in service with virtual function 1 enabled and command `c` on its ring. -/
def vfd (c : List Cmd) : State := { up with mail := { vfs := [1], cmds := c } }
theorem wit_HostRequestsAct_guest : (vfd []).hostUp = true ∧ 1 ∈ (vfd []).mail.vfs ∧ 1 ∉ up.mail.vfs ∧ ((vfd []).slot 1).st = .empty ∧
    (let s := { vfd [] with slots := [(1, ({ st := .running, guest := true } : Slot))] }
     (s.slot 1).st ≠ .empty) := by decide +kernel
theorem wit_VirtualFunctionsHoldTheirRings : (vfd []).hostUp = true ∧ (1 : Fin 4).val ∈ (vfd []).mail.vfs ∧ (2 : Fin 4).val ∉ (vfd []).mail.vfs ∧
    (0x1020#26).toNat = 0x1000 + 0x20 * 1 + 0 ∧ (0x10C0#26).toNat = 0x1000 + 0x20 * 6 + 0 ∧ (0x104C#26).toNat = 0x1000 + 0x20 * 2 + 12 ∧
    (0x1144#26).toNat = 0x1140 + 4 ∧ (1 : Fin 11).val = 1 ∧
    (∀ r, r = 1 ∨ r = 6 → (0x1000#26).toNat < 0x1000 + 0x20 * r ∨ 0x1000 + 0x20 * r + 0x20 ≤ (0x1000#26).toNat) ∧ up.events.length < 4096 ∧
    (let s := { rgs [(10, rr)] with events := (run (exec (.trap wp wh 6#16 0#16) wst)).events }
     s.events.length = 1 ∧ (s.ring 10).run = true ∧ (s.ring 10).free ≠ 0) := by
  refine ⟨by decide, by decide, by decide, by decide, by decide, by decide, by decide, by decide, fun r h => ?_, by decide, by decide +kernel⟩
  rcases h with rfl | rfl <;> decide
theorem wit_FirmwareDebugAndManagementAct : up.hostUp = true ∧ (hst (fun h => { h with fwuState := 1 })).settleBar2.host.fwuState = 1 ∧ up.settleBar2.host.fwuState ≠ 1 ∧
    (bts (fun b => { b with image := 2 })).settleBar2.fwuCauseOf 1 0 0 = some 0x14 ∧ up.settleBar2.fwuCauseOf 1 0 0 = some 0x12 ∧
    up.boot.flash.lost = [] ∧ up.anyLoaded = true ∧ ({ up with slots := [] } : State).anyLoaded = false ∧
    (bts (fun b => { b with logSecVersion := 1 })).boot.antiRollback < (bts (fun b => { b with logSecVersion := 1 })).boot.logSecVersion ∧ up.host.fwuJob = none ∧
    (hst (fun h => { h with fwuJob := some (1, [5#8]) })).host.fwuJob = some (1, [5#8]) ∧ up.boot.dbgLock = 0 ∧ 1 < (bts (fun b => { b with dbgLock := 2 })).boot.dbgLock ∧
    (bts (fun b => { b with dbgLock := 1 })).settleBar2.inStaging 0 232 = true ∧ leAt (up.devRead 0 4) 0 4 ≠ 0x44424754 ∧
    (hst (fun h => { h with tokHi := 0x20000000 })).inStaging (addrOf 0 0x20000000) 232 = false ∧ up.host.granted = false ∧
    (let s := hst (fun h => { h with granted := true, scopeG := 6 })
     s.host.granted = true ∧ bitOf s.host.scopeG 1 = true ∧ bitOf s.host.scopeG 2 = true ∧ (s.sideband 0 0).isSome = true ∧ s.sideband 25 0 = none ∧
       (s.sideband 24 0x100).isSome = true) ∧ (25 : Nat) > 24 ∧ up.settleBar2.fwuCauseOf 1 0 0 ≠ some 0 ∧
    (let u := (hst (fun h => { h with fwuLo := 0, fwuLen := 0 })).settleBar2
     u.host.fwuState ≠ 1 ∧ u.anyLoaded = true) ∧
    (let u := { bts (fun b => { b with logSecVersion := 1 }) with slots := [] }
     u.anyLoaded = false ∧ u.boot.antiRollback < u.boot.logSecVersion ∧
       u.boot.logSecVersion ≤ rdLE u.boot.flash.read (flashBase (if u.boot.image = 1 then 1 else 0) + 0x0A) 2) ∧
    (let u := { bts (fun b => { b with logSecVersion := 1, flash := { cells := [], erased := false } }) with slots := [] }
     rdLE u.boot.flash.read (flashBase (if u.boot.image = 1 then 1 else 0) + 0x0A) 2 < u.boot.logSecVersion) ∧
    ({ up with slots := [] } : State).boot.logSecVersion ≤ ({ up with slots := [] } : State).boot.antiRollback ∧ [5#8].length ≤ 0x200000 ∧
    up.boot.flash.erased = true ∧ (let u := (bts (fun b => { b with dbgLock := 1 })).settleBar2; leAt (u.devRead 0 232) 0 4 ≠ 0x44424754) ∧
    7 ≤ jtagNum (.internal 7) ∧ 3 ≤ jtagNum .extest ∧ jtagNum .extest < 7 := by decide +kernel
theorem wit_FirmwareDebugAndManagementAct_mctp : wst.mctpUp = false ∧ up.mctpUp = true ∧ up.boot.image ≠ 0 ∧ (bts (fun b => { b with image := 0 })).boot.image = 0 ∧
    jtagNum .bypass < 3 ∧ (32#8).toNat % 32 = 0 ∧ (33#8).toNat % 32 ≠ 0 ∧ 2900 ≤ (2900#16).toNat ∧ (4200#16).toNat ≤ 4200 ∧ 4200 < (4201#16).toNat := by decide
theorem test_setPowerLimit : (run (exec (.setPowerLimit 2900#16) up)).boot.powerLimit = 2900 ∧ (run (exec (.setPowerLimit 2899#16) up)).boot.powerLimit = up.boot.powerLimit := by
  decide +kernel
/-! Well-formedness refuses an ill-formed command of each check. -/

/-- A message too long for its header. -/
def longMsg : Msg := { msg 0#8 0#4 0#12 [] with payload := List.replicate 8192 0#32 }
theorem longMsg_shaped : msgShaped longMsg = false := by
  unfold msgShaped longMsg
  rw [List.length_replicate]
  decide
/-- A message of one word. -/
def okMsg : Msg := msg 0#8 0#4 0#12 [1#32]
theorem test_ill_messages : wellFormed (.ringMessage longMsg) = false ∧ wellFormed (.tokenMessage longMsg) = false ∧ wellFormed (.creditMessage longMsg) = false ∧
    wellFormed (.joinSegment longMsg) = false ∧ wellFormed (.jigsawResend longMsg) = false ∧ wellFormed (.wideRequest longMsg) = false ∧
    wellFormed (.contributionReceive longMsg) = false ∧ wellFormed (.landCredit 0 longMsg) = false ∧ wellFormed (.contribResend longMsg) = false ∧
    wellFormed (.seal longMsg) = false ∧ wellFormed (.epochPart longMsg) = false ∧ wellFormed (.gatherReq longMsg) = false ∧
    wellFormed (.gatherReceive longMsg) = false ∧ wellFormed (.bwdRelease longMsg) = false ∧ wellFormed (.permuteEntryReceive longMsg) = false ∧
    wellFormed (.permuteDone longMsg) = false ∧ wellFormed (.memberLost longMsg) = false ∧ wellFormed (.mirrorUnitReceive longMsg) = false ∧
    wellFormed (.linkState longMsg) = false ∧ wellFormed (.dmaNotice longMsg) = false := by
  simp only [wellFormed, longMsg_shaped, and_self]
theorem test_ill_units : wellFormed (.stageMem []) = false ∧ wellFormed (.domainEnable 7 1#24 0 false) = false ∧ wellFormed (.drainComplete 1 16#24) = false ∧
    wellFormed (.retireStepComplete 0 48#24) = false ∧ wellFormed (.exitComplete 5 ⟨48#24, false⟩) = false ∧ wellFormed (.thermalSensorRead 0 128) = false ∧
    wellFormed (.shadowTile wp sh) = false ∧ wellFormed (.jigsawResendTimeout wp 0#8 (2 ^ 32)) = false := by decide +kernel
theorem test_ill_links : wellFormed (.flitReceive 0 { lf with payload := List.replicate 209 0#8 }) = false ∧ wellFormed (.rungReq 0 7#12) = false ∧
    wellFormed (.rungAck 0 7#12) = false ∧ wellFormed (.widthReq 0 12#12) = false ∧ wellFormed (.portTrainingComplete 0 (some { dev := 0#14, port := 0, k := [1] })) = false := by
  decide +kernel
theorem test_ill_memory : wellFormed (.memRead { (mq 0#2) with len := 0 } []) = false ∧ wellFormed (.memWrite (mq 0#2) [1#8]) = false ∧
    wellFormed (.stripeBufferTimeout 0 (2 ^ 25)) = false ∧ wellFormed (.patrolScrub 0 0 (2 ^ 25) none) = false ∧ wellFormed (.copy 4 16#5 1) = false ∧
    wellFormed (.addF32 7 16#5 1) = false ∧ wellFormed (.dmaSend 4 31#5 1) = false ∧ wellFormed (.dmaComplete 4 16#5) = false ∧
    wellFormed (.cqHeadPoll 5 16#5) = false ∧ wellFormed (.dmaChannelAbort 6 16#5) = false := by decide
theorem test_ill_host : wellFormed (.arbRound { rnd [4096] with arrive := [] }) = false ∧ wellFormed (.bar0UnsupportedRequest 0 4#26 4#13) = false ∧
    wellFormed (.registerWrite 0 2#26 0#32) = false ∧ wellFormed (.sidebandRead 25#5 0#20) = false ∧ wellFormed (.sidebandWrite 0#5 2#20) = false ∧
    wellFormed (.getTemps []) = false ∧ wellFormed (.getPower 0#16 0#32 0#16 []) = false ∧ wellFormed (.bar2Resize 37#6) = false := by decide
theorem test_well_formed : wellFormed (.ringMessage okMsg) = true ∧ wellFormed (.domainEnable 5 47#24 0 false) = true ∧ wellFormed (.flitReceive 0 lf) = true ∧
    wellFormed (.widthReq 0 16#12) = true ∧ wellFormed (.memWrite { (mq 0#2) with len := 1 } [1#8]) = true ∧ wellFormed (.copy 4 15#5 1) = true ∧
    wellFormed (.bar2Resize 36#6) = true := by decide +kernel

end Sys2Proof.Tests
end

section
/-! SUPPORT. Lists of pieces of one length, and little-endian words in memory: what a read of a word gives after a write of words. -/

namespace Sys2Proof

/-- An element of a list made of pieces of one length stands in the piece that its index falls in. -/
theorem getD_flatten_of_length {α : Type} {d : α} {n : Nat} : ∀ {L : List (List α)}, (∀ l ∈ L, l.length = n) → ∀ i {c}, c < n →
    L.flatten.getD (n * i + c) d = (L.getD i []).getD c d
  | [], _, _, _, _ => by simp
  | l :: L, h, 0, c, hc => by
    have hl : l.length = n := h l (List.mem_cons_self ..)
    rw [List.flatten_cons, Nat.mul_zero, Nat.zero_add, List.getD_cons_zero, List.getD_eq_getElem?_getD,
      List.getElem?_append_left (by omega), ← List.getD_eq_getElem?_getD]
  | l :: L, h, i + 1, c, hc => by
    have hl : l.length = n := h l (List.mem_cons_self ..)
    have hi : n * (i + 1) + c = n + (n * i + c) := by rw [Nat.mul_succ]; omega
    rw [List.flatten_cons, hi, List.getD_cons_succ, List.getD_eq_getElem?_getD, List.getElem?_append_right (by omega), hl,
      Nat.add_sub_cancel_left, ← List.getD_eq_getElem?_getD]
    exact getD_flatten_of_length (fun x hx => h x (List.mem_cons_of_mem _ hx)) i hc

/-- The length of a list made of pieces of one length. -/
theorem length_flatten_of_length {α : Type} {n : Nat} : ∀ {L : List (List α)}, (∀ l ∈ L, l.length = n) → L.flatten.length = L.length * n
  | [], _ => by rw [List.flatten_nil, List.length_nil, List.length_nil, Nat.zero_mul]
  | l :: L, h => by
    rw [List.flatten_cons, List.length_append, h l (List.mem_cons_self ..),
      length_flatten_of_length fun x hx => h x (List.mem_cons_of_mem _ hx), List.length_cons, Nat.succ_mul, Nat.add_comm]

@[simp] theorem length_leBytes : ∀ n v, (leBytes n v).length = n
  | 0, _ => rfl
  | n + 1, v => congrArg (· + 1) (length_leBytes n (v / 256))

/-- Where a reader shows the bytes of a value, the little-endian value read is its low part. -/
theorem rdLE_of_leBytes {rd : Nat → Byte} : ∀ {n a v : Nat}, (∀ j, j < n → rd (a + j) = (leBytes n v).getD j 0) → rdLE rd a n = v % 256 ^ n
  | 0, _, v, _ => by simp [rdLE, Nat.mod_one]
  | n + 1, a, v, h => by
    have h0 : rd a = BitVec.ofNat 8 v := h 0 (Nat.succ_pos n)
    have ih : rdLE rd (a + 1) n = v / 256 % 256 ^ n := rdLE_of_leBytes fun j hj => by
      rw [Nat.add_assoc, Nat.add_comm 1 j, h (j + 1) (Nat.succ_lt_succ hj)]
      exact List.getD_cons_succ ..
    have hv : (BitVec.ofNat 8 v).toNat = v % 256 := BitVec.toNat_ofNat ..
    rw [rdLE, h0, ih, hv, Nat.pow_succ', Nat.mod_mul]

namespace Memory

/-- Words laid out little-endian, one after another. -/
def wordBytes (ws : List Word) : List Byte := (ws.map (fun v => leBytes 4 v.toNat)).flatten

theorem length_of_mem_map_leBytes {ws : List Word} : ∀ l ∈ ws.map (fun v => leBytes 4 v.toNat), l.length = 4 := by
  intro l hl
  obtain ⟨v, _, rfl⟩ := List.mem_map.mp hl
  exact length_leBytes ..

@[simp] theorem length_wordBytes (ws : List Word) : (wordBytes ws).length = ws.length * 4 := by
  rw [wordBytes, length_flatten_of_length length_of_mem_map_leBytes, List.length_map]

/-- A word read where words were written is the word that was written there. -/
theorem readLE_writeList_wordBytes (m : Memory) (a : Nat) {ws : List Word} {k : Nat} (hk : k < ws.length) :
    BitVec.ofNat 32 ((m.writeList a (wordBytes ws)).readLE (a + 4 * k) 4) = ws.getD k 0#32 := by
  have hbytes : ∀ j, j < 4 → (m.writeList a (wordBytes ws)).read (a + 4 * k + j) = (leBytes 4 (ws.getD k 0#32).toNat).getD j 0 := by
    intro j hj
    have hin : a ≤ a + 4 * k + j ∧ a + 4 * k + j < a + (wordBytes ws).length := by rw [length_wordBytes]; omega
    rw [read_writeList, if_pos hin, show a + 4 * k + j - a = 4 * k + j from by omega, wordBytes,
      getD_flatten_of_length length_of_mem_map_leBytes k hj]
    simp [hk]
  rw [readLE, rdLE_of_leBytes hbytes, Nat.mod_eq_of_lt (by have := (ws.getD k 0#32).isLt; omega), BitVec.ofNat_toNat, BitVec.setWidth_eq]

/-- Several writes leave every byte outside all of them as it was. -/
theorem read_foldl_writeList_other {b : Nat} : ∀ (ws : List (Nat × List Byte)) (m : Memory), (∀ x ∈ ws, b < x.1 ∨ x.1 + x.2.length ≤ b) →
    (ws.foldl (fun m x => m.writeList x.1 x.2) m).read b = m.read b
  | [], _, _ => rfl
  | w :: ws, m, h => by
    rw [List.foldl_cons, read_foldl_writeList_other ws _ fun x hx => h x (List.mem_cons_of_mem _ hx),
      read_writeList_other (h w (List.mem_cons_self ..))]

end Memory
end Sys2Proof
end

section
/-! SUPPORT. What every check of an op that issues has found, and what an op that writes local store leaves as it issues and moves on. -/

namespace Sys2Proof.Machine

/-- Checks of which no fault comes have all passed. -/
theorem eq_none_of_faultOf {cs : List (Option Nat)} (h : faultOf cs = none) : ∀ x ∈ cs, x = none := by
  have hnil : cs.filterMap id = [] := by
    unfold faultOf at h
    dsimp only at h
    split at h
    · cases h
    split at h
    · cases h
    split at h
    · assumption
    · next c l hcl =>
      split at h
      · cases h
      · rw [hcl, List.getElem?_eq_none_iff] at h
        exact absurd (Nat.mod_lt (Config.faultChoice (c :: l)) (Nat.succ_pos l.length)) (Nat.not_lt.2 h)
  intro x hx
  exact List.filterMap_eq_nil_iff.mp hnil x hx

theorem need_eq_none {ok : Bool} {code : Nat} : need ok code = none ↔ ok = true := by
  unfold need
  split <;> simp_all

/-- An op that issues has found no fault of its own. -/
theorem fault_of_issues {s : State} {p : Site} {h : OpHead} {pl : Plan} (hi : s.issues p h pl = true) : pl.fault = none := by
  simp only [State.issues, Bool.and_eq_true, Option.isNone_iff_eq_none] at hi
  obtain ⟨⟨⟨_, hf⟩, _⟩, _⟩ := hi
  unfold issueFault at hf
  split at hf
  · cases hf
  · exact eq_none_of_faultOf hf _ (List.mem_cons_self ..)

theorem State.countAll_eq (s : State) (f : Nat → CKey) (cs : List (Nat × Nat)) :
    s.countAll f cs = { s with counters := (s.countAll f cs).counters } := by
  unfold State.countAll
  induction cs generalizing s with
  | nil => rfl
  | cons c cs ih =>
    rw [List.foldl_cons, ih]
    rfl
@[simp] theorem State.countAll_cores (s : State) (f : Nat → CKey) (cs : List (Nat × Nat)) : (s.countAll f cs).cores = s.cores := by
  rw [State.countAll_eq]
theorem State.countAll_opFrame (s : State) (f : Nat → CKey) (cs : List (Nat × Nat)) (p : Site) : (s.countAll f cs).opFrame s p :=
  State.foldl_opFrame _ _ _ _ fun _ _ => State.count_opFrame ..

/-- A frame but for the slots, after a frame. -/
theorem State.opFrame_slots_trans {a b c : State} {p : Site} (h1 : { c with slots := b.slots }.opFrame b p) (h2 : b.opFrame a p) :
    { c with slots := a.slots }.opFrame a p := by
  obtain ⟨a1, a2, _, _, _, a6⟩ := State.opFrame_trans h1 h2
  exact ⟨a1, a2, fun _ _ => rfl, rfl, id, a6⟩

/-- Changing a slot and counting is a frame but for the slots. -/
theorem State.modSlot_countAll_opFrame (s : State) (k : Nat) (f : Slot → Slot) (g : Nat → CKey) (cs : List (Nat × Nat)) (p : Site) :
    { (s.modSlot k f).countAll g cs with slots := s.slots }.opFrame s p := by
  rw [State.countAll_eq]
  exact State.opFrame_of_cores rfl rfl rfl
/-- A context put in place keeps a frame but for the slots. -/
theorem State.setCtx_slots_opFrame {s u : State} {p : Site} (h : { u with slots := s.slots }.opFrame s p) (c : Ctx) :
    { u.setCtx p c with slots := s.slots }.opFrame s p := State.opFrame_trans (State.setCtx_opFrame { u with slots := s.slots } p c) h

/-- A frame keeps the seed of every slot. -/
theorem State.slot_seed_of_opFrame {s t : State} {p : Site} (h : t.opFrame s p) (k : Nat) : (t.slot k).seed = (s.slot k).seed := by
  obtain ⟨_, _, hother, h0, _, _⟩ := h
  by_cases hk : k = 0
  · rw [hk, h0]
  · rw [hother k hk]

/-- An op that issues, whose effect leaves loops and header alone and which stays inside its routine, takes its effect and moves on. -/
theorem issue_eq_setCtx {s : State} {p : Site} {h : OpHead} {pl : Plan} {eff : State → State} (hi : s.issues p h pl = true)
    (hs : (s.ctx p).staysIn = true) (hc : pl.ctl = false) (hl : ((eff (s.issued p h pl)).ctx p).loops = (s.ctx p).loops)
    (hh : ((eff (s.issued p h pl)).ctx p).hdr = (s.ctx p).hdr) :
    s.issue p h pl eff =
      (eff (s.issued p h pl)).setCtx p (((eff (s.issued p h pl)).ctx p).goto ((s.ctx p).pos + 1)) := by
  have hlt : (((eff (s.issued p h pl)).ctx p).goto ((s.ctx p).pos + 1)).pos < ((eff (s.issued p h pl)).ctx p).hdr.nOps := by
    rw [Ctx.goto_pos_of_loops hl, hh]
    exact of_decide_eq_true hs
  rw [issue_of_issues eff hi, if_neg (by simp [hc]), State.goto_of_lt hlt]

/-- What an op leaves of its core whose only effect there is to make the local store `m` and its context as `f` makes it. -/
def State.storesLs (t s : State) (p : Site) (h : OpHead) (pl : Plan) (m : Memory) (f : Ctx → Ctx) : Prop :=
  (t.core (Site.no p)).lmem = m ∧ t.ctx p = (f ((s.issued p h pl).ctx p)).goto ((s.ctx p).pos + 1) ∧
    { (t.core (Site.no p)).rest with lmem := (s.core (Site.no p)).lmem } = (s.core (Site.no p)).rest

theorem State.issued_lmem (s : State) (p : Site) (h : OpHead) (pl : Plan) (no : Nat) :
    ((s.issued p h pl).core no).lmem = (s.core no).lmem := congrArg (fun x => x.1) (s.issued_holds p h pl no)

/-- An effect `u` on `x` that changes of the site's core the local store and the context only. -/
def State.storesCore (u x : State) (p : Site) (m : Memory) (f : Ctx → Ctx) : Prop :=
  u.core (Site.no p) = { x.core (Site.no p) with lmem := m }.setCtx p.guest (f (x.ctx p))

theorem State.storesCore_ctx {u x : State} {p : Site} {m : Memory} {f : Ctx → Ctx} (h : u.storesCore x p m f) : u.ctx p = f (x.ctx p) := by
  rw [State.ctx, h, Core.ctx_setCtx]
@[simp] theorem Core.setCtx_lmem (c : Core) (g : Bool) (t : Ctx) : (c.setCtx g t).lmem = c.lmem :=
  congrArg (fun x => x.1) (c.setCtx_holds g t)

/-- An op with such an effect completes: it writes what the effect writes, and its new state is the effect's, moved on. -/
theorem issue_storesLs {s : State} {p : Site} {h : OpHead} {pl : Plan} {eff : State → State} {m : Memory} {f : Ctx → Ctx}
    (hi : s.issues p h pl = true) (hs : (s.ctx p).staysIn = true) (hc : pl.ctl = false) (hl : ∀ c, (f c).loops = c.loops)
    (hh : ∀ c, (f c).hdr = c.hdr) (he : (eff (s.issued p h pl)).storesCore (s.issued p h pl) p m f) :
    (s.issue p h pl eff).storesLs s p h pl m f ∧ ∃ c, s.issue p h pl eff = (eff (s.issued p h pl)).setCtx p c := by
  have hctx := State.storesCore_ctx he
  have ht := issue_eq_setCtx (eff := eff) hi hs hc (by rw [hctx, hl, State.issued_loops]) (by rw [hctx, hh, State.issued_hdr])
  have hrest : ∀ {c : Core} {m' : Memory}, { c with lmem := m' }.rest = { c.rest with lmem := m' } := rfl
  refine ⟨⟨?_, ?_, ?_⟩, _, ht⟩
  · rw [ht, State.setCtx, State.core_setCore, he, Core.setCtx_lmem, Core.setCtx_lmem]
  · rw [ht, State.ctx_setCtx, hctx]
  · rw [ht, State.setCtx_rest, he, Core.setCtx_rest, hrest, State.issued_rest]
    rfl

end Sys2Proof.Machine
end

section
/-! SUPPORT. QUANT (R54 to R58, R77): its effect on its core and on the rest of the block. -/

namespace Sys2Proof.Machine

theorem exec_quant {s : State} {p : Site} {h : OpHead} {a : QuantArgs} {q : QuantIn}
    (hq : quantIn (s.core (Site.no p)) (s.ctx p) a = some q) :
    exec (.quant p h a) s = .next (s.issue p h (quantPlan s p h a)
      (fun x => quantRun x p a q (quantBlocks (s.core (Site.no p)) (s.ctx p) a q))) := by
  have he : exec (.quant p h a) s = execQuant p h a s := rfl
  rw [State.ctx] at hq
  simp only [he, execQuant, hq, State.ctx]
theorem quantPlan_ctl (s : State) (p : Site) (h : OpHead) (a : QuantArgs) : (quantPlan s p h a).ctl = false := by
  unfold quantPlan
  dsimp only
  split <;> rfl

/-- What a QUANT writes depends on its context by the scalar registers alone. -/
theorem quantWrites_congr {t u : Ctx} (h : t.sregs = u.sregs) (a : QuantArgs) (q : QuantIn) (bs : List QBlk) :
    quantWrites t a q bs = quantWrites u a q bs := by
  simp only [quantWrites, Ctx.tile, Ctx.line, Ctx.sreg, h]

/-- The source that a QUANT notes for a send log (R190). -/
def quantSrc (t : Ctx) (a : QuantArgs) (q : QuantIn) : QSrc :=
  { desc := a.desc.toNat, tile := t.tile a.tile, line := t.line a.src, sfmt := a.sfmt.toNat, rotN := q.desc.rotN }
/-- The context after a QUANT of `w` kite words: S[KREG] holds their number, and the source is noted. -/
def quantCtx (a : QuantArgs) (w : Nat) (src : QSrc) (t : Ctx) : Ctx :=
  { t.setSreg a.kreg (BitVec.ofNat 32 w) with
    qsrc := src :: t.qsrc.filter (fun e => !(e.desc == src.desc && e.tile == src.tile)) }

theorem quantCtx_loops (a : QuantArgs) (w : Nat) (src : QSrc) (t : Ctx) : (quantCtx a w src t).loops = t.loops := Ctx.setSreg_loops ..
theorem quantCtx_hdr (a : QuantArgs) (w : Nat) (src : QSrc) (t : Ctx) : (quantCtx a w src t).hdr = t.hdr := Ctx.setSreg_hdr ..

theorem quantRun_storesCore (x : State) (p : Site) (a : QuantArgs) (q : QuantIn) (bs : List QBlk) :
    (quantRun x p a q bs).storesCore x p
      ((quantWrites (x.ctx p) a q bs).foldl (fun m w => m.writeList w.1 w.2) (x.core (Site.no p)).lmem)
      (quantCtx a ((bs.map (fun b => b.kites.length)).sum) (quantSrc (x.ctx p) a q)) := by
  unfold State.storesCore quantRun
  dsimp only
  rw [core_of_cores (State.countAll_cores ..), core_of_cores (State.modSlot_cores ..)]
  simp only [State.modCtx, State.modCore, State.setCtx, State.ctx, State.core_setCore]
  rfl
theorem quantRun_opFrame (x : State) (p : Site) (a : QuantArgs) (q : QuantIn) (bs : List QBlk) :
    { quantRun x p a q bs with slots := x.slots }.opFrame x p :=
  State.opFrame_slots_trans (State.modSlot_countAll_opFrame ..)
    (State.opFrame_trans (State.setCtx_opFrame ..) (State.setCore_opFrame _ _ _ rfl))

/-- Outside loops a context that moves on keeps its scalar registers. -/
theorem Ctx.goto_sregs {t : Ctx} (h : t.loops = []) (n : Nat) : (t.goto n).sregs = t.sregs := by
  unfold Ctx.goto
  rw [h]
  rfl
/-- The scalar registers after a write depend on those before alone. -/
theorem Ctx.setSreg_sregs_congr {t u : Ctx} (h : t.sregs = u.sregs) (d : BitVec 4) (v : Word) :
    (t.setSreg d v).sregs = (u.setSreg d v).sregs := by
  unfold Ctx.setSreg
  split
  · exact h
  · simp only [h]

end Sys2Proof.Machine
end

section
/-! SUPPORT. PINWHEEL (R85 to R90): the length of rotated lines, the place of each lane among the bytes written, and its effect. -/

namespace Sys2Proof.Rot

@[simp] theorem length_stage (h : Nat) (y : List Word) : (stage h y).length = y.length := by simp [stage]
@[simp] theorem length_stages (k h : Nat) (y : List Word) : (stages k h y).length = y.length := by
  induction k generalizing h y with
  | zero => rfl
  | succ k ih => rw [stages, ih, length_stage]
@[simp] theorem length_window (x : List Word) (k0 rotN : Nat) (seed : Long) (step layer axis : Nat) :
    (window x k0 rotN seed step layer axis).length = x.length := by simp [window, signed]

/-- A rotated line of whole windows is as long as the line. -/
theorem length_line {x : List Word} {rotN : Nat} (h : winLen rotN ∣ x.length) (k0 : Nat) (seed : Long) (step layer axis : Nat) :
    (line x k0 rotN seed step layer axis).1.length = x.length := by
  have hw : ∀ i, i < x.length / winLen rotN → ((x.drop (i * winLen rotN)).take (winLen rotN)).length = winLen rotN := by
    intro i hi
    have := Nat.mul_le_of_le_div _ _ _ (Nat.succ_le_of_lt hi)
    rw [Nat.succ_mul] at this
    rw [List.length_take, List.length_drop]
    omega
  unfold line
  dsimp only
  rw [length_flatten_of_length (n := winLen rotN), List.length_map, List.length_map, List.length_range, Nat.div_mul_cancel h]
  intro l hl
  simp only [List.map_map, List.mem_map, List.mem_range, Function.comp] at hl
  obtain ⟨i, hi, rfl⟩ := hl
  rw [length_window, hw i hi]

end Sys2Proof.Rot

namespace Sys2Proof.Machine

theorem exec_pinwheel {s : State} {p : Site} {h : OpHead} {a : PinwheelArgs} {da : Nat} {d : TDesc}
    (hd : descAt (s.core (Site.no p)) (s.ctx p).hdr a.desc.toNat = some (da, d)) :
    exec (.pinwheel p h a) s = .next (s.issue p h (pinwheelPlan s p h a) (fun x => pinwheelRun x p ((s.ctx p).line a.dst) d
      (pinwheelLines (s.core (Site.no p)) (s.ctx p) a d (x.slot (s.ctx p).slot).seed (s.core (Site.no p)).step.toNat))) := by
  have he : exec (.pinwheel p h a) s = execPinwheel p h a s := rfl
  rw [State.ctx] at hd
  simp only [he, execPinwheel, hd, State.ctx]
theorem pinwheelPlan_ctl (s : State) (p : Site) (h : OpHead) (a : PinwheelArgs) : (pinwheelPlan s p h a).ctl = false := by
  unfold pinwheelPlan
  dsimp only
  split <;> rfl

/-- A descriptor that a consumer accepts has a ROT_N of at most 4 (R33). -/
theorem rotN_le_of_validDesc {d : TDesc} (h : Coding.validDesc d = true) : d.rotN ≤ 4 := by
  simp only [Coding.validDesc, Bool.and_assoc, Bool.and_eq_true, decide_eq_true_eq] at h
  obtain ⟨_, hrot, _⟩ := h
  exact hrot
/-- A PINWHEEL that issues has a ROT_N of 1 to 4 (R33, R86). -/
theorem rotN_of_pinwheel_issues {s : State} {p : Site} {h : OpHead} {a : PinwheelArgs} {da : Nat} {d : TDesc}
    (hi : s.issues p h (pinwheelPlan s p h a) = true) (hd : descAt (s.core (Site.no p)) (s.ctx p).hdr a.desc.toNat = some (da, d)) :
    d.rotN ≠ 0 ∧ d.rotN ≤ 4 := by
  have hf := fault_of_issues hi
  rw [State.ctx] at hd
  simp only [pinwheelPlan, hd] at hf
  have hdesc := need_eq_none.mp (eq_none_of_faultOf hf _ (List.mem_cons_of_mem _ (List.mem_cons_self ..)))
  simp only [Bool.and_eq_true, decide_eq_true_eq] at hdesc
  obtain ⟨⟨⟨hv, _⟩, hne⟩, _⟩ := hdesc
  exact ⟨hne, rotN_le_of_validDesc hv⟩

/-- A window group is made of whole windows (R86). -/
theorem winLen_dvd_groupTiles {n : Nat} (h0 : n ≠ 0) (h4 : n ≤ 4) : Rot.winLen n ∣ groupTiles n * 64 := by
  have : n = 1 ∨ n = 2 ∨ n = 3 ∨ n = 4 := by omega
  rcases this with rfl | rfl | rfl | rfl <;> decide

theorem length_getD_readWide (rd : Nat → Byte) (b f : Nat) (tr : Bool) {r : Nat} (hr : r < 64) :
    ((Coding.readWide rd b f tr).getD r []).length = 64 := by
  simp [Coding.readWide, hr]

@[simp] theorem length_pinwheelLines (c : Core) (t : Ctx) (a : PinwheelArgs) (d : TDesc) (seed : Long) (step : Nat) :
    (pinwheelLines c t a d seed step).length = 64 := by simp [pinwheelLines]
/-- Every rotated line of a window group has 64 lanes for each of its tiles. -/
theorem length_of_mem_pinwheelLines {c : Core} {t : Ctx} {a : PinwheelArgs} {d : TDesc} {seed : Long} {step : Nat} (h0 : d.rotN ≠ 0)
    (h4 : d.rotN ≤ 4) : ∀ l ∈ pinwheelLines c t a d seed step, l.1.length = groupTiles d.rotN * 64 := by
  intro l hl
  simp only [pinwheelLines, List.mem_map, List.mem_range] at hl
  obtain ⟨r, hr, rfl⟩ := hl
  have hx : ∀ tl ∈ ((List.range (groupTiles d.rotN)).map (fun i => Coding.readWide c.lmem.read
      (t.line a.src * 256 + i * 4096 * Coding.sfmtBytes a.sfmt.toNat) a.sfmt.toNat a.transpose)).map (fun tl => tl.getD r []),
      tl.length = 64 := by
    intro tl htl
    simp only [List.map_map, List.mem_map, Function.comp] at htl
    obtain ⟨i, _, rfl⟩ := htl
    exact length_getD_readWide _ _ _ _ hr
  have hlen := length_flatten_of_length hx
  simp only [List.length_map, List.length_range] at hlen
  rw [Rot.length_line (by rw [hlen]; exact winLen_dvd_groupTiles h0 h4), hlen]

/-- The 64 lanes that tile `i` of a window group takes of a rotated line. -/
def tileLanes (i : Nat) (l : List Word × Nat) : List Word := (l.1.drop (64 * i)).take 64
/-- The lanes of tile `i`, line by line. -/
def tileWords (ls : List (List Word × Nat)) (i : Nat) : List Word := (ls.map (tileLanes i)).flatten
/-- The lanes of a window group, tile by tile. -/
def groupWords (g : Nat) (ls : List (List Word × Nat)) : List Word := ((List.range g).map (tileWords ls)).flatten

theorem pinwheelBytes_eq (g : Nat) (ls : List (List Word × Nat)) : pinwheelBytes g ls = Memory.wordBytes (groupWords g ls) := by
  simp only [pinwheelBytes, Memory.wordBytes, groupWords, tileWords, tileLanes, List.map_flatten, List.map_map, List.flatten_flatten,
    Function.comp_def]

section
variable {g : Nat} {ls : List (List Word × Nat)} (h64 : ls.length = 64) (hls : ∀ l ∈ ls, l.1.length = g * 64)
include hls

theorem length_of_mem_tileLanes {i : Nat} (hi : i < g) : ∀ w ∈ ls.map (tileLanes i), w.length = 64 := by
  intro w hw
  obtain ⟨l, hl, rfl⟩ := List.mem_map.mp hw
  have := hls l hl
  rw [tileLanes, List.length_take, List.length_drop]
  omega
include h64

theorem length_of_mem_tileWords : ∀ w ∈ (List.range g).map (tileWords ls), w.length = 4096 := by
  intro w hw
  obtain ⟨i, hi, rfl⟩ := List.mem_map.mp hw
  rw [tileWords, length_flatten_of_length (length_of_mem_tileLanes hls (List.mem_range.mp hi)), List.length_map, h64]
theorem length_groupWords : (groupWords g ls).length = g * 4096 := by
  rw [groupWords, length_flatten_of_length (length_of_mem_tileWords h64 hls), List.length_map, List.length_range]

/-- Word (r, c) of tile `i` is lane 64 i + c of rotated line r. -/
theorem groupWords_getD {i r c : Nat} (hi : i < g) (hr : r < 64) (hc : c < 64) :
    (groupWords g ls).getD (4096 * i + (64 * r + c)) 0#32 = ((ls.getD r ([], 0)).1).getD (64 * i + c) 0#32 := by
  have htile : ((List.range g).map (tileWords ls)).getD i [] = tileWords ls i := by simp [hi]
  have hline : (ls.map (tileLanes i)).getD r [] = tileLanes i (ls.getD r ([], 0)) := by simp [h64, hr]
  rw [groupWords, getD_flatten_of_length (length_of_mem_tileWords h64 hls) i (by omega), htile, tileWords,
    getD_flatten_of_length (length_of_mem_tileLanes hls hi) r hc, hline]
  simp [tileLanes, List.getD_eq_getElem?_getD, hc]

end

theorem pinwheelRun_storesCore (x : State) (p : Site) (line : Nat) (d : TDesc) (ls : List (List Word × Nat)) :
    (pinwheelRun x p line d ls).storesCore x p
      ((x.core (Site.no p)).lmem.writeList (line * 256) (Memory.wordBytes (groupWords (groupTiles d.rotN) ls))) id := by
  have hown : ∀ (c : Core) (g : Bool), c.setCtx g (c.ctx g) = c := by intro c g; cases g <;> rfl
  unfold State.storesCore pinwheelRun
  dsimp only
  rw [core_of_cores (State.countAll_cores ..), State.modCore, State.core_setCore, pinwheelBytes_eq]
  exact (hown _ _).symm
theorem pinwheelRun_opFrame (x : State) (p : Site) (line : Nat) (d : TDesc) (ls : List (List Word × Nat)) :
    (pinwheelRun x p line d ls).opFrame x p :=
  State.opFrame_trans (State.countAll_opFrame ..) (State.setCore_opFrame _ _ _ rfl)

end Sys2Proof.Machine
end

section
/-! What QUANT and PINWHEEL write when they complete. -/

namespace Sys2Proof.Machine

/-- QUANT completes with its writes, its count of kite words and nothing else of its core. -/
theorem quant_completes {s : State} {p : Site} {h : OpHead} {a : QuantArgs} {q : QuantIn} {bs : List QBlk}
    (hi : s.issues p h (quantPlan s p h a) = true) (hs : (s.ctx p).staysIn = true)
    (hq : quantIn (s.core (Site.no p)) (s.ctx p) a = some q) (hb : bs = quantBlocks (s.core (Site.no p)) (s.ctx p) a q) :
    ∃ t src, exec (.quant p h a) s = .next t ∧
      t.storesLs s p h (quantPlan s p h a)
        ((quantWrites (s.ctx p) a q bs).foldl (fun m x => m.writeList x.1 x.2) (s.core (Site.no p)).lmem)
        (quantCtx a ((bs.map (fun b => b.kites.length)).sum) src) ∧
      { t with slots := s.slots }.opFrame s p := by
  have he := quantRun_storesCore (s.issued p h (quantPlan s p h a)) p a q bs
  rw [State.issued_lmem, quantWrites_congr (s.issued_sregs ..)] at he
  obtain ⟨hst, c, ht⟩ := issue_storesLs (eff := fun x => quantRun x p a q bs) hi hs (quantPlan_ctl ..)
    (quantCtx_loops _ _ _) (quantCtx_hdr _ _ _) he
  refine ⟨_, _, by rw [exec_quant hq, ← hb], hst, ?_⟩
  rw [ht]
  exact State.setCtx_slots_opFrame (State.opFrame_slots_trans (quantRun_opFrame ..) (State.issued_opFrame ..)) c

/-- PINWHEEL completes with the words of its window group written and nothing else of its core changed. -/
theorem pinwheel_completes {s : State} {p : Site} {h : OpHead} {a : PinwheelArgs} {da : Nat} {d : TDesc} {ls : List (List Word × Nat)}
    (hi : s.issues p h (pinwheelPlan s p h a) = true) (hs : (s.ctx p).staysIn = true)
    (hd : descAt (s.core (Site.no p)) (s.ctx p).hdr a.desc.toNat = some (da, d))
    (hls : ls = pinwheelLines (s.core (Site.no p)) (s.ctx p) a d (s.slot (s.ctx p).slot).seed (s.core (Site.no p)).step.toNat) :
    ∃ t, exec (.pinwheel p h a) s = .next t ∧
      t.storesLs s p h (pinwheelPlan s p h a) ((s.core (Site.no p)).lmem.writeList ((s.ctx p).line a.dst * 256)
        (Memory.wordBytes (groupWords (groupTiles d.rotN) ls))) id ∧ t.opFrame s p := by
  have he := pinwheelRun_storesCore (s.issued p h (pinwheelPlan s p h a)) p ((s.ctx p).line a.dst) d ls
  rw [State.issued_lmem] at he
  rw [hls, ← State.slot_seed_of_opFrame (s.issued_opFrame p h (pinwheelPlan s p h a))] at he ⊢
  obtain ⟨hst, c, ht⟩ := issue_storesLs (eff := fun x => pinwheelRun x p ((s.ctx p).line a.dst) d (pinwheelLines (s.core (Site.no p))
    (s.ctx p) a d (x.slot (s.ctx p).slot).seed (s.core (Site.no p)).step.toNat)) hi hs (pinwheelPlan_ctl ..) (fun _ => rfl) (fun _ => rfl) he
  refine ⟨_, exec_pinwheel hd, hst, ?_⟩
  rw [ht]
  exact State.opFrame_trans (State.setCtx_opFrame ..) (State.opFrame_trans (pinwheelRun_opFrame ..) (State.issued_opFrame ..))

/-- Settles O22: each op's effect is a write of local store and of its context, and the bytes of a PINWHEEL are its lanes, word by word. -/
theorem quantAndPinwheelComplete : Obligations.QuantAndPinwheelComplete := by
  unfold Obligations.QuantAndPinwheelComplete
  constructor
  · intro s p h a q bs hi hs hq hb
    obtain ⟨t, src, hx, ⟨hm, hctx, hrest⟩, hf⟩ := quant_completes hi hs hq hb
    have hl : (quantCtx a ((bs.map (fun b => b.kites.length)).sum) src ((s.issued p h (quantPlan s p h a)).ctx p)).loops = (s.ctx p).loops :=
      (quantCtx_loops ..).trans (State.issued_loops ..)
    refine ⟨t, hx, hm, fun b hout => ?_, ?_, fun hnl => ?_, hrest, hf⟩
    · rw [hm, Memory.read_foldl_writeList_other _ _ hout]
    · rw [hctx, Ctx.goto_pos_of_loops hl]
    · rw [hctx, Ctx.goto_sregs (hl.trans hnl)]
      exact Ctx.setSreg_sregs_congr (State.issued_sregs ..) ..
  · intro s p h a da d ls hi hs hd hls
    obtain ⟨t, hx, ⟨hm, hctx, hrest⟩, hf⟩ := pinwheel_completes hi hs hd hls
    obtain ⟨h0, h4⟩ := rotN_of_pinwheel_issues hi hd
    have h64 : ls.length = 64 := by rw [hls, length_pinwheelLines]
    have hlen : ∀ l ∈ ls, l.1.length = groupTiles d.rotN * 64 := hls ▸ length_of_mem_pinwheelLines h0 h4
    have hn := length_groupWords h64 hlen
    refine ⟨t, hx, fun i r c hgi hr hc => ?_, fun b hout => ?_, hctx, hrest, hf⟩
    · have haddr : (s.ctx p).line a.dst * 256 + i * 16384 + r * 256 + c * 4 =
          (s.ctx p).line a.dst * 256 + 4 * (4096 * i + (64 * r + c)) := by omega
      rw [hm, haddr, Memory.readLE_writeList_wordBytes _ _ (by omega), groupWords_getD h64 hlen hgi hr hc]
    · rw [hm, Memory.read_writeList_other (by rw [Memory.length_wordBytes]; omega)]

end Sys2Proof.Machine
end

section
/-! SUPPORT. A message that a core takes up (R184, R185, R186): its path and its core are awake, so that nothing is woken, and it goes to the
context that its slot is bound to. -/

namespace Sys2Proof.Machine

/-- Attachment cores stand in the mesh (R270). -/
theorem attachCore_lt (die x y : Nat) : (attachCore die x y).1 < 48 ∧ (attachCore die x y).2 < 48 := by
  unfold attachCore clamp
  split <;> constructor <;> dsimp only <;> omega
theorem corePlace_lt (x y : BitVec 6) (a : Nat) : (corePlace x y a).1 < 48 ∧ (corePlace x y a).2 < 48 := by
  unfold corePlace
  split
  · assumption
  · exact attachCore_lt ..
/-- A message enters the mesh at a core of it. -/
theorem State.entryCore_lt (s : State) (m : Msg) : (s.entryCore m).1 < 48 ∧ (s.entryCore m).2 < 48 := by
  unfold State.entryCore
  split
  · exact corePlace_lt ..
  split
  · exact attachCore_lt ..
  · exact corePlace_lt ..

/-- A path between cores of the mesh crosses compute dies alone. -/
theorem lt_of_mem_meshDies {a b : Nat × Nat} (ha : a.1 < 48 ∧ a.2 < 48) (hb : b.1 < 48 ∧ b.2 < 48) : ∀ d ∈ meshDies a b, d < 16 := by
  intro d hd
  simp only [meshDies, List.mem_eraseDups, List.mem_append, List.mem_map, List.mem_range] at hd
  obtain ⟨x, ⟨i, hi, rfl⟩, rfl⟩ | ⟨y, ⟨i, hi, rfl⟩, rfl⟩ := hd <;> unfold dieOf coreNo <;> omega

/-- A compute die that is ACTIVE is not woken. -/
theorem State.wakeDie_of_awake {s : State} {d : Nat} (hd : d < 16) (h : s.awake (dieKey d) = true) : s.wakeDie d = s := by
  have hkey : dieKey d = 65536 + d := by rw [dieKey, dieKind, if_pos hd, domKey, Nat.one_mul]
  have hkind : dieKey d / 65536 = 1 := by omega
  have hrouse : s.rouseDie (dieKey d) = s := by simp only [State.rouseDie, dieOfDomain, hkind]
  obtain ⟨hr, hp⟩ : (s.domain (dieKey d)).rung = 0 ∧ (s.domain (dieKey d)).phase = 0 := by simpa [State.awake] using h
  simp [State.wakeDie, State.enable, hr, hp, hrouse]
/-- A path that is awake is not woken. -/
theorem State.wakePath_of_pathAwake {s : State} {a b : Nat × Nat} (ha : a.1 < 48 ∧ a.2 < 48) (hb : b.1 < 48 ∧ b.2 < 48)
    (h : s.pathAwake a b = true) : s.wakePath a b = s := by
  simp only [State.pathAwake, Bool.and_eq_true, List.all_eq_true] at h
  obtain ⟨hawake, -⟩ := h
  have hfold : ∀ l : List Nat, (∀ d ∈ l, s.wakeDie d = s) → l.foldl State.wakeDie s = s := by
    intro l hl
    induction l with
    | nil => rfl
    | cons d l ih => rw [List.foldl_cons, hl d (List.mem_cons_self ..), ih fun x hx => hl x (List.mem_cons_of_mem _ hx)]
  exact hfold _ fun d hd => State.wakeDie_of_awake (lt_of_mem_meshDies ha hb d hd) (hawake d hd)

/-- A site is found again by its core's number. -/
theorem siteOf_no (p : Site) : siteOf (Site.no p) p.guest = p := by
  obtain ⟨x, y, g⟩ := p
  simp only [siteOf, Site.no, coreNo, Site.mk.injEq, Fin.ext_iff, Fin.val_ofNat, and_true]
  omega

/-- A message that a context takes up leaves the wire and acts there. -/
theorem State.deliver_of_takes {s : State} {m : Msg} {p : Site} (h : s.takes m p) (act : State → Site → State) :
    s.deliver m act = act (s.arrived m) p := by
  obtain ⟨hdev, hx, hy, hactive, horder, hpath, hquiet, hcheck, hbound⟩ := h
  have hno : msgCore m = Site.no p := by rw [msgCore, Site.no, hx, hy]
  have hin : ¬ (m.destDev ≠ s.modId ∨ 48 ≤ m.destX.toNat ∨ 48 ≤ m.destY.toNat ∨ (!s.inOrder m) = true) := by
    simp [hdev, horder, ← hx, ← hy]
  have hwake : s.wakePath (s.entryCore m) (msgGoal m) = s :=
    State.wakePath_of_pathAwake (s.entryCore_lt m) (corePlace_lt ..) hpath
  have hq : ¬ (m.slot = 0#2 ∧ ((s.arrived m).slot 0).quiesced = true) := hquiet
  have hb : (s.arrived m).boundCtx (Site.no p) m.slot.toNat = some p.guest := hbound
  unfold State.deliver
  rw [if_neg hin]
  simp only [hwake, hno, hactive, hpath, if_true, Bool.not_true, Bool.or_self, Bool.false_eq_true, if_false, if_neg hq, hcheck, ne_eq,
    not_true, hb, siteOf_no]

end Sys2Proof.Machine
end

section
/-! SUPPORT. Replays from a send log (R82, R83, R190): what they put on their way, and what they leave. -/

namespace Sys2Proof

/-- The value at a key just changed. -/
@[simp] theorem SMap.get_modify_same {α : Type} [DecidableEq α] (d : α) (m : SMap α) (k : Nat) (f : α → α) :
    SMap.get d (SMap.modify d m k f) k = f (SMap.get d m k) := SMap.get_set_same ..

namespace Machine

/-- A message as it is on its way: its HCHECK is formed (R184). -/
def Msg.sent (m : Msg) : Msg := { m with hcheck := headerCheck m }
theorem State.inject_wire (s : State) (m : Msg) : (s.inject m).wire = s.wire ++ [Msg.sent m] := rfl

/-- What a replay of the messages `ms` leaves: they are on their way; the memories of its core and its context but for the purse are as
before. -/
def State.replays (t s : State) (p : Site) (ms : List Msg) : Prop :=
  t.wire = s.wire ++ ms ∧ t.modId = s.modId ∧ (t.core (Site.no p)).rest = (s.core (Site.no p)).rest ∧
    { t.ctx p with purse := (s.ctx p).purse } = s.ctx p

theorem State.replays_refl (s : State) (p : Site) : s.replays s p [] := ⟨(List.append_nil _).symm, rfl, rfl, rfl⟩
theorem State.replays_trans {t u s : State} {p : Site} {ms ns : List Msg} (h1 : t.replays u p ns) (h2 : u.replays s p ms) :
    t.replays s p (ms ++ ns) := by
  obtain ⟨hw1, hm1, hr1, hc1⟩ := h1
  obtain ⟨hw2, hm2, hr2, hc2⟩ := h2
  refine ⟨by rw [hw1, hw2, List.append_assoc], hm1.trans hm2, hr1.trans hr2, ?_⟩
  rw [← hc2, ← hc1]
theorem State.payReplay_replays (s : State) (p : Site) (cost : Nat) : (s.payReplay p cost).replays s p [] := by
  unfold State.payReplay
  dsimp only
  split
  · refine ⟨(List.append_nil _).symm, rfl, State.setCtx_rest .., ?_⟩
    rw [State.modCtx, State.ctx_setCtx]
  · refine ⟨(List.append_nil _).symm, rfl, ?_, ?_⟩
    · rw [core_of_cores (State.payFloor_cores ..)]
    · rw [State.ctx_of_cores (State.payFloor_cores ..)]

/-- One message of a replay: it is paid, sent and counted (R190, R350). -/
def State.sendReplay (s : State) (p : Site) (cost : Nat) (m : Msg) : State :=
  ((s.payReplay p cost).inject m).count (ckCtx Ctr.msgSent p)
theorem State.sendReplay_replays (s : State) (p : Site) (cost : Nat) (m : Msg) : (s.sendReplay p cost m).replays s p [Msg.sent m] := by
  have hsend : (s.sendReplay p cost m).replays (s.payReplay p cost) p [Msg.sent m] := ⟨rfl, rfl, rfl, rfl⟩
  exact State.replays_trans hsend (State.payReplay_replays ..)

/-- Cores that agree beside their contexts have the same local store. -/
theorem Core.lmem_of_rest {c e : Core} (h : c.rest = e.rest) : c.lmem = e.lmem := by
  have hrest : c.rest.lmem = e.rest.lmem := by rw [h]
  exact hrest
/-- What a segment spells rests on the module's number, the memories of its core and the slot of its context. -/
theorem segMsg_congr {t s : State} {p : Site} (hmod : t.modId = s.modId) (hrest : (t.core (Site.no p)).rest = (s.core (Site.no p)).rest)
    (hslot : (t.ctx p).slot = (s.ctx p).slot) (e : Endp) (g : Seg) (rsd tend : Bool) (sfmt : Nat) :
    segMsg t p e g rsd tend sfmt = segMsg s p e g rsd tend sfmt := by
  simp only [segMsg, fromCore, Core.lmem_of_rest hrest, hmod, hslot]
/-- A segment spells the same message after a replay as before it. -/
theorem segMsg_of_replays {t s : State} {p : Site} {ms : List Msg} (h : t.replays s p ms) : segMsg t p = segMsg s p := by
  obtain ⟨_, hmod, hrest, hctx⟩ := h
  have hslot : (t.ctx p).slot = (s.ctx p).slot := by rw [← hctx]
  funext
  exact segMsg_congr hmod hrest hslot ..

/-- The message of segment `i` of a logged tile's replay: RSD is set, and TEND on the last one of a closed tile. -/
def resendMsg (s : State) (p : Site) (e : Endp) (l : TileLog) (gi : Seg × Nat) : Msg :=
  segMsg s p e gi.1 true (l.closed && decide (gi.2 + 1 = l.segs.length)) 0
/-- That segment is replayed. -/
def State.resendSeg (p : Site) (e : Endp) (l : TileLog) (s : State) (gi : Seg × Nat) : State :=
  s.sendReplay p (sendCost gi.1.len) (resendMsg s p e l gi)
/-- Segments are replayed in order, each as the state before the replay spells it. -/
theorem State.foldl_resendSeg_replays (p : Site) (e : Endp) (l : TileLog) : ∀ (gs : List (Seg × Nat)) (s : State),
    (gs.foldl (State.resendSeg p e l) s).replays s p (gs.map fun gi => Msg.sent (resendMsg s p e l gi))
  | [], s => s.replays_refl p
  | gi :: gs, s => by
    have hone : (State.resendSeg p e l s gi).replays s p [Msg.sent (resendMsg s p e l gi)] := State.sendReplay_replays ..
    have hmore := State.foldl_resendSeg_replays p e l gs (State.resendSeg p e l s gi)
    simp only [resendMsg, segMsg_of_replays hone] at hmore
    exact State.replays_trans hmore hone

/-- The message of STREAM 3 that carries the QUANT source at a line (R83). -/
def wideMsg (s : State) (p : Site) (e : Endp) (line sfmt : Nat) (seq : BitVec 16) : Msg :=
  segMsg s p e { word := line * 64, len := 1024 * Coding.sfmtBytes sfmt, seq := seq, stream := 3, plane := 0 } false false sfmt
/-- Its ARG spells STREAM 3 and the source's format. -/
theorem wideMsg_arg (s : State) (p : Site) (e : Endp) (line : Nat) {sfmt : Nat} (hf : sfmt ≤ 4) (seq : BitVec 16) :
    (wideMsg s p e line sfmt seq).arg.toNat = 3 + 32 * sfmt := by
  have harg : (wideMsg s p e line sfmt seq).arg = BitVec.ofNat 12 (3 + 0 * 4 + 0 * 16 + sfmt * 32) := rfl
  rw [harg, BitVec.toNat_ofNat]
  omega

/-- The endpoint with its logged tile `l` noted as resent (R82). -/
def Endp.noteResent (l : TileLog) (e : Endp) : Endp := { e with log := e.log.map (fun x => if x = l then { x with resent := true } else x) }

theorem State.modEp_endp (s : State) (p : Site) (ep : Nat) (f : Endp → Endp) :
    ((s.modEp p ep f).ctx p).endp ep = f ((s.ctx p).endp ep) := by
  rw [State.modEp, State.modCtx, State.ctx_setCtx]
  exact SMap.get_modify_same ..
theorem State.modEp_rest (s : State) (p : Site) (ep : Nat) (f : Endp → Endp) :
    ((s.modEp p ep f).core (Site.no p)).rest = (s.core (Site.no p)).rest := State.setCtx_rest ..
theorem State.modEp_ctx (s : State) (p : Site) (ep : Nat) (f : Endp → Endp) :
    { (s.modEp p ep f).ctx p with eps := (s.ctx p).eps } = s.ctx p := by
  rw [State.modEp, State.modCtx, State.ctx_setCtx]

/-- A context that changed in its endpoints and then in its purse changed in those two alone. -/
theorem Ctx.eq_but_eps_purse {t u c : Ctx} (htu : { t with purse := u.purse } = u) (huc : { u with eps := c.eps } = c) :
    { t with eps := c.eps, purse := c.purse } = c := by rw [← huc, ← htu]

/-- JIGSAW_RESEND whose tile is logged notes the resend and replays the tile's segments. -/
theorem exec_jigsawResend_of_logged {s : State} {m : Msg} {p : Site} {ep : Nat} {l : TileLog} (ht : s.takes m p)
    (hep : (s.ctx p).endpFor m = some ep) (hl : ((s.ctx p).endp ep).logged m.seq = some l) :
    exec (.jigsawResend m) s = .next (l.segs.zipIdx.foldl (State.resendSeg p ((s.ctx p).endp ep) l)
      ((s.arrived m).modEp p ep (Endp.noteResent l))) := by
  have hx : exec (.jigsawResend m) s = execJigsawResend m s := rfl
  rw [hx, execJigsawResend, State.deliver_of_takes ht]
  simp only [State.ctx_of_cores (State.arrived_cores s m), hep, hl]
  rfl
/-- WIDE_REQUEST whose tile is logged with its QUANT source sends the source. -/
theorem exec_wideRequest_of_logged {s : State} {m : Msg} {p : Site} {ep line sfmt r : Nat} {l : TileLog} (ht : s.takes m p)
    (hep : (s.ctx p).endpFor m = some ep) (hl : ((s.ctx p).endp ep).logged m.seq = some l) (hsrc : l.src = some (line, sfmt, r)) :
    exec (.wideRequest m) s = .next ((s.arrived m).sendReplay p (sendCost (1024 * Coding.sfmtBytes sfmt))
      (wideMsg (s.arrived m) p ((s.ctx p).endp ep) line sfmt m.seq)) := by
  have hx : exec (.wideRequest m) s = execWideRequest m s := rfl
  rw [hx, execWideRequest, State.deliver_of_takes ht]
  simp only [State.ctx_of_cores (State.arrived_cores s m), hep, hl, hsrc, Option.bind_some]
  rfl
/-- Without a tile in its log a core that takes a resend or a wide request only takes it off the wire. -/
theorem exec_request_of_not_logged {s : State} {m : Msg} {p : Site} (ht : s.takes m p)
    (hno : (s.ctx p).endpFor m = none ∨ ∀ ep, (s.ctx p).endpFor m = some ep → ((s.ctx p).endp ep).logged m.seq = none) :
    exec (.jigsawResend m) s = .next (s.arrived m) ∧ exec (.wideRequest m) s = .next (s.arrived m) := by
  have hxr : exec (.jigsawResend m) s = execJigsawResend m s := rfl
  have hxw : exec (.wideRequest m) s = execWideRequest m s := rfl
  rw [hxr, hxw, execJigsawResend, execWideRequest, State.deliver_of_takes ht, State.deliver_of_takes ht]
  simp only [State.ctx_of_cores (State.arrived_cores s m)]
  cases hep : (s.ctx p).endpFor m with
  | none => exact ⟨rfl, rfl⟩
  | some ep =>
    have hl : ((s.ctx p).endp ep).logged m.seq = none := hno.elim (fun h => by rw [h] at hep; cases hep) (· ep hep)
    simp only [hl, Option.bind_none, and_self]

end Machine
end Sys2Proof
end

section
/-! SUPPORT. A tile that goes to the wide path (R83): its place in the joiner, its event and its requests. -/

namespace Sys2Proof.Machine

/-- Messages sent one after another. -/
theorem State.foldl_inject : ∀ (ms : List Msg) (s : State), ms.foldl State.inject s = { s with wire := s.wire ++ ms.map Msg.sent }
  | [], s => by rw [List.map_nil, List.append_nil]; rfl
  | m :: ms, s => by rw [List.foldl_cons, State.foldl_inject ms, State.inject_wire, List.append_assoc]; rfl

/-- An event of no INFO class is always posted. -/
theorem State.post_of_ne_info (s : State) (code : Nat) {cls : EvClass} (h : cls ≠ .info) (slot : Option Nat) (src : Nat) (pl : List Byte) :
    s.post code cls slot src pl = { s with
      events := s.events ++ [s.mkEvent code cls slot src pl false false]
      evSeq := s.evSeq + 1
      beyonds := s.beyonds + b2n (decide (cls = .beyond))
      evLost := 0 } := by
  unfold State.post
  rw [if_neg fun hi => h hi.1]

/-- A joiner tile on the wide path: of a stored tensor its source can be read at once. -/
def JTile.toWide (d : TDesc) (j : JTile) : JTile :=
  { ch := j.ch, guest := j.guest, tile := j.tile, senders := j.senders, retried := true
    mark := if d.codes / 2 ^ 62 = 0 then .wideReady else .wide }
/-- The requests for the wide source of a tile that is not of a stored tensor. -/
def wideRequests (s : State) (p : Site) (d : TDesc) (j : JTile) : List Msg :=
  if d.codes / 2 ^ 62 = 0 then [] else j.senders.map (fun x => jigsawMsg s p x 4 j.ch (firstSeq d j.tile))
theorem length_wideRequests (s : State) (p : Site) (d : TDesc) (j : JTile) :
    (wideRequests s p d j).length = if d.codes / 2 ^ 62 = 0 then 0 else j.senders.length := by
  unfold wideRequests
  split
  · rfl
  · exact List.length_map ..
/-- The tile is noted on the wide path: in the joiner, in JIGSAW_WIDE and by a RECONCILE event. -/
def State.noteWide (s : State) (p : Site) (d : TDesc) (j : JTile) : State :=
  ((s.setTile p (j.toWide d)).count (ckJoin Ctr.jigsawWide p d)).post 0x0701 .reconcile
    (some (((s.setTile p (j.toWide d)).count (ckJoin Ctr.jigsawWide p d)).ctx p).slot) (unitRef 0 (coreRef (Site.no p)))
    (payload [(1, 1), (2, coreRef (Site.no p)), (1, j.ch), (2, firstSeq d j.tile)])

theorem State.noteWide_cores (s : State) (p : Site) (d : TDesc) (j : JTile) :
    (s.noteWide p d j).cores = (s.setTile p (j.toWide d)).cores := State.post_cores ..
theorem State.noteWide_wire (s : State) (p : Site) (d : TDesc) (j : JTile) : (s.noteWide p d j).wire = s.wire := by
  rw [State.noteWide, State.post_of_ne_info _ _ (by decide)]
  rfl
theorem State.noteWide_events (s : State) (p : Site) (d : TDesc) (j : JTile) :
    ∃ e, (s.noteWide p d j).events = s.events ++ [e] ∧ e.code = 0x0701 := by
  rw [State.noteWide, State.post_of_ne_info _ _ (by decide)]
  exact ⟨_, rfl, rfl⟩

/-- Going to the wide path is the notes and then the requests. -/
theorem State.tileWide_eq (s : State) (p : Site) (d : TDesc) (j : JTile) :
    s.tileWide p d j = (wideRequests (s.noteWide p d j) p d j).foldl State.inject (s.noteWide p d j) := by
  by_cases h : d.codes / 2 ^ 62 = 0
  · simp only [State.tileWide, windowOf, wideRequests, State.noteWide, JTile.toWide, h, decide_true, if_true, List.foldl_nil]
  · simp only [State.tileWide, windowOf, wideRequests, State.noteWide, JTile.toWide, h, decide_false, Bool.false_eq_true, if_false]

theorem State.setTile_core (s : State) (p : Site) (j : JTile) :
    (s.setTile p j).core (Site.no p) = { s.core (Site.no p) with
      joiner := (s.core (Site.no p)).joiner.map (fun x => if x.ch = j.ch ∧ x.guest = j.guest ∧ x.tile = j.tile then j else x) } :=
  State.core_setCore ..
/-- A tile put back in place of one of its channel, context and number stands in the joiner. -/
theorem State.mem_setTile {s : State} {p : Site} {j k : JTile} (hj : j ∈ (s.core (Site.no p)).joiner)
    (hk : j.ch = k.ch ∧ j.guest = k.guest ∧ j.tile = k.tile) : k ∈ ((s.setTile p k).core (Site.no p)).joiner := by
  rw [State.setTile_core]
  exact List.mem_map.mpr ⟨j, hj, if_pos hk⟩

/-- JIGSAW_RESEND_TIMEOUT on a tile of the joiner: only one that waits for its resend goes to the wide path. -/
theorem exec_jigsawResendTimeout_of_find {s : State} {p : Site} {ch : BitVec 8} {tile : Nat} {j : JTile}
    (hj : (s.core (Site.no p)).joiner.find? (fun x => decide (x.ch = ch.toNat) && x.guest == p.guest && decide (x.tile = tile)) = some j) :
    exec (.jigsawResendTimeout p ch tile) s =
      .next (if j.mark = .resend then s.tileWide p (s.joinDesc p ((s.ctx p).chan ch.toNat)) j else s) := by
  have hx : exec (.jigsawResendTimeout p ch tile) s = execJigsawResendTimeout p ch tile s := rfl
  rw [hx, execJigsawResendTimeout, hj]
  dsimp only
  split <;> rfl

end Sys2Proof.Machine
end

section
/-! Resends and wide requests of the jigsaw (R82, R83, R190). -/

namespace Sys2Proof.Machine

/-- JIGSAW_RESEND replays its tile: the messages go on their way as the state spells them, the endpoint notes the resend, and of its core
the endpoints and the purse alone change. -/
theorem jigsawResend_completes {s : State} {m : Msg} {p : Site} {ep : Nat} {l : TileLog} (ht : s.takes m p)
    (hep : (s.ctx p).endpFor m = some ep) (hl : ((s.ctx p).endp ep).logged m.seq = some l) :
    ∃ t, exec (.jigsawResend m) s = .next t ∧
      t.wire = s.wire.erase m ++ (l.segs.zipIdx.map fun gi => Msg.sent (resendMsg s p ((s.ctx p).endp ep) l gi)) ∧
      (t.ctx p).endp ep = Endp.noteResent l ((s.ctx p).endp ep) ∧ (t.core (Site.no p)).rest = (s.core (Site.no p)).rest ∧
      { t.ctx p with eps := (s.ctx p).eps, purse := (s.ctx p).purse } = s.ctx p := by
  obtain ⟨u, hu⟩ : ∃ u, u = (s.arrived m).modEp p ep (Endp.noteResent l) := ⟨_, rfl⟩
  have hu_rest : (u.core (Site.no p)).rest = (s.core (Site.no p)).rest := hu ▸ State.modEp_rest ..
  have hu_ctx : { u.ctx p with eps := (s.ctx p).eps } = s.ctx p := hu ▸ State.modEp_ctx ..
  have hu_ep : (u.ctx p).endp ep = Endp.noteResent l ((s.ctx p).endp ep) := hu ▸ State.modEp_endp ..
  have hu_seg : ∀ gi, resendMsg u p ((s.ctx p).endp ep) l gi = resendMsg s p ((s.ctx p).endp ep) l gi := fun gi =>
    segMsg_congr (by rw [hu]; rfl) hu_rest (by rw [← hu_ctx]) ..
  obtain ⟨hwire, _, hrest, hctx⟩ := State.foldl_resendSeg_replays p ((s.ctx p).endp ep) l l.segs.zipIdx u
  refine ⟨_, hu ▸ exec_jigsawResend_of_logged ht hep hl, ?_, ?_, hrest.trans hu_rest, ?_⟩
  · simp only [hwire, hu_seg]
    rw [hu]
    rfl
  · rw [← hu_ep, ← hctx]
    rfl
  · exact Ctx.eq_but_eps_purse hctx hu_ctx

/-- Settles O27: a taken request acts with nothing woken; a resend is a fold of replays, each of which leaves the core's memories and its
context but for the purse, and a wide request is one replay; a tile that times out is noted on the wide path and then asked for. -/
theorem jigsawRecovery : Obligations.JigsawRecovery := by
  unfold Obligations.JigsawRecovery
  refine ⟨?_, ?_, ?_, ?_⟩
  · intro s m p ep l ht hep hl
    obtain ⟨t, hx, hwire, hlog, hrest, hctx⟩ := jigsawResend_completes ht hep hl
    refine ⟨t, _, hx, hwire, by rw [List.length_map, List.length_zipIdx], fun i hi => ?_, by rw [hlog]; rfl, hrest, hctx⟩
    have hi' : i < l.segs.length := by rwa [List.length_map, List.length_zipIdx] at hi
    refine ⟨Msg.sent (resendMsg s p ((s.ctx p).endp ep) l (l.segs[i], i)), l.segs[i], ?_, List.getElem?_eq_getElem hi', rfl, rfl, rfl, rfl,
      rfl, rfl, rfl⟩
    rw [List.getElem?_map, List.getElem?_zipIdx, List.getElem?_eq_getElem hi', Nat.zero_add]
    rfl
  · intro s m p ep line sfmt r l ht hep hl hsrc hf
    obtain ⟨hwire, _, hrest, _⟩ := (s.arrived m).sendReplay_replays p (sendCost (1024 * Coding.sfmtBytes sfmt))
      (wideMsg (s.arrived m) p ((s.ctx p).endp ep) line sfmt m.seq)
    have harg := wideMsg_arg (s.arrived m) p ((s.ctx p).endp ep) line hf m.seq
    exact ⟨_, _, exec_wideRequest_of_logged ht hep hl hsrc, hwire, rfl, harg, rfl, rfl, hrest⟩
  · intro s m p ht hno
    obtain ⟨hr, hw⟩ := exec_request_of_not_logged ht hno
    exact ⟨_, hr, hw, rfl⟩
  · intro s p ch tile j d hj hd
    rw [exec_jigsawResendTimeout_of_find hj, ← hd]
    refine ⟨fun hm => by rw [if_neg hm], fun hm => ?_⟩
    rw [if_pos hm]
    have hkey := List.find?_some hj
    simp only [Bool.and_eq_true, decide_eq_true_eq, beq_iff_eq] at hkey
    obtain ⟨⟨hch, hguest⟩, htile⟩ := hkey
    have hcore : (s.tileWide p d j).core (Site.no p) = (s.setTile p (j.toWide d)).core (Site.no p) := by
      rw [State.tileWide_eq, State.foldl_inject]
      exact core_of_cores (State.noteWide_cores ..) _
    obtain ⟨e, he, hcode⟩ := s.noteWide_events p d j
    refine ⟨_, j.toWide d, e, rfl, ?_, htile, hch, hguest, rfl, ?_, hcode, ?_, ?_⟩
    · rw [hcore]
      exact State.mem_setTile (List.mem_of_find?_eq_some hj) ⟨rfl, rfl, rfl⟩
    · rw [State.tileWide_eq, State.foldl_inject]
      exact he
    · rw [State.tileWide_eq, State.foldl_inject]
      simp only [State.noteWide_wire, List.length_append, List.length_map, length_wideRequests]
    · rw [hcore, State.setTile_core]

end Sys2Proof.Machine
end

section
/-! SUPPORT. The issue of MATMUL and WMATMUL (R109, R119, R131): a product that issues waits for no gather, and its op takes its place in
its array as it stands at its issue. -/

namespace Sys2Proof.Machine

/-- An op that issues is held by nothing of its plan. -/
theorem hold_of_issues {s : State} {p : Site} {h : OpHead} {pl : Plan} (hi : s.issues p h pl = true) : pl.hold = false := by
  simp only [State.issues, State.mayIssue, Bool.and_eq_true, Bool.not_eq_true'] at hi
  obtain ⟨⟨⟨⟨_, _, hhold⟩, _⟩, _⟩, _⟩ := hi
  exact hhold

/-- A layer that is not being gathered has no discarded copy to ask for (R251). -/
theorem State.regather_of_not_gathering {s : State} {layer axis : Nat} (h : (s.slot 0).gathering layer axis = false) :
    s.regather layer axis = s := by
  have hgone : (s.slot 0).gone.filter (fun e => decide (e.1 = layer) && decide (e.2.2 = axis)) = [] := by
    obtain ⟨_, hgone⟩ := Bool.or_eq_false_iff.mp h
    exact List.filter_eq_nil_iff.mpr (List.any_eq_false.mp hgone)
  rw [State.regather, hgone, List.foldl_nil]
/-- A MATMUL that issues asks for no gather. -/
theorem State.regatherFor_of_issues {s : State} {p : Site} {h : OpHead} {a : MatmulArgs} (hi : s.issues p h (matPlan s p h a) = true) :
    s.regatherFor p a = s := by
  have hhold := hold_of_issues hi
  simp only [matPlan] at hhold
  unfold State.regatherFor
  split
  · next aa d hrun hd =>
    simp only [Bool.and_eq_true, decide_eq_true_eq] at hrun
    obtain ⟨_, hslot⟩ := hrun
    simp only [State.ctx] at hd hslot
    simp only [hd, hslot, decide_true, Bool.true_and] at hhold
    rw [State.regather_of_not_gathering hhold, ite_self]
  · rfl

theorem Ctx.takeTokens_winOpen (t : Ctx) (m : BitVec 16) : (t.takeTokens m).winOpen = t.winOpen := by
  have hfold : ∀ (l : List Nat) (c : Ctx),
      (l.foldl (fun (c : Ctx) i => if m.getLsbD i then c.setToken i (c.token i - 1) else c) c).winOpen = c.winOpen := by
    intro l
    induction l with
    | nil => exact fun _ => rfl
    | cons i l ih =>
      intro c
      rw [List.foldl_cons, ih]
      split <;> rfl
  exact hfold _ _
theorem issueTokens_winOpen (t : Ctx) (h : OpHead) (pl : Plan) : (issueTokens t h pl).winOpen = t.winOpen := by
  have htook : (if pl.ownMask then t else t.takeTokens h.wmask).winOpen = t.winOpen := by
    split
    · rfl
    · exact Ctx.takeTokens_winOpen ..
  unfold issueTokens
  dsimp only
  split <;> exact htook
/-- The issue of an op leaves the note of a held window to the op itself. -/
theorem State.issued_winOpen (s : State) (p : Site) (h : OpHead) (pl : Plan) : ((s.issued p h pl).ctx p).winOpen = (s.ctx p).winOpen := by
  have hlaunch : (launch (issueTokens (s.ctx p) h pl) h pl).winOpen = (s.ctx p).winOpen := by
    rw [← issueTokens_winOpen (s.ctx p) h pl]
    unfold launch
    split <;> rfl
  rw [State.issued_ctx]
  split <;> exact hlaunch

theorem matPlan_finish (s : State) (p : Site) (h : OpHead) (a : MatmulArgs) :
    (matPlan s p h a).finish = .matmul (matStart (s.ctx p) a) := rfl
theorem wmatPlan_finish (s : State) (p : Site) (h : OpHead) (a : WmatmulArgs) :
    (wmatPlan s p h a).finish = .wide (wideStart (s.ctx p) a) := rfl

/-- An op whose issue is its whole effect completes and moves on. -/
theorem issue_id_stepsCtx {s : State} {p : Site} {h : OpHead} {pl : Plan} (hi : s.issues p h pl = true) (hs : (s.ctx p).staysIn = true)
    (hc : pl.ctl = false) : (s.issue p h pl id).stepsCtx s p h pl id := by
  rw [issue_eq_setCtx (eff := id) hi hs hc (s.issued_loops p h pl) (s.issued_hdr p h pl)]
  exact ⟨State.ctx_setCtx .., (State.setCtx_rest ..).trans (State.issued_rest ..),
    State.opFrame_trans (State.setCtx_opFrame ..) (State.issued_opFrame ..)⟩

/-- A MATMUL that issues goes in flight; beside that the note of a held window alone changes (R176). -/
theorem exec_matmul_of_issues {s : State} {p : Site} {h : OpHead} {a : MatmulArgs} (hi : s.issues p h (matPlan s p h a) = true)
    (hs : (s.ctx p).staysIn = true) :
    ∃ t, exec (.matmul p h a) s = .next t ∧
      t.stepsCtx s p h (matPlan s p h a) (fun c => { c with winOpen := winAfter (s.ctx p) a }) := by
  have hx : exec (.matmul p h a) s = execMatmul p h a s := rfl
  rw [hx, execMatmul, State.regatherFor_of_issues hi]
  refine ⟨_, rfl, issue_stepsCtx (f := fun c => { c with winOpen := winAfter (s.ctx p) a }) hi hs rfl (fun _ => rfl) (fun _ => rfl) _ ?_⟩
  simp only [State.modCtx, winAfter, State.issued_winOpen]
/-- A WMATMUL that issues goes in flight. -/
theorem exec_wmatmul_of_issues {s : State} {p : Site} {h : OpHead} {a : WmatmulArgs} (hi : s.issues p h (wmatPlan s p h a) = true)
    (hs : (s.ctx p).staysIn = true) :
    ∃ t, exec (.wmatmul p h a) s = .next t ∧ t.stepsCtx s p h (wmatPlan s p h a) id := by
  have hx : exec (.wmatmul p h a) s = execWmatmul p h a s := rfl
  rw [hx, execWmatmul]
  exact ⟨_, rfl, issue_id_stepsCtx hi hs rfl⟩

end Sys2Proof.Machine
end

section
/-! SUPPORT. An op in flight at OP_COMPLETE (R174, R175): what it is taken from, what it leaves when it is done, and its place in the tile
queue (R122). -/

namespace Sys2Proof.Machine

/-- A core with a context put back as it was is that core. -/
@[simp] theorem Core.setCtx_ctx (c : Core) (g : Bool) : c.setCtx g (c.ctx g) = c := by cases g <;> rfl
/-- Its contexts are apart from its local store and its tile queue. -/
theorem Core.ctx_lmem (c : Core) (m : Memory) (g : Bool) : ({ c with lmem := m } : Core).ctx g = c.ctx g := by cases g <;> rfl
theorem Core.ctx_tq (c : Core) (q : List TqEntry) (g : Bool) : ({ c with tq := q } : Core).ctx g = c.ctx g := by cases g <;> rfl
/-- An op put back as it was leaves its core as it was. -/
theorem State.setFlight_self_core (s : State) (p : Site) (f : InFlight) :
    (s.setFlight p f f).core (Site.no p) = s.core (Site.no p) := by
  have hmap : (s.ctx p).inflight.map (fun x => if x = f then f else x) = (s.ctx p).inflight := by
    refine List.map_id'' (fun x => ?_) _
    split
    · next h => exact h.symm
    · rfl
  rw [State.setFlight, State.modCtx, hmap, State.setCtx, State.core_setCore]
  exact Core.setCtx_ctx ..
theorem State.ctx_of_core {s t : State} {p : Site} (h : t.core (Site.no p) = s.core (Site.no p)) : t.ctx p = s.ctx p := by
  rw [State.ctx, h, State.ctx]
/-- An op that was replaced in flight stands there in its new form. -/
theorem State.mem_setFlight {s : State} {p : Site} {f : InFlight} (g : InFlight) (h : f ∈ (s.ctx p).inflight) :
    g ∈ ((s.setFlight p f g).ctx p).inflight := by
  rw [State.setFlight, State.modCtx, State.ctx_setCtx]
  exact List.mem_map.mpr ⟨f, h, if_pos rfl⟩
theorem State.setFlight_rest (s : State) (p : Site) (f g : InFlight) :
    ((s.setFlight p f g).core (Site.no p)).rest = (s.core (Site.no p)).rest := State.setCtx_rest ..

/-- Cores that agree beside their contexts have the same tile queue. -/
theorem Core.tq_of_rest {c e : Core} (h : c.rest = e.rest) : c.tq = e.tq := by
  have hrest : c.rest.tq = e.rest.tq := by rw [h]
  exact hrest

/-- An op without token and counter that is done leaves its context, and nothing else happens. -/
theorem State.opDone_of_silent {f : InFlight} (ht : f.tok = none) (hc : f.doneCtr = none) (s : State) (p : Site) :
    s.opDone p f = s.modCtx p (fun t => { t with inflight := t.inflight.erase f }) := by
  simp only [State.opDone, ht, hc]

/-- OP_COMPLETE takes the oldest op of a unit as far as it goes, where the clocks run and the op may advance. -/
theorem exec_opComplete_of_oldest {s : State} {p : Site} {u : OpUnit} {f : InFlight} (ho : (s.ctx p).oldest u = some f)
    (ha : s.coreActive (Site.no p) = true) (hn : f.needsCore = false ∨ (s.core (Site.no p)).guestIssuing = p.guest) :
    exec (.opComplete p u) s = .next (s.finishOp p f) := by
  have hx : exec (.opComplete p u) s = execOpComplete p u s := rfl
  have hgo : (!f.needsCore || (p.guest == (s.core (Site.no p)).guestIssuing)) = true := by
    rcases hn with h | h <;> simp [h]
  simp only [hx, execOpComplete, ho, ha, hgo, Bool.and_self, if_true]
/-- OP_COMPLETE of a unit without op, of a core whose clocks stand, or of work that needs a core another context holds, changes nothing. -/
theorem exec_opComplete_of_stopped {s : State} {p : Site} {u : OpUnit} (h : (s.ctx p).oldest u = none ∨ s.coreActive (Site.no p) = false ∨
    (((s.ctx p).oldest u).any InFlight.needsCore = true ∧ (s.core (Site.no p)).guestIssuing ≠ p.guest)) :
    exec (.opComplete p u) s = .next s := by
  have hx : exec (.opComplete p u) s = execOpComplete p u s := rfl
  rw [hx, execOpComplete]
  cases ho : (s.ctx p).oldest u with
  | none => rfl
  | some f =>
    rcases h with h | h | ⟨hn, hg⟩
    · rw [ho] at h
      cases h
    · simp [h]
    · have hne : (p.guest == (s.core (Site.no p)).guestIssuing) = false := beq_eq_false_iff_ne.mpr (Ne.symm hg)
      rw [ho, Option.any_some] at hn
      simp [hn, hne]

section
variable {f : InFlight} (hu : f.units = 0)
include hu

theorem InFlight.units_zero_self : { f with units := 0 } = f := by
  cases f
  cases hu
  rfl
/-- A plain op with nothing left to pay is done. -/
theorem State.finishOp_of_plain (hf : f.finish = .plain) (s : State) (p : Site) :
    s.finishOp p f = (s.setFlight p f f).opDone p f := by
  unfold State.finishOp
  rw [hu, State.payLater]
  dsimp only
  rw [InFlight.units_zero_self hu, hf, if_neg (Nat.lt_irrefl 0)]
/-- A MATMUL with nothing left to pay forms its chunks; one with all of them formed is delivered, another stays in flight. -/
theorem State.finishOp_of_matmul {m m' : MatRun} (hf : f.finish = .matmul m) {s u : State} {p : Site}
    (hr : (s.setFlight p f f).runChunks p (40 * 4096) m = (u, m')) :
    s.finishOp p f =
      if m'.args.nchunkM1.toNat < m'.done then u.deliverMat p f m' else u.setFlight p f { f with finish := .matmul m' } := by
  unfold State.finishOp
  rw [hu, State.payLater]
  dsimp only
  rw [InFlight.units_zero_self hu, hf]
  dsimp only
  rw [hr, if_neg (Nat.lt_irrefl 0)]
/-- A WMATMUL with nothing left to pay and the wide array free forms its chunks; one with all of them formed is delivered, another stays in
flight. -/
theorem State.finishOp_of_wide {w w' : WideRun} (hf : f.finish = .wide w) {s u : State} {p : Site}
    (hw : (s.setFlight p f f).wideFree p = true) (hr : (s.setFlight p f f).runWide p (3 * 4096) w = (u, w')) :
    s.finishOp p f =
      if w'.args.kchM1.toNat < w'.done then u.deliverWide p f w' else u.setFlight p f { f with finish := .wide w' } := by
  unfold State.finishOp
  rw [hu, State.payLater]
  dsimp only
  rw [InFlight.units_zero_self hu, hf]
  dsimp only
  rw [hr, hw, if_neg (Nat.lt_irrefl 0), if_pos rfl]
end

/-- The tile-queue entry of a finished tile (R122); that it is the newest of the FULL ones is the model's own choice (log 74). -/
def fullEntry (p : Site) (id : Nat) (acc : SMap Word) (tag : Long) : TqEntry := { id := id, guest := p.guest, full := true, acc := acc, tag := tag }
theorem State.tqFill_core (s : State) (p : Site) (id : Nat) (acc : SMap Word) (tag : Long) :
    (s.tqFill p id acc tag).core (Site.no p) = { s.core (Site.no p) with
      tq := (s.core (Site.no p)).tq.filter (fun e => e.id != id) ++ [fullEntry p id acc tag] } := by
  unfold State.tqFill
  dsimp only
  split
  · rw [core_of_cores (State.modSlot_cores ..), State.modCore, State.core_setCore]
    rfl
  · rw [State.modCore, State.core_setCore]
    rfl
/-- A tile that goes to its entry and ends its op: the entry is the newest, local store is as before, and the op has left. -/
theorem State.tqFill_opDone {f : InFlight} (ht : f.tok = none) (hc : f.doneCtr = none) (s : State) (p : Site) (id : Nat) (acc : SMap Word)
    (tag : Long) :
    (((s.tqFill p id acc tag).opDone p f).core (Site.no p)).tq =
        (s.core (Site.no p)).tq.filter (fun e => e.id != id) ++ [fullEntry p id acc tag] ∧
      (((s.tqFill p id acc tag).opDone p f).core (Site.no p)).lmem = (s.core (Site.no p)).lmem ∧
      (((s.tqFill p id acc tag).opDone p f).ctx p).inflight = (s.ctx p).inflight.erase f := by
  have hrest : (((s.tqFill p id acc tag).opDone p f).core (Site.no p)).rest = ((s.tqFill p id acc tag).core (Site.no p)).rest := by
    rw [State.opDone_of_silent ht hc]
    exact State.setCtx_rest ..
  have hcore := s.tqFill_core p id acc tag
  refine ⟨?_, ?_, ?_⟩
  · rw [Core.tq_of_rest hrest, hcore]
  · rw [Core.lmem_of_rest hrest, hcore]
  · rw [State.opDone_of_silent ht hc, State.modCtx, State.ctx_setCtx, State.ctx, hcore, Core.ctx_tq, State.ctx]

/-- Reserving an entry leaves local store and the contexts as they were. -/
theorem State.tqReserve_lmem (s : State) (p : Site) : ((s.tqReserve p).1.core (Site.no p)).lmem = (s.core (Site.no p)).lmem := by
  rw [State.tqReserve, State.core_setCore]
theorem State.tqReserve_ctx (s : State) (p : Site) : (s.tqReserve p).1.ctx p = s.ctx p := by
  rw [State.ctx, State.tqReserve, State.core_setCore]
  rfl
/-- The reserved entry is the newest. -/
theorem State.tqReserve_filter {s : State} {p : Site} {c : Core} (hc : s.core (Site.no p) = c) :
    ((s.tqReserve p).1.core (Site.no p)).tq.filter (fun e => e.id != c.tqNext) = c.tq.filter (fun e => e.id != c.tqNext) := by
  rw [State.tqReserve, State.core_setCore, hc]
  simp

end Sys2Proof.Machine
end

section
/-! SUPPORT. The chunks of a MATMUL (R115, R122, R123): the operands of the chunk at hand in local store, one rule for each way in which the
array goes on, and the delivery of the finished tile. -/

namespace Sys2Proof.Machine

/-- A descriptor rests on local store and the routine's tables alone. -/
theorem descAt_congr {c e : Core} (h : c.lmem = e.lmem) (hd : Hdr) (i : Nat) : descAt c hd i = descAt e hd i := by simp only [descAt, h]
/-- So does an operand tile that stands in local store. -/
theorem State.matIn_stored_congr {t s : State} {p : Site} (h : (t.core (Site.no p)).lmem = (s.core (Site.no p)).lmem)
    (desc : Option (Nat × TDesc)) (i tile : Nat) : t.matIn p desc false i tile = s.matIn p desc false i tile := by
  simp only [State.matIn, h, Bool.not_false, if_true]
/-- An operand tile from local store holds no slot of the joiner. -/
theorem MatIn.from'_of_stored {s : State} {p : Site} {desc : Option (Nat × TDesc)} {i tile : Nat} {x : MatIn}
    (h : s.matIn p desc false i tile = some x) : x.from' = none := by
  cases desc with
  | none => cases h
  | some d =>
    simp only [State.matIn, Bool.not_false, if_true, Option.some.injEq] at h
    rw [← h]

/-- The chunk at hand of a MATMUL has its operands in local store: the tile `x` of the tensor `d` at `aa` and the tile `y` of the tensor `e`
at `ba`. -/
structure MatRun.stored (m : MatRun) (s : State) (p : Site) (aa : Nat) (d : TDesc) (x : MatIn) (ba : Nat) (e : TDesc) (y : MatIn) : Prop where
  aJ : m.args.aJ = false
  bJ : m.args.bJ = false
  descA : m.descA (s.core (Site.no p)) = some (aa, d)
  descB : m.descB (s.core (Site.no p)) = some (ba, e)
  left : s.matIn p (some (aa, d)) false m.args.a.toNat (m.aTile + m.done) = some x
  right : s.matIn p (some (ba, e)) false m.args.b.toNat (m.bTile + m.done) = some y

section
variable {m : MatRun} {s : State} {p : Site} {aa ba : Nat} {d e : TDesc} {x y : MatIn}

/-- The operands stand as long as local store does. -/
theorem MatRun.stored.of_lmem {t : State} (h : m.stored s p aa d x ba e y)
    (hl : (t.core (Site.no p)).lmem = (s.core (Site.no p)).lmem) : m.stored t p aa d x ba e y where
  aJ := h.aJ
  bJ := h.bJ
  descA := (descAt_congr hl ..).trans h.descA
  descB := (descAt_congr hl ..).trans h.descB
  left := (State.matIn_stored_congr hl ..).trans h.left
  right := (State.matIn_stored_congr hl ..).trans h.right

/-- A product with all chunks formed forms no more. -/
theorem State.runChunks_of_formed (h : m.args.nchunkM1.toNat < m.done) (s : State) (p : Site) : ∀ k, s.runChunks p k m = (s, m)
  | 0 => rfl
  | k + 1 => by rw [State.runChunks, if_pos h]

section
variable (h : m.stored s p aa d x ba e y) (hd : m.done = m.args.nchunkM1.toNat) (k : Nat)
include h hd

/-- The final pass of a last chunk that needs a tile-queue entry waits where the queue has no room (R123); that is counted once a
command, the model's own choice (log 17). -/
theorem State.runChunks_of_full (hn : m.needsEntry (chunkKind x y) (m.owe.getD (chunkKind x y).energy.1) = true)
    (hroom : (s.core (Site.no p)).tqRoom p.guest = false) :
    s.runChunks p (k + 1) m =
      (s.count (ckLayer Ctr.tqFullStall p d.layer d.axis), { m with owe := some (m.owe.getD (chunkKind x y).energy.1) }) := by
  obtain ⟨haJ, hbJ, hA, hB, hx, hy⟩ := h
  rw [State.runChunks, if_neg (by omega)]
  simp only [haJ, hbJ, hA, hB, hx, hy, hn, hroom, if_true, Bool.false_eq_true, if_false]
/-- Where the queue has room it reserves an entry and goes on (R122). -/
theorem State.runChunks_of_room (hn : m.needsEntry (chunkKind x y) (m.owe.getD (chunkKind x y).energy.1) = true)
    (hroom : (s.core (Site.no p)).tqRoom p.guest = true) :
    s.runChunks p (k + 1) m = (s.tqReserve p).1.runChunks p k
      { m with owe := some (m.owe.getD (chunkKind x y).energy.1), entry := some (s.core (Site.no p)).tqNext } := by
  obtain ⟨haJ, hbJ, hA, hB, hx, hy⟩ := h
  rw [State.runChunks, if_neg (by omega)]
  simp only [haJ, hbJ, hA, hB, hx, hy, hn, hroom, if_true]
  rfl
/-- With its energy paid and its entry reserved a chunk is formed. -/
theorem State.runChunks_of_paid {id : Nat} (he : m.entry = some id) (ho : m.owe = some 0) :
    s.runChunks p (k + 1) m = (((s.reportTile p aa d x).reportTile p ba e y).formChunk p m d x y).1.runChunks p k
      (((s.reportTile p aa d x).reportTile p ba e y).formChunk p m d x y).2 := by
  have hnone : m.needsEntry (chunkKind x y) 0 = false := by simp [MatRun.needsEntry, he]
  have hfx := MatIn.from'_of_stored h.left
  have hfy := MatIn.from'_of_stored h.right
  obtain ⟨haJ, hbJ, hA, hB, hx, hy⟩ := h
  rw [State.runChunks, if_neg (by omega)]
  simp only [haJ, hbJ, hA, hB, hx, hy, ho, Option.getD_some, hnone, hfx, hfy, Bool.false_eq_true, if_false, if_true]
end

theorem State.reportTile_cores (s : State) (p : Site) (addr : Nat) (d : TDesc) (x : MatIn) : (s.reportTile p addr d x).cores = s.cores := by
  unfold State.reportTile
  exact foldl_cores _ _ _ fun _ _ => State.post_cores ..

/-- Forming a chunk changes of its core the context alone. -/
theorem State.formChunk_rest (s : State) (p : Site) (m : MatRun) (d : TDesc) (x y : MatIn) :
    ((s.formChunk p m d x y).1.core (Site.no p)).rest = (s.core (Site.no p)).rest := by
  obtain ⟨u, hu⟩ : ∃ u, u = if m.done = 0 ∧ m.args.cont = true then s.modCtx p (fun t => { t with win := none }) else s := ⟨_, rfl⟩
  have hrest : (u.core (Site.no p)).rest = (s.core (Site.no p)).rest := by
    rw [hu]
    split
    · exact State.setCtx_rest ..
    · rfl
  have hcores : (s.formChunk p m d x y).1.cores = u.cores := by
    unfold State.formChunk
    dsimp only
    rw [← hu]
    cases chunkKind x y with
    | zero => rfl
    | wide fb => cases fb <;> rfl
    | nibble n side => exact State.countAll_cores ..
  rw [core_of_cores hcores, hrest]
/-- The product with one more chunk formed, the window as `o` has it and `entry` reserved. -/
def MatRun.formed (m o : MatRun) (entry : Option Nat) : MatRun :=
  { m with done := m.done + 1, acc := o.acc, wide := o.wide, owe := none, entry := entry }
/-- After its last chunk a product has all of them formed. -/
theorem MatRun.formed_of_last (hd : m.done = m.args.nchunkM1.toNat) (o : MatRun) (entry : Option Nat) :
    (m.formed o entry).args.nchunkM1.toNat < (m.formed o entry).done := hd ▸ Nat.lt_succ_self _
/-- What a chunk makes of the window rests on the context and the window, not on what is owed or reserved. -/
theorem State.formChunk_congr {t : State} (hctx : t.ctx p = s.ctx p) (owe entry : Option Nat) :
    (t.formChunk p { m with owe := owe, entry := entry } d x y).2 = m.formed (s.formChunk p m d x y).2 entry := by
  unfold State.formChunk MatRun.formed
  simp only [hctx]
  cases chunkKind x y <;> dsimp only

/-- The last chunk of a product that goes to the tile queue, with its final pass to start, its energy paid and room in the queue: it is
formed, and a reserved entry is kept for its tile. -/
theorem State.runChunks_last (h : m.stored s p aa d x ba e y) (hd : m.done = m.args.nchunkM1.toNat) (k : Nat)
    (hdest : m.args.dest = 1#3) (he : m.entry = none) (ho : m.owe = some 0) (hroom : (s.core (Site.no p)).tqRoom p.guest = true) :
    ∃ u, s.runChunks p (k + 3) m = (u, m.formed (s.formChunk p m d x y).2 (some (s.core (Site.no p)).tqNext)) ∧
      (u.core (Site.no p)).rest = ((s.tqReserve p).1.core (Site.no p)).rest := by
  have hneeds : m.needsEntry (chunkKind x y) (m.owe.getD (chunkKind x y).energy.1) = true := by
    simp [MatRun.needsEntry, hdest, he, hd, ho]
  obtain ⟨r, hr⟩ : ∃ r, r = (s.tqReserve p).1 := ⟨_, rfl⟩
  have hl : (r.core (Site.no p)).lmem = (s.core (Site.no p)).lmem := hr ▸ s.tqReserve_lmem p
  obtain ⟨v, hv⟩ : ∃ v, v = (r.reportTile p aa d x).reportTile p ba e y := ⟨_, rfl⟩
  have hcores : v.cores = r.cores := by rw [hv, State.reportTile_cores, State.reportTile_cores]
  have hctx : v.ctx p = s.ctx p := by rw [State.ctx_of_cores hcores, hr, State.tqReserve_ctx]
  have hstored : MatRun.stored { m with owe := some 0, entry := some (s.core (Site.no p)).tqNext } r p aa d x ba e y :=
    let ⟨haJ, hbJ, hA, hB, hx, hy⟩ := h.of_lmem hl
    ⟨haJ, hbJ, hA, hB, hx, hy⟩
  refine ⟨(v.formChunk p { m with owe := some 0, entry := some (s.core (Site.no p)).tqNext } d x y).1, ?_, ?_⟩
  · rw [State.runChunks_of_room h hd _ hneeds hroom, ho, Option.getD_some, ← hr,
      State.runChunks_of_paid hstored hd _ rfl rfl, ← hv, State.formChunk_congr hctx, State.runChunks_of_formed (MatRun.formed_of_last hd ..)]
  · rw [State.formChunk_rest, core_of_cores hcores, hr]
end

/-- A finished product with DEST HOLD leaves its window to the context (R176). -/
theorem State.deliverMat_hold {m : MatRun} (hdest : m.args.dest = 0#3) {s : State} {p : Site} {aa : Nat} {d : TDesc}
    (hd : m.descA (s.core (Site.no p)) = some (aa, d)) {f : InFlight} (ht : f.tok = none) (hc : f.doneCtr = none) :
    ((s.deliverMat p f m).ctx p).win = some { acc := m.acc, wide := m.wide, lm := (d.layer, d.axis) } ∧
      ((s.deliverMat p f m).ctx p).inflight = (s.ctx p).inflight.erase f ∧
      ((s.deliverMat p f m).core (Site.no p)).rest = (s.core (Site.no p)).rest := by
  have hx : s.deliverMat p f m =
      (s.modCtx p (fun t => { t with win := some { acc := m.acc, wide := m.wide, lm := (d.layer, d.axis) } })).opDone p f := by
    simp only [State.deliverMat, hdest, hd, Option.map_some, Option.getD_some]
    rfl
  rw [hx, State.opDone_of_silent ht hc]
  simp only [State.modCtx, State.ctx_setCtx, State.setCtx_rest, and_self]
/-- A finished product with DEST TQ fills the entry reserved for it (R122). -/
theorem State.deliverMat_queue {m : MatRun} (hdest : m.args.dest = 1#3) {id : Nat} (he : m.entry = some id) (s : State) (p : Site)
    (f : InFlight) : s.deliverMat p f m = (s.tqFill p id m.acc (tqTag m.out m.mb (winNf m.acc) m.wide p.guest)).opDone p f := by
  simp only [State.deliverMat, hdest, he]
  rfl

end Sys2Proof.Machine
end

section
/-! SUPPORT. The chunks of a WMATMUL (R119, R121, R122) and the words of a window. -/

namespace Sys2Proof.Machine

/-- A table that lists the words of a list but the zeros, from key `n` on. -/
theorem get_words_of_zipIdx : ∀ (l : List Word) (n i : Nat),
    SMap.get 0#32 (((l.zipIdx n).filter (fun e => !decide (e.1 = 0#32))).map (fun e => (e.2, e.1))) i =
      if n ≤ i then l.getD (i - n) 0#32 else 0#32
  | [], n, i => by simp [SMap.get]
  | v :: l, n, i => by
    have ih := get_words_of_zipIdx l (n + 1) i
    rw [List.zipIdx_cons, List.filter_cons]
    rcases Nat.lt_trichotomy i n with hlt | rfl | hgt
    · have hne : n ≠ i := Nat.ne_of_gt hlt
      rw [if_neg (by omega)] at ih
      rw [if_neg (Nat.not_le.2 hlt)]
      split <;> simp [SMap.get, hne, ih]
    · rw [if_neg (Nat.not_succ_le_self i)] at ih
      by_cases hv : v = 0#32
      · simp [hv, ih]
      · simp [SMap.get, hv]
    · have hne : n ≠ i := Nat.ne_of_lt hgt
      rw [if_pos (Nat.succ_le_of_lt hgt)] at ih
      rw [if_pos (Nat.le_of_lt hgt), show i - n = i - (n + 1) + 1 from by omega, List.getD_cons_succ, ← ih]
      split <;> simp [SMap.get, hne]
@[simp] theorem length_winList (m : SMap Word) : (winList m).length = 4096 := by simp [winList, SMap.getList]
/-- A window made from a list of words holds them. -/
theorem getD_winList_ofWinList (l : List Word) {i : Nat} (hi : i < 4096) : (winList (ofWinList l)).getD i 0#32 = l.getD i 0#32 := by
  have hget := get_words_of_zipIdx l 0 i
  rw [if_pos (Nat.zero_le i), Nat.sub_zero] at hget
  simp only [winList, SMap.getList, List.getD_eq_getElem?_getD, List.getElem?_map, List.getElem?_range hi, Option.map_some, Option.getD_some,
    Nat.zero_add]
  rw [← List.getD_eq_getElem?_getD]
  exact hget

/-- Whether the wide array is free rests on the site's core and the memory alone. -/
theorem State.wideFree_congr {t s : State} {p : Site} (hc : t.core (Site.no p) = s.core (Site.no p)) (hm : t.mem = s.mem) :
    t.wideFree p = s.wideFree p := by
  have hwants : t.wantsWide p = s.wantsWide p := by
    funext f
    simp only [State.wantsWide, State.matIn, hc, hm]
  simp only [State.wideFree, State.fallBackWaits, hwants, State.ctx, hc]

section
variable {w : WideRun}

/-- The product with one more chunk formed. -/
def WideRun.formed (w : WideRun) (c : Core) : WideRun := { w with done := w.done + 1, acc := ofWinList (w.chunk c).1, owe := 1 }
/-- After its last chunk it has all of them formed. -/
theorem WideRun.formed_of_last (hd : w.done = w.args.kchM1.toNat) (c : Core) : (w.formed c).args.kchM1.toNat < (w.formed c).done :=
  hd ▸ Nat.lt_succ_self _
theorem State.formWide_cores (s : State) (p : Site) (w : WideRun) : (s.formWide p w).1.cores = s.cores := State.countAll_cores ..

section
variable (hd : w.done = w.args.kchM1.toNat)
include hd

/-- The last chunk of a product for the tile queue waits where the queue has no room (R123). -/
theorem State.runWide_of_full (hdest : w.args.dest = 0#2) (he : w.entry = none) {s : State} {p : Site}
    (hroom : (s.core (Site.no p)).tqRoom p.guest = false) (k : Nat) :
    s.runWide p (k + 1) w = (s.count (ckLayer Ctr.tqFullStall p w.lm.1 w.lm.2), w) := by
  rw [State.runWide, if_neg (by omega), if_pos ⟨hdest, he, hd⟩, hroom]
  rfl
/-- With its energy paid and no entry to reserve the last chunk is formed. -/
theorem State.runWide_of_paid (hn : ¬ (w.args.dest = 0#2 ∧ w.entry = none)) (ho : w.owe = 0) (s : State) (p : Site) (k : Nat) :
    s.runWide p (k + 2) w = ((s.formWide p w).1, w.formed (s.core (Site.no p))) := by
  have hgo : ¬ (w.args.dest = 0#2 ∧ w.entry = none ∧ w.done = w.args.kchM1.toNat) := fun ⟨hdest, he, _⟩ => hn ⟨hdest, he⟩
  have hformed : (s.formWide p w).2 = w.formed (s.core (Site.no p)) := rfl
  rw [State.runWide, if_neg (by omega), if_neg hgo, if_pos ho]
  dsimp only
  rw [hformed, State.runWide, if_pos (WideRun.formed_of_last hd _)]
end

/-- A finished product with DEST TQ fills the entry reserved for it (R122). -/
theorem State.deliverWide_queue (hdest : w.args.dest = 0#2) {id : Nat} (he : w.entry = some id) (s : State) (p : Site) (f : InFlight) :
    s.deliverWide p f w = (s.tqFill p id w.acc (tqTag w.out w.mb (winNf w.acc) true p.guest)).opDone p f := by
  rw [State.deliverWide, if_pos hdest, he]
/-- A finished product for local store writes its words to its destination lines (R176) and leaves the tile queue as it is. -/
theorem State.deliverWide_store (hdest : w.args.dest ≠ 0#2) {f : InFlight} (ht : f.tok = none) (hc : f.doneCtr = none) (s : State) (p : Site) :
    ((s.deliverWide p f w).core (Site.no p)).lmem =
        (s.core (Site.no p)).lmem.writeList (w.dLine * 256) (Memory.wordBytes (winList w.acc)) ∧
      ((s.deliverWide p f w).core (Site.no p)).tq = (s.core (Site.no p)).tq ∧
      ((s.deliverWide p f w).ctx p).inflight = (s.ctx p).inflight.erase f := by
  obtain ⟨u, hu⟩ : ∃ u, u = s.modCore (Site.no p) (fun c => { c with
    lmem := c.lmem.writeList (w.dLine * 256) (Memory.wordBytes (winList w.acc)) }) := ⟨_, rfl⟩
  have hcore : u.core (Site.no p) = { s.core (Site.no p) with
      lmem := (s.core (Site.no p)).lmem.writeList (w.dLine * 256) (Memory.wordBytes (winList w.acc)) } := by
    rw [hu, State.modCore, State.core_setCore]
  have hx : s.deliverWide p f w = u.modCtx p (fun t => { t with inflight := t.inflight.erase f }) := by
    rw [State.deliverWide, if_neg hdest, State.opDone_of_silent ht hc, hu]
    rfl
  have hrest : ((s.deliverWide p f w).core (Site.no p)).rest = (u.core (Site.no p)).rest := by
    rw [hx]
    exact State.setCtx_rest ..
  refine ⟨?_, ?_, ?_⟩
  · rw [Core.lmem_of_rest hrest, hcore]
  · rw [Core.tq_of_rest hrest, hcore]
  · rw [hx, State.modCtx, State.ctx_setCtx, State.ctx, hcore, Core.ctx_lmem, State.ctx]
end

end Sys2Proof.Machine
end

section
/-! What MATMUL, WMATMUL and OP_COMPLETE leave. -/

namespace Sys2Proof.Machine

/-- A plain op that is paid for leaves its context, and its ST token rises (R174). -/
theorem opComplete_of_plain {s : State} {p : Site} {u : OpUnit} {f : InFlight} (ho : (s.ctx p).oldest u = some f) (hu : f.units = 0)
    (ha : s.coreActive (Site.no p) = true) (hn : f.needsCore = false ∨ (s.core (Site.no p)).guestIssuing = p.guest)
    (hf : f.finish = .plain) (hc : f.doneCtr = none) (hrun : (s.ctx p).status = .running)
    (htok : ∀ k, f.tok = some k → (s.ctx p).token k < 15) :
    ∃ t, exec (.opComplete p u) s = .next t ∧
      t.ctx p = { s.ctx p with inflight := (s.ctx p).inflight.erase f }.raised f.tok ∧
      (t.core (Site.no p)).rest = (s.core (Site.no p)).rest ∧ t.opFrame s p := by
  refine ⟨_, exec_opComplete_of_oldest ho ha hn, ?_⟩
  rw [State.finishOp_of_plain hu hf]
  obtain ⟨v, hv⟩ : ∃ v, v = (s.setFlight p f f).modCtx p (fun t => { t with inflight := t.inflight.erase f }) := ⟨_, rfl⟩
  have hself := s.setFlight_self_core p f
  have hctx : v.ctx p = { s.ctx p with inflight := (s.ctx p).inflight.erase f } := by
    rw [hv, State.modCtx, State.ctx_setCtx, State.ctx_of_core hself]
  have hrest : (v.core (Site.no p)).rest = (s.core (Site.no p)).rest := by
    rw [hv, State.modCtx, State.setCtx_rest, hself]
  have hframe : v.opFrame s p := hv ▸ State.opFrame_trans (State.setCtx_opFrame ..) (State.setCtx_opFrame ..)
  cases ht : f.tok with
  | none =>
    have hx : (s.setFlight p f f).opDone p f = v := (State.opDone_of_silent ht hc ..).trans hv.symm
    rw [hx]
    exact ⟨hctx, hrest, hframe⟩
  | some k =>
    have hlt : ¬ 15 < (v.ctx p).token k + 1 := by
      rw [hctx]
      exact Nat.not_lt.2 (htok k ht)
    have hx : (s.setFlight p f f).opDone p f = v.setCtx p ((v.ctx p).setToken k ((v.ctx p).token k + 1)) := by
      have hstatus : ((v.ctx p).setToken k ((v.ctx p).token k + 1)).status = .running := by
        rw [hctx]
        exact hrun
      simp only [State.opDone, ht, hc, ← hv, State.addToken, if_neg hlt, State.release, State.ctx_setCtx, hstatus]
    rw [hx, State.ctx_setCtx, State.setCtx_rest, hctx]
    exact ⟨rfl, hrest, State.opFrame_trans (State.setCtx_opFrame ..) hframe⟩
/-- A token after a rise of one token. -/
theorem Ctx.token_raised (t : Ctx) (tok : Option Nat) (k : Nat) : (t.raised tok).token k = t.token k + (if tok = some k then 1 else 0) := by
  cases tok with
  | none => simp [Ctx.raised]
  | some j =>
    by_cases h : j = k
    · simp [Ctx.raised, h]
    · have hk : (t.setToken j (t.token j + 1)).token k = t.token k := by
        simp only [Ctx.token, Ctx.setToken, SMap.get_set_other (Ne.symm h)]
      simp [Ctx.raised, hk, h]
theorem Ctx.raised_inflight (t : Ctx) (tok : Option Nat) : (t.raised tok).inflight = t.inflight := by cases tok <;> rfl
/-- A rise of a token changes the tokens alone. -/
theorem Ctx.raised_tokens (t : Ctx) (tok : Option Nat) : { t.raised tok with tokens := t.tokens } = t := by cases tok <;> rfl

section
variable {s : State} {p : Site} {f : InFlight} (hu : f.units = 0)
include hu

section
variable {m : MatRun} (hf : f.finish = .matmul m)
include hf

/-- A MATMUL with all chunks formed is delivered. -/
theorem State.finishOp_of_formed (hd : m.args.nchunkM1.toNat < m.done) : s.finishOp p f = (s.setFlight p f f).deliverMat p f m := by
  rw [State.finishOp_of_matmul hu hf (State.runChunks_of_formed hd ..), if_pos hd]

section
variable {aa ba : Nat} {d e : TDesc} {x y : MatIn} (h : m.stored s p aa d x ba e y) (hd : m.done = m.args.nchunkM1.toNat)
  (hdest : m.args.dest = 1#3) (he : m.entry = none)
include h hd hdest he

/-- A MATMUL whose last chunk's final pass starts now, with room in the tile queue, ends in a new FULL entry (R122). -/
theorem State.finishOp_of_last (ht : f.tok = none) (hc : f.doneCtr = none) (ho : m.owe = some 0)
    (hroom : (s.core (Site.no p)).tqRoom p.guest = true) :
    ((s.finishOp p f).core (Site.no p)).tq =
        (s.core (Site.no p)).tq.filter (fun e => e.id != (s.core (Site.no p)).tqNext) ++
          [fullEntry p (s.core (Site.no p)).tqNext (s.formChunk p m d x y).2.acc
            (tqTag m.out m.mb (winNf (s.formChunk p m d x y).2.acc) (s.formChunk p m d x y).2.wide p.guest)] ∧
      ((s.finishOp p f).core (Site.no p)).lmem = (s.core (Site.no p)).lmem := by
  have hself := s.setFlight_self_core p f
  have hchunk : ((s.setFlight p f f).formChunk p m d x y).2 = (s.formChunk p m d x y).2 :=
    (State.formChunk_congr (State.ctx_of_core hself) m.owe m.entry).trans (State.formChunk_congr rfl m.owe m.entry).symm
  obtain ⟨u, hr, hrest⟩ := State.runChunks_last (h.of_lmem (congrArg Core.lmem hself)) hd (40 * 4096 - 3) hdest he ho (hself ▸ hroom)
  rw [hchunk, hself] at hr
  have hq := State.deliverMat_queue (m := m.formed (s.formChunk p m d x y).2 (some (s.core (Site.no p)).tqNext)) hdest rfl u p f
  rw [State.finishOp_of_matmul hu hf hr, if_pos (MatRun.formed_of_last hd ..), hq]
  obtain ⟨htq, hl, _⟩ := State.tqFill_opDone ht hc u p _ _ _
  rw [htq, hl, Core.tq_of_rest hrest, Core.lmem_of_rest hrest, State.tqReserve_filter hself, State.tqReserve_lmem, hself]
  exact ⟨rfl, rfl⟩
/-- Without room it stays in flight with no pass started, and the stall is counted (R123). -/
theorem State.finishOp_of_full (ho : m.owe.getD (chunkKind x y).energy.1 ≤ (chunkKind x y).lastPass)
    (hroom : (s.core (Site.no p)).tqRoom p.guest = false) :
    s.finishOp p f = ((s.setFlight p f f).count (ckLayer Ctr.tqFullStall p d.layer d.axis)).setFlight p f
      { f with finish := .matmul { m with owe := some (m.owe.getD (chunkKind x y).energy.1) } } := by
  have hself := s.setFlight_self_core p f
  have hneeds : m.needsEntry (chunkKind x y) (m.owe.getD (chunkKind x y).energy.1) = true := by
    simp [MatRun.needsEntry, hdest, he, hd, ho]
  rw [State.finishOp_of_matmul hu hf
    (State.runChunks_of_full (h.of_lmem (congrArg Core.lmem hself)) hd (40 * 4096 - 1) hneeds (hself ▸ hroom)), if_neg]
  exact hd ▸ Nat.lt_irrefl _
end
end

section
variable {w : WideRun} (hf : f.finish = .wide w) (hw : s.wideFree p = true) (hd : w.done = w.args.kchM1.toNat)
include hf hw hd

/-- The last chunk of a WMATMUL that has its entry, or needs none, is formed and the tile delivered. -/
theorem State.finishOp_of_wideLast (hn : ¬ (w.args.dest = 0#2 ∧ w.entry = none)) (ho : w.owe = 0) :
    ∃ u : State, u.core (Site.no p) = s.core (Site.no p) ∧ s.finishOp p f = u.deliverWide p f (w.formed (s.core (Site.no p))) := by
  have hself := s.setFlight_self_core p f
  refine ⟨((s.setFlight p f f).formWide p w).1, (core_of_cores (State.formWide_cores ..) _).trans hself, ?_⟩
  rw [State.finishOp_of_wide hu hf ((State.wideFree_congr hself rfl).trans hw) (State.runWide_of_paid hd hn ho _ _ (3 * 4096 - 2)),
    hself, if_pos (WideRun.formed_of_last hd _)]
/-- With DEST TQ its tile is in the entry reserved for it (R122). -/
theorem State.finishOp_of_wideQueue (ht : f.tok = none) (hc : f.doneCtr = none) {id : Nat} (he : w.entry = some id)
    (hdest : w.args.dest = 0#2) (ho : w.owe = 0) :
    ((s.finishOp p f).core (Site.no p)).tq = (s.core (Site.no p)).tq.filter (fun e => e.id != id) ++
        [fullEntry p id (ofWinList (w.chunk (s.core (Site.no p))).1)
          (tqTag w.out w.mb (winNf (ofWinList (w.chunk (s.core (Site.no p))).1)) true p.guest)] ∧
      ((s.finishOp p f).core (Site.no p)).lmem = (s.core (Site.no p)).lmem ∧
      ((s.finishOp p f).ctx p).inflight = (s.ctx p).inflight.erase f := by
  obtain ⟨u, hcore, hx⟩ := State.finishOp_of_wideLast hu hf hw hd (fun ⟨_, hnone⟩ => by rw [he] at hnone; cases hnone) ho
  rw [hx, State.deliverWide_queue (w := w.formed (s.core (Site.no p))) hdest he]
  dsimp only [WideRun.formed]
  obtain ⟨htq, hl, hout⟩ := State.tqFill_opDone ht hc u p id (ofWinList (w.chunk (s.core (Site.no p))).1)
    (tqTag w.out w.mb (winNf (ofWinList (w.chunk (s.core (Site.no p))).1)) true p.guest)
  rw [State.ctx_of_core hcore] at hout
  rw [hcore] at htq hl
  exact ⟨htq, hl, hout⟩
/-- With another DEST its words are in its destination lines (R176). -/
theorem State.finishOp_of_wideStore (ht : f.tok = none) (hc : f.doneCtr = none) (hdest : w.args.dest ≠ 0#2) (ho : w.owe = 0) :
    ((s.finishOp p f).core (Site.no p)).lmem = (s.core (Site.no p)).lmem.writeList (w.dLine * 256)
        (Memory.wordBytes (winList (ofWinList (w.chunk (s.core (Site.no p))).1))) ∧
      ((s.finishOp p f).core (Site.no p)).tq = (s.core (Site.no p)).tq ∧
      ((s.finishOp p f).ctx p).inflight = (s.ctx p).inflight.erase f := by
  obtain ⟨u, hcore, hx⟩ := State.finishOp_of_wideLast hu hf hw hd (fun ⟨hq, _⟩ => hdest hq) ho
  obtain ⟨hl, htq, hout⟩ := State.deliverWide_store (w := w.formed (s.core (Site.no p))) hdest ht hc u p
  rw [← hx, State.ctx_of_core hcore] at hout
  rw [← hx, hcore] at hl htq
  dsimp only [WideRun.formed] at hl
  exact ⟨hl, htq, hout⟩
/-- One that needs an entry and finds no room stays in flight as it is, and the stall is counted (R123). -/
theorem State.finishOp_of_wideFull (hdest : w.args.dest = 0#2) (he : w.entry = none)
    (hroom : (s.core (Site.no p)).tqRoom p.guest = false) :
    s.finishOp p f = ((s.setFlight p f f).count (ckLayer Ctr.tqFullStall p w.lm.1 w.lm.2)).setFlight p f { f with finish := .wide w } := by
  have hself := s.setFlight_self_core p f
  rw [State.finishOp_of_wide hu hf ((State.wideFree_congr hself rfl).trans hw)
    (State.runWide_of_full hd hdest he (hself ▸ hroom) (3 * 4096 - 1)), if_neg]
  exact hd ▸ Nat.lt_irrefl _
end
end

/-- An op that stalls in flight in a new form: the memories and queue of its core are as before, and the op stands in that form. -/
theorem State.stalled_flight {s : State} {p : Site} {f : InFlight} (hmem : f ∈ (s.ctx p).inflight) (k : CKey) (g : InFlight) :
    ((((s.setFlight p f f).count k).setFlight p f g).core (Site.no p)).rest = (s.core (Site.no p)).rest ∧
      g ∈ ((((s.setFlight p f f).count k).setFlight p f g).ctx p).inflight := by
  have hcore : ((s.setFlight p f f).count k).core (Site.no p) = s.core (Site.no p) := s.setFlight_self_core p f
  exact ⟨(State.setFlight_rest ..).trans (congrArg Core.rest hcore), State.mem_setFlight g (State.ctx_of_core hcore ▸ hmem)⟩

/-- Settles O23: the op of a product goes in flight as it issues; at OP_COMPLETE a paid op is done, a product with all chunks formed is
delivered, a last chunk with a place for its tile is formed and delivered, and one without stays in flight. -/
theorem productsAndCompletions : Obligations.ProductsAndCompletions := by
  unfold Obligations.ProductsAndCompletions
  refine ⟨?_, ?_, ?_, ?_, ?_, ?_⟩
  · intro s p h a hi hs
    obtain ⟨t, hx, hst⟩ := exec_matmul_of_issues hi hs
    exact ⟨t, hx, hst, matPlan_finish .., rfl⟩
  · intro s p h a hi hs
    obtain ⟨t, hx, hst⟩ := exec_wmatmul_of_issues hi hs
    exact ⟨t, hx, hst, wmatPlan_finish .., rfl⟩
  · exact fun s p u h => exec_opComplete_of_stopped h
  · intro s p u f ho hu ha hn hf hc hrun htok
    obtain ⟨t, hx, hctx, hrest, hframe⟩ := opComplete_of_plain ho hu ha hn hf hc hrun htok
    refine ⟨t, hx, by rw [hctx, Ctx.raised_inflight], fun k => ?_, ?_, hrest, hframe⟩
    · rw [hctx, Ctx.token_raised]
      rfl
    · have hraised := Ctx.raised_tokens { s.ctx p with inflight := (s.ctx p).inflight.erase f } f.tok
      rw [← hctx] at hraised
      exact congrArg (fun t : Ctx => { t with inflight := (s.ctx p).inflight }) hraised
  · intro s p f m da d ho hu ha hg hf hA ht hc
    have hself := s.setFlight_self_core p f
    refine ⟨_, exec_opComplete_of_oldest ho ha (.inr hg), fun hd hdest => ?_, fun id hd hdest he => ?_, ?_⟩
    · rw [State.finishOp_of_formed hu hf hd]
      have hheld := State.deliverMat_hold hdest (s := s.setFlight p f f) (hself ▸ hA) ht hc
      rwa [State.ctx_of_core hself, hself] at hheld
    · rw [State.finishOp_of_formed hu hf hd, State.deliverMat_queue hdest he]
      obtain ⟨htq, hl, hout⟩ := State.tqFill_opDone ht hc (s.setFlight p f f) p id m.acc (tqTag m.out m.mb (winNf m.acc) m.wide p.guest)
      rw [State.ctx_of_core hself] at hout
      rw [hself] at htq hl
      exact ⟨htq, hout, hl⟩
    · intro ba e x y hd hdest he haJ hbJ hB hx hy
      have hst : m.stored s p da d x ba e y := ⟨haJ, hbJ, hA, hB, hx, hy⟩
      refine ⟨fun howe hroom => ?_, fun howe hroom => ?_⟩
      · obtain ⟨htq, hl⟩ := State.finishOp_of_last hu hf hst hd hdest he ht hc howe hroom
        exact ⟨_, htq, rfl, rfl, rfl, rfl, hl⟩
      · obtain ⟨hrest, hstays⟩ := State.stalled_flight (List.mem_of_find?_eq_some ho) (ckLayer Ctr.tqFullStall p d.layer d.axis)
          { f with finish := .matmul { m with owe := some (m.owe.getD (chunkKind x y).energy.1) } }
        rw [State.finishOp_of_full hu hf hst hd hdest he howe hroom]
        exact ⟨Core.tq_of_rest hrest, rfl, ⟨_, hstays, rfl⟩, rfl⟩
  · intro s p f w ho hu ha hg hf ht hc hw hd howe
    refine ⟨_, exec_opComplete_of_oldest ho ha (.inr hg), fun id hdest he => ?_, fun hdest he hroom => ?_, fun hdest => ?_⟩
    · exact State.finishOp_of_wideQueue hu hf hw hd ht hc he hdest howe
    · obtain ⟨hrest, hstays⟩ := State.stalled_flight (List.mem_of_find?_eq_some ho) (ckLayer Ctr.tqFullStall p w.lm.1 w.lm.2)
        { f with finish := .wide w }
      rw [State.finishOp_of_wideFull hu hf hw hd hdest he hroom]
      exact ⟨Core.tq_of_rest hrest, Core.lmem_of_rest hrest, ⟨_, hstays, rfl⟩, rfl⟩
    · have hne : w.args.dest ≠ 0#2 := by rw [hdest]; decide
      obtain ⟨hl, htq, hout⟩ := State.finishOp_of_wideStore hu hf hw hd ht hc hne howe
      refine ⟨fun i hi => ?_, fun b hb => ?_, htq, hout⟩
      · rw [hl, Memory.readLE_writeList_wordBytes _ _ (by rwa [length_winList])]
        exact getD_winList_ofWinList _ hi
      · rw [hl, Memory.read_writeList_other]
        rwa [Memory.length_wordBytes, length_winList]

end Sys2Proof.Machine
end
